-- ==== Sys2Proof/Word.lean ====
section
/-!
DEFINITION. Sys2Proof/Word.lean: the word types of the module. A bit vector stands for what the manual treats as
bits; counts, indices and addresses are Nat.
-/
namespace Sys2Proof

/-- A byte. -/
abbrev Byte := BitVec 8

/-- An FP32 bit pattern, one element of an accumulator tile. -/
abbrev F32 := BitVec 32

end Sys2Proof
end

