-- ==== Sys2Proof/Config.lean ====
section
/-!
DEFINITION. Sys2Proof/Config.lean: what one module fixes and the manual does not, and the values it leaves open.
Each is a constant without a body: nothing can be proved of a value of it, so a claim holds whatever it is.
-/
namespace Sys2Proof.Config

/-- FREE VALUE (log entry 3): sign and payload of a NaN that an arithmetic operation of two FP32 operands makes
(R91, R102 give a NaN, not its bits), by the place in the step and the operands. -/
opaque nanBits : Nat → F32 → F32 → F32

/-- FREE VALUE (log entry 4): distance, in bit patterns, of the EXP (0) or RSQRT (1) result of an input from the
correctly rounded one; the model keeps only distances that R103's bound allows. -/
opaque vecOffset : Nat → F32 → Int

/-- FREE VALUE (log entry 5): a byte of bonded SRAM that nothing has written since it became undefined (R53, R124),
by the number of the occasion and the byte's module offset. -/
opaque undefByte : Nat → Nat → Byte

/-- FREE VALUE (log entry 6): the n-th draw of 128 bits from the module's entropy source (R101). -/
opaque entropy : Nat → BitVec 128

/-- FREE VALUE (log entry 7): module id and sending face (module + 16384 × face) that the deck expects on an express pair
of a face, by the occasion, the face and the pair (R210 takes it from the fibre plan, which names the neighbour only). -/
opaque expressPeer : Nat → Nat → Nat → Nat

/-- FREE VALUE (log entry 8): an entry of the observer rows of a servo axis's matrix, by gain set, axis, row 0 to 2 and column (R250,
R253). -/
opaque servoObserver : Nat → Nat → Nat → Nat → Int

/-- FREE VALUE (log entry 8): the feedback gain K of a gain set and an axis, for the angle (0) and the rate (1), R250. -/
opaque servoGain : Nat → Nat → Nat → Int

/-- FREE VALUE (log entry 8): the fused model of an axis: ω₀² (0) and ω₀/Q (1) as the matrix holds them, and b_max (2), R248 and R250. -/
opaque axisModel : Nat → Nat → Nat

/-- FREE VALUE (log entry 8): fraction bits of the matrix's fixed point (R249). -/
opaque servoFraction : Nat

/-- FREE VALUE (log entry 8): is a quotient of chapter 10 that is no whole number rounded up? By the place, dividend and divisor. -/
opaque roundUp : Nat → Int → Nat → Bool

/-- FREE VALUE (log entry 8): the drive of an axis for a commanded torque where R250's formula divides by zero. -/
opaque servoDrive : Nat → Int → Int

/-- FREE VALUE (log entry 8): what the engine's 32 bits hold of a result that they cannot (R249), by the place and the result. -/
opaque servoOverflow : Nat → Int → BitVec 32

/-- FREE VALUE (log entry 95): how far above −20.0 dBm a transmitter's light is at its input's tap, by the occasion (R228). -/
opaque lightPower : Nat → Nat

/-- FREE VALUE (log entry 95): how far below −20.0 dBm a tap without light reads, by the occasion (R228). -/
opaque darkPower : Nat → Nat

/-- FREE VALUE (log entry 95): how far the power at an input's tap lies above that at its output where only the output's is reported, by
the occasion (R228). -/
opaque lightLoss : Nat → Nat

/-- FREE VALUE (log entry 9): the alignment table: target angle k of the four axes of input i and output o (R256). -/
opaque alignment : Nat → Nat → Nat → Int

/-- FREE VALUE (log entry 10): the module id of the machine's time master, as this module knows it (R297), by how often it has lost its
time source: another module may be the master then (Table 12.4). -/
opaque timeMaster : Nat → Nat

/-- FREE VALUE (log entry 11): the cause code of a TIME_STATE record (Table 19.3 gives its bits, not its values). -/
opaque timeCause : Nat → BitVec 6

/-- FREE VALUE (log entry 12): code and data of the record that a member writes of the release of a slice whose home module is
lost (R37 has it recorded; Table 19.3 gives no code for it). -/
opaque releaseRecord : Nat → Nat × Nat

/-- FREE VALUE (log entry 13): the factory baseline of a trim, by its CAL_TRIM index (R384). -/
opaque trimBaseline : Nat → BitVec 20

/-- FREE VALUE (log entry 120): the mean of MREF in µV at the check before a run that no operand gives, by the occasion (R380). -/
opaque mrefMean : Nat → BitVec 24

/-- FREE VALUE (log entry 120): what a burn that power left holds in the place of a fuse slot's CRC, by the occasion (R390). -/
opaque burnLeft : Nat → BitVec 64

/-- FREE VALUE (log entry 14): the correction of one step of a trim DAC, in units of 10⁻⁸ of the nominal value or of full drive,
by group and part (gain 0, offset 1); the manual gives it for group 2 only (R383). -/
opaque trimStep : Nat → Nat → Nat

/-- FREE VALUE (log entry 15): the unique device secret of the module, 256 bits in fuses (R420). -/
opaque deviceSecret : BitVec 256

/-- FREE VALUE (log entry 15): the secret key that the cartridge made for itself (R406). -/
opaque cartSecret : BitVec 456

/-- FREE VALUE (log entry 15): the secret key of Strelvox's device authority, which signs the device certificate (R422). -/
opaque authoritySecret : BitVec 456

/-- FREE VALUE (log entry 15): the public keys enrolled in the cartridge at manufacture, of the metrology authority (0) and of the verifiers
(1 to 4) (R411). -/
opaque enrolledKey : Nat → List Byte

/-- FREE VALUE (log entry 15): the context string of the signature of a cartridge image (false) and of an authorisation (true), which the
manual does not give. -/
opaque updateContext : Bool → List Byte

/-- FREE VALUE (log entry 15): how an authorisation lays out the image digest, the cartridge's serial number and the event counter plus one
(R411), by image and counter. -/
opaque authorisation : List Byte → Nat → List Byte

/-- FREE VALUE (log entry 17): the serial number of the cartridge (R410). -/
opaque cartSerial : BitVec 64

/-- FREE VALUE (log entry 17): the cartridge's certificate from the metrology authority (R406), whose layout the manual does not give. -/
opaque cartCertificate : List Byte

/-- FREE VALUE (log entry 16): the 16 bytes of data of a cartridge event but UPDATE, by its code and outcome (R403 gives no layout). -/
opaque eventData : Nat → Nat → Nat

/-- FREE VALUE (log entry 17): a byte of the image that the module shipped with. -/
opaque shippedByte : Nat → Byte

/-- FREE VALUE (log entry 17): the digest of a signing key that fuses hold (R416). -/
opaque keyDigest : Nat → List Byte

/-- FREE VALUE (log entry 17): the module's serial number (R422). -/
opaque serial : BitVec 64

/-- FREE VALUE (log entry 18): can a runtime of one settings version read a copy of another (R430)? -/
opaque readsSettings : Nat → Nat → Bool

/-- FREE VALUE (log entry 18): the default settings of an image and a body migrated from one settings version to another (R429, R430), as
register keys and values. -/
opaque defaultSettings : Nat → List (Nat × Nat)

/-- FREE VALUE (log entry 18): see `defaultSettings`; by the two versions and the body. -/
opaque migrateSettings : Nat → Nat → List (Nat × Nat) → List (Nat × Nat)

/-- FREE VALUE (log entry 19): the version of the deck firmware and of the scan library of an image, by its FW_VERSION (R243, R352). -/
opaque deckVersion : Nat → BitVec 16

/-- FREE VALUE (log entry 19): see `deckVersion`. -/
opaque libraryVersion : Nat → BitVec 16

/-- FREE VALUE (log entry 20): the MAC address of the management port, in fuses (R488). -/
opaque managementMac : BitVec 48

/-- FREE VALUE (log entry 20): what the I3C target answers to GETPID (0), GETBCR (1), GETDCR (2) and GETSTATUS (3), R491. -/
opaque i3cInfo : Nat → List Byte

/-- FREE VALUE (log entry 91): the bytes after the header of a packet whose body the manual does not lay out, by its type and what it says:
VOTE, DECISION and TIME (5 to 7), and what control complexes tell each other in MGMT (8). -/
opaque packetBody : Nat → List Nat → List Byte

/-- FREE VALUE (log entry 92): the hop delay H in ns of the vote tree of a slice, by its id and placement epoch, where the placement service has
told none for the tables in force: the holders' hops (R270) and links that other modules measure are in it (R34). -/
opaque voteDelay : Nat → Nat → Nat

/-- FREE VALUE (log entry 91): does a slice own a field of another module, by slice, module and field, where no module has told the fields that
it owns there (R277)? -/
opaque ownsField : Nat → Nat → Nat → Bool

/-- FREE VALUE (log entry 121): the identifier under which the control complex asks for a time-stamp of an MGMT packet that it sends of its own,
by machine time and data, where it asks for one (R303). -/
opaque mgmtStamp : Nat → List Byte → Option (BitVec 16)

/-- FREE VALUE (log entry 122): the public key that a cartridge enrolled at a pairing with another module (R406). -/
opaque foreignKey : List Byte

end Sys2Proof.Config
end

