-- ==== Sys2Proof/Machine/Bits.lean ====
section
/-!
DEFINITION. Sys2Proof/Machine/Bits.lean: bit fields of numbers, little-endian byte strings (R5), signs and small
arithmetic.
-/
namespace Sys2Proof.Machine

/-- Bits [lo + w - 1 : lo] of a number. -/
def bits (x lo w : Nat) : Nat := x / 2 ^ lo % 2 ^ w

/-- The number with its bits [lo + w - 1 : lo] replaced. -/
def setBits (x lo w v : Nat) : Nat :=
  x / 2 ^ (lo + w) * 2 ^ (lo + w) + v % 2 ^ w * 2 ^ lo + x % 2 ^ lo

/-- One bit as a truth value. -/
def bitOf (x i : Nat) : Bool := bits x i 1 == 1

/-- A truth value as a bit. -/
def bit (b : Bool) : Nat := if b then 1 else 0

/-- The bytes of a number, lowest first (R5). -/
def toBytes : Nat → Nat → List Byte
  | 0, _ => []
  | n + 1, v => BitVec.ofNat 8 v :: toBytes n (v / 256)

/-- The number that a little-endian byte string stands for (R5). -/
def ofBytes : List Byte → Nat
  | [] => 0
  | b :: bs => b.toNat + 256 * ofBytes bs

/-- Bytes [o, o + n) of a byte string, zeros past its end. -/
def slice (bs : List Byte) (o n : Nat) : List Byte :=
  let t := (bs.drop o).take n
  t ++ List.replicate (n - t.length) 0

/-- A little-endian value of n bytes at offset o of a byte string. -/
def leAt (bs : List Byte) (o n : Nat) : Nat := ofBytes (slice bs o n)

/-- Two's complement value of the low w bits. -/
def signed (w x : Nat) : Int := if x % 2 ^ w < 2 ^ (w - 1) then (x % 2 ^ w : Nat) else (x % 2 ^ w : Nat) - (2 ^ w : Nat)

/-- Two's complement bits of an integer, w of them. -/
def unsigned (w : Nat) (x : Int) : Nat := (x % (2 ^ w : Nat)).toNat

/-- Division rounded up. -/
def ceilDiv (a b : Nat) : Nat := (a + b - 1) / b

/-- Add, sticking at a limit. -/
def satAdd (lim a b : Nat) : Nat := min lim (a + b)

/-- The number of ones among the low n bits. -/
def popCount : Nat → Nat → Nat
  | 0, _ => 0
  | n + 1, x => x % 2 + popCount n (x / 2)

/-- The numbers lo, lo + 1, …, n of them. -/
def rangeFrom (lo n : Nat) : List Nat := (List.range n).map (· + lo)

/-- Bit length of a number. -/
def bitLen (x : Nat) : Nat := if x = 0 then 0 else x.log2 + 1

/-- Integer square root, bit by bit from the top: the largest r with r * r ≤ x. -/
def isqrtGo (x : Nat) : Nat → Nat → Nat
  | 0, r => r
  | k + 1, r =>
    let t := r + 2 ^ k
    isqrtGo x k (if t * t ≤ x then t else r)

/-- Integer square root. -/
def isqrt (x : Nat) : Nat := isqrtGo x ((bitLen x + 1) / 2) 0

/-- The first position, from 0, at which a list holds a value that satisfies p. -/
def firstIdx {α : Type} (p : α → Bool) : Nat → List α → Option Nat
  | _, [] => none
  | i, a :: as => if p a then some i else firstIdx p (i + 1) as

/-- Apply a function over a list of numbers, left to right. -/
def forNats {σ : Type} (f : Nat → σ → σ) : List Nat → σ → σ
  | [], s => s
  | k :: ks, s => forNats f ks (f k s)

end Sys2Proof.Machine
end

