-- ==== Sys2Proof/Machine/Float.lean ====
section
/-!
DEFINITION. Sys2Proof/Machine/Float.lean: the number formats of Table 4.4 and exact arithmetic over them: every value
is taken as a sign, a magnitude and a power of two, computed exactly, and narrowed once at the end.
-/
namespace Sys2Proof.Machine

/-- A value: a NaN, an infinity, or (-1)^neg × m × 2^e. -/
inductive Val where
  | nan (neg : Bool)
  | inf (neg : Bool)
  | fin (neg : Bool) (m : Nat) (e : Int)
deriving DecidableEq, Repr

/-- Formats of Table 3.8, in code order. -/
inductive Fmt where
  | e4m3 | e5m2 | mxE4m3 | mxE5m2 | mxE3m2 | mxE2m3 | mxE2m1 | int8 | bf16 | fp16 | fp32
deriving DecidableEq, Repr

/-- Code of a format, Table 3.8. -/
def Fmt.code : Fmt → Nat
  | .e4m3 => 0 | .e5m2 => 1 | .mxE4m3 => 2 | .mxE5m2 => 3 | .mxE3m2 => 4 | .mxE2m3 => 5 | .mxE2m1 => 6
  | .int8 => 7 | .bf16 => 8 | .fp16 => 9 | .fp32 => 10

/-- Format of a code, Table 3.8; none for a reserved code. -/
def Fmt.ofCode : Nat → Option Fmt
  | 0 => some .e4m3 | 1 => some .e5m2 | 2 => some .mxE4m3 | 3 => some .mxE5m2 | 4 => some .mxE3m2
  | 5 => some .mxE2m3 | 6 => some .mxE2m1 | 7 => some .int8 | 8 => some .bf16 | 9 => some .fp16 | 10 => some .fp32
  | _ => none

/-- The formats with a scale per block, R88. -/
def Fmt.mx : Fmt → Bool
  | .mxE4m3 | .mxE5m2 | .mxE3m2 | .mxE2m3 | .mxE2m1 => true
  | _ => false

/-- Element width in bits, R86. -/
def Fmt.width : Fmt → Nat
  | .e4m3 | .e5m2 | .mxE4m3 | .mxE5m2 | .int8 => 8
  | .mxE3m2 | .mxE2m3 => 6
  | .mxE2m1 => 4
  | .bf16 | .fp16 => 16
  | .fp32 => 32

/-- Mantissa bits of the element encoding. -/
def Fmt.man : Fmt → Nat
  | .e4m3 | .mxE4m3 | .mxE2m3 => 3
  | .e5m2 | .mxE5m2 | .mxE3m2 => 2
  | .mxE2m1 => 1
  | .int8 => 0
  | .bf16 => 7
  | .fp16 => 10
  | .fp32 => 23

/-- Exponent bias, Table 4.4. -/
def Fmt.bias : Fmt → Int
  | .e4m3 | .mxE4m3 => 7
  | .e5m2 | .mxE5m2 | .fp16 => 15
  | .mxE3m2 => 3
  | .mxE2m3 | .mxE2m1 => 1
  | .int8 => 0
  | .bf16 | .fp32 => 127

/-- Largest finite encoding, sign clear, Table 4.4. -/
def Fmt.maxFinite : Fmt → Nat
  | .e4m3 | .mxE4m3 => 0x7E
  | .e5m2 | .mxE5m2 => 0x7B
  | .mxE3m2 | .mxE2m3 => 0x1F
  | .mxE2m1 => 0x7
  | .int8 => 127
  | .bf16 => 0x7F7F
  | .fp16 => 0x7BFF
  | .fp32 => 0x7F7FFFFF

/-- Exponent e_max of R96 of an MX format. -/
def Fmt.emax : Fmt → Int
  | .mxE4m3 => 8
  | .mxE5m2 => 15
  | .mxE3m2 => 4
  | _ => 2

/-- The finite value of an encoding whose exponent field is not taken by infinity or NaN. -/
def finVal (man : Nat) (bias : Int) (neg : Bool) (ex fr : Nat) : Val :=
  if ex = 0 then .fin neg fr (1 - bias - man)
  else .fin neg (fr + 2 ^ man) ((ex : Int) - bias - man)

/-- The value of an element encoding, R90 and Table 4.4. -/
def Fmt.decode (f : Fmt) (x : Nat) : Val :=
  let w := f.width
  match f with
  | .int8 => let v := signed 8 x; .fin (decide (v < 0)) v.natAbs 0
  | _ =>
    let man := f.man
    let neg := bitOf x (w - 1)
    let ex := bits x man (w - 1 - man)
    let fr := bits x 0 man
    let top := 2 ^ (w - 1 - man) - 1
    match f with
    | .e4m3 | .mxE4m3 => if ex = 15 ∧ fr = 7 then .nan neg else finVal man f.bias neg ex fr
    | .e5m2 | .mxE5m2 | .bf16 | .fp16 | .fp32 =>
      if ex = top then (if fr = 0 then .inf neg else .nan neg) else finVal man f.bias neg ex fr
    | _ => finVal man f.bias neg ex fr

/-- The value of an FP32 bit pattern. -/
def f32Val (x : F32) : Val := Fmt.fp32.decode x.toNat

/-- Rounding modes of R99; stochastic carries its 16 random bits. -/
inductive RMode where
  | nearest | zero | stochastic (r : Nat)
deriving DecidableEq, Repr

/-- Shift of a magnitude to the unit 2^q: whole part, remainder and the remainder's scale in bits. -/
def alignDown (m : Nat) (e q : Int) : Nat × Nat × Nat :=
  if q ≤ e then (m * 2 ^ (e - q).toNat, 0, 0)
  else let d := (q - e).toNat; (m / 2 ^ d, m % 2 ^ d, d)

/-- Round m × 2^e to a multiple of 2^q under a mode, R99; the number of units. -/
def roundUnits (mode : RMode) (m : Nat) (e q : Int) : Nat :=
  let (k, r, d) := alignDown m e q
  match mode with
  | .zero => k
  | .nearest => if 2 * r > 2 ^ d ∨ (2 * r = 2 ^ d ∧ d ≠ 0 ∧ k % 2 = 1) then k + 1 else k
  | .stochastic rnd => (k * 2 ^ 16 + r * 2 ^ 16 / 2 ^ d + rnd % 2 ^ 16) / 2 ^ 16

/-- The unit in the last place of a magnitude for p bits of precision and a smallest unit. -/
def unitOf (p : Nat) (emin : Int) (m : Nat) (e : Int) : Int := max ((bitLen m : Int) - p + e) emin

/-- Encode k × 2^q, already a value of the format but for overflow, as exponent and mantissa fields. -/
def encodeMag (man : Nat) (bias : Int) (k : Nat) (q : Int) : Nat :=
  if k < 2 ^ man then k
  else
    let (k, q) := if k = 2 ^ (man + 1) then (k / 2, q + 1) else (k, q)
    (q + man + bias).toNat * 2 ^ man + (k - 2 ^ man)

/-- FP32 of (-1)^neg × m × 2^e, to nearest with ties to even; beyond the largest finite value, an infinity (R94). -/
def f32Round (neg : Bool) (m : Nat) (e : Int) : F32 :=
  let s := if neg then 2 ^ 31 else 0
  if m = 0 then BitVec.ofNat 32 s
  else
    let q := unitOf 24 (-149) m e
    let x := encodeMag 23 127 (roundUnits .nearest m e q) q
    BitVec.ofNat 32 (s + min x 0x7F800000)

/-- A quiet NaN made by an operation; its sign and payload are free. -/
def f32NaN (a b : F32) : F32 := Config.nanBits 0 a b ||| 0x7FC00000#32

/-- Is an FP32 value a NaN? -/
def f32IsNaN (x : F32) : Bool := match f32Val x with | .nan _ => true | _ => false

/-- Is an FP32 value finite? -/
def f32IsFin (x : F32) : Bool := match f32Val x with | .fin _ _ _ => true | _ => false

/-- FP32 infinity of a sign. -/
def f32Inf (neg : Bool) : F32 := if neg then 0xFF800000#32 else 0x7F800000#32

/-- The value's signed mantissa. -/
def sgn (neg : Bool) (m : Nat) : Int := if neg then -(m : Int) else (m : Int)

/-- Exact sum of two finite values, as an integer and its unit. -/
def exactAdd (i1 : Int) (e1 : Int) (i2 : Int) (e2 : Int) : Int × Int :=
  let e := min e1 e2
  (i1 * (2 ^ (e1 - e).toNat : Nat) + i2 * (2 ^ (e2 - e).toNat : Nat), e)

/-- FP32 of an exact signed value; `z` is the sign an exact zero takes. -/
def f32OfInt (z : Bool) (i e : Int) : F32 :=
  if i = 0 then f32Round z 0 0 else f32Round (decide (i < 0)) i.natAbs e

/-- FP32 sum, rounded to nearest even. -/
def f32Add (a b : F32) : F32 :=
  match f32Val a, f32Val b with
  | .nan _, _ => f32NaN a b
  | _, .nan _ => f32NaN a b
  | .inf s, .inf t => if s = t then a else f32NaN a b
  | .inf _, _ => a
  | _, .inf _ => b
  | .fin s m e, .fin t n f =>
    let (i, u) := exactAdd (sgn s m) e (sgn t n) f
    f32OfInt (s && t) i u

/-- FP32 negation. -/
def f32Neg (a : F32) : F32 := a ^^^ 0x80000000#32

/-- FP32 magnitude. -/
def f32Abs (a : F32) : F32 := a &&& 0x7FFFFFFF#32

/-- Product of two values as IEEE 754 forms it, exact (R91, R92 step 1). -/
def valMul : Val → Val → Val
  | .nan s, _ => .nan s
  | _, .nan s => .nan s
  | .inf s, .inf t => .inf (s != t)
  | .inf s, .fin t m _ => if m = 0 then .nan false else .inf (s != t)
  | .fin s m _, .inf t => if m = 0 then .nan false else .inf (s != t)
  | .fin s m e, .fin t n f => .fin (s != t) (m * n) (e + f)

/-- FP32 product, rounded to nearest even. -/
def f32Mul (a b : F32) : F32 :=
  match valMul (f32Val a) (f32Val b) with
  | .nan _ => f32NaN a b
  | .inf s => f32Inf s
  | .fin s m e => f32Round s m e

/-- FP32 a × b + c, rounded once (R102). -/
def f32Fma (a b c : F32) : F32 :=
  match valMul (f32Val a) (f32Val b), f32Val c with
  | .nan _, _ => f32NaN a b
  | _, .nan _ => f32NaN a c
  | .inf s, .inf t => if s = t then f32Inf s else f32NaN a c
  | .inf s, _ => f32Inf s
  | _, .inf t => f32Inf t
  | .fin s m e, .fin t n f =>
    let (i, u) := exactAdd (sgn s m) e (sgn t n) f
    f32OfInt (s && t) i u

/-- Order of FP32 values that are not NaN, -0 below +0, as an integer key. -/
def f32Key (x : F32) : Int := if x.toNat < 2 ^ 31 then (x.toNat : Int) else -(x.toNat - 2 ^ 31 : Nat) - 1

/-- FP32 maximum of R102: a NaN source gives a NaN, and -0 is smaller than +0. -/
def f32Max (a b : F32) : F32 :=
  if f32IsNaN a || f32IsNaN b then f32NaN a b
  else if f32Key a < f32Key b then b else a

/-- Compare |a| ≤ m × 2^e for a finite FP32 value. -/
def f32AbsLe (a : F32) (m : Nat) (e : Int) : Bool :=
  match f32Val a with
  | .fin _ n f => let u := min e f; decide (n * 2 ^ (f - u).toNat ≤ m * 2 ^ (e - u).toNat)
  | _ => false

/-- Sum of a list in FP32, in order, from the first element. -/
def f32Sum : List F32 → F32
  | [] => 0#32
  | x :: xs => xs.foldl f32Add x

/-- Sum by the fixed tree of R102: pairs of adjacent values, then pairs of pairs. -/
def pairAdd : List F32 → List F32
  | a :: b :: t => f32Add a b :: pairAdd t
  | t => t

/-- Tree sum of 32 values. -/
def f32Tree (xs : List F32) : F32 :=
  match pairAdd (pairAdd (pairAdd (pairAdd (pairAdd xs)))) with
  | x :: _ => x
  | [] => 0#32

/-! ## EXP and RSQRT, R103 -/

/-- ln 2 × 2^160, truncated. -/
def ln2Fixed : Nat := 0xB17217F7D1CF79ABC9E3B39803F2F6AF40F34326

/-- Taylor sum of e^r for a fixed-point r of 100 fraction bits: terms n, n+1, …. -/
def expTaylor (r : Nat) : Nat → Nat → Nat → Nat → Nat
  | 0, _, _, acc => acc
  | f + 1, n, term, acc =>
    let t := term * r / (n * 2 ^ 100)
    expTaylor r f (n + 1) t (acc + t)

/-- e^x for a finite x = i × 2^e with |x| < 2^8, as a magnitude and a power of two, with 100 fraction bits. -/
def expFixed (i e : Int) : Nat × Int :=
  let scaled : Int := if 0 ≤ e + 160 then i * (2 ^ (e + 160).toNat : Nat) else i / (2 ^ (-(e + 160)).toNat : Nat)
  let k := scaled / (ln2Fixed : Int)
  let r := (scaled - k * (ln2Fixed : Int)).toNat / 2 ^ 60
  (expTaylor r 40 1 (2 ^ 100) (2 ^ 100), k - 100)

/-- 1 ÷ √(m × 2^e) for m > 0, as a magnitude and a power of two. -/
def rsqrtFixed (m : Nat) (e : Int) : Nat × Int :=
  let (m, e) := if e % 2 = 0 then (m, e) else (2 * m, e - 1)
  let t := 100 + bitLen m
  (isqrt (2 ^ (2 * t) / m), -(t : Int) - e / 2)

/-- Is the FP32 pattern y, a finite positive value, within two units in the last place of a × 2^e, the unit being at
least 2^-149? The margin of 2^8 fixed-point units covers the truncation of a. -/
def within2 (a : Nat) (e : Int) (y : Nat) : Bool :=
  match f32Val (BitVec.ofNat 32 y) with
  | .fin false n f =>
    let u := unitOf 24 (-149) a e
    let b := min (min e f) u
    let x := (a * 2 ^ (e - b).toNat : Nat)
    let z := (n * 2 ^ (f - b).toNat : Nat)
    let lim := 2 * 2 ^ (u - b).toNat + 2 ^ 8 * 2 ^ (e - b).toNat
    decide (x ≤ z + lim) && decide (z ≤ x + lim)
  | _ => false

/-- The pattern at a distance from the nearest one, moved toward it until the bound allows it; the nearest one at
last. -/
def pickWithin (ok : Nat → Bool) (near : Nat) : Nat → Int → Nat
  | 0, _ => near
  | f + 1, d =>
    let y := ((near : Int) + d).toNat
    if ok y then y else pickWithin ok near f (if d > 0 then d - 1 else if d < 0 then d + 1 else 0)

/-- May EXP or RSQRT return the pattern y where the exact result is a × 2^e? It lies within the bound, is not zero, and is subnormal
where the exact result is (R103). -/
def vecMay (a : Nat) (e : Int) (y : Nat) : Bool :=
  within2 a e y && y != 0 && (decide (y < 0x800000) || decide (0 ≤ (exactAdd a e (-1) (-126)).1))

/-- A result of EXP (op 0) or RSQRT (op 1) for an input: some value that R103 allows for a × 2^e. -/
def vecApprox (op : Nat) (x : F32) (a : Nat) (e : Int) : F32 :=
  let near := (f32Round false a e).toNat
  let d := max (-4) (min 4 (Config.vecOffset op x))
  BitVec.ofNat 32 (pickWithin (vecMay a e) near 5 d)

/-- A NaN input of EXP or RSQRT with its quiet bit set, R103. -/
def f32Quiet (x : F32) : F32 := x ||| 0x00400000#32

/-- EXP of one element, R103. -/
def f32Exp (x : F32) : F32 :=
  match f32Val x with
  | .nan _ => f32Quiet x
  | .inf neg => if neg then 0#32 else 0x7F800000#32
  | .fin neg m e =>
    if 0 < (exactAdd (100 * sgn neg m) e (-8872) 0).1 then 0x7F800000#32
    else if (exactAdd (100 * sgn neg m) e 10397 0).1 < 0 then 0#32
    else let (a, q) := expFixed (sgn neg m) e; vecApprox 0 x a q

/-- RSQRT of one element, R103. -/
def f32Rsqrt (x : F32) : F32 :=
  match f32Val x with
  | .nan _ => f32Quiet x
  | .inf neg => if neg then 0x7FC00000#32 else 0#32
  | .fin neg m e =>
    if m = 0 then f32Inf neg
    else if neg then 0x7FC00000#32
    else let (a, q) := rsqrtFixed m e; vecApprox 1 x a q

/-! ## Narrowing, R95 to R99 -/

/-- Narrow a finite value to a floating format: rounded, then limited to the largest finite value (Table 4.5). -/
def Fmt.narrowFin (f : Fmt) (mode : RMode) (neg : Bool) (m : Nat) (e : Int) : Nat :=
  let s := if neg then 2 ^ (f.width - 1) else 0
  if m = 0 then s
  else
    let emin := 1 - f.bias - f.man
    let q := unitOf (f.man + 1) emin m e
    s + min (encodeMag f.man f.bias (roundUnits mode m e q) q) f.maxFinite

/-- Narrow to INT8: rounded to an integer and limited (Table 4.5). -/
def int8Narrow (mode : RMode) (neg : Bool) (m : Nat) (e : Int) : Nat :=
  let k := roundUnits mode m e 0
  if neg then unsigned 8 (-(min k 128 : Nat)) else min k 127

/-- Narrow one value to a format that is not an MX format (Table 4.5). The payload of a NaN of E5M2, BF16 or FP16 is
free but never zero. -/
def Fmt.narrow (f : Fmt) (mode : RMode) (x : F32) : Nat :=
  match f32Val x with
  | .fin neg m e => if f = .int8 then int8Narrow mode neg m e else f.narrowFin mode neg m e
  | .inf neg =>
    let s := if neg then 2 ^ (f.width - 1) else 0
    match f with
    | .int8 => if neg then 0x80 else 0x7F
    | .e5m2 => s + 0x7C
    | .bf16 => s + 0x7F80
    | .fp16 => s + 0x7C00
    | .fp32 => x.toNat
    | _ => s + f.maxFinite
  | .nan neg =>
    let s := if neg then 2 ^ (f.width - 1) else 0
    let p := (Config.nanBits 1 x x).toNat
    match f with
    | .int8 => 0
    | .e5m2 => s + 0x7D + p % 3
    | .bf16 => s + 0x7F81 + p % 127
    | .fp16 => s + 0x7C01 + p % 1023
    | .fp32 => x.toNat
    | _ => s + 0x7F

/-- Scale exponent E of an MX row, R96: from the largest magnitude of its values. -/
def mxExp (f : Fmt) (amax : F32) : Int :=
  match f32Val amax with
  | .fin _ m e => if m = 0 then -127 else max (-127) (min 127 ((bitLen m : Int) - 1 + e - f.emax))
  | _ => 0

/-- The element of an MX row: x ÷ 2^E, rounded and limited. -/
def mxNarrow (f : Fmt) (mode : RMode) (ex : Int) (x : F32) : Nat :=
  match f32Val x with
  | .fin neg m e => f.narrowFin mode neg m (e - ex)
  | _ => 0

end Sys2Proof.Machine
end

