-- ==== Sys2Proof/Types.lean ====
section
/-!
DEFINITION. Sys2Proof/Types.lean: the operands of the commands: core positions, step operands (Tables 3.7 and 3.9),
Sorrel records (Table 5.2), packets (Table 8.4), link frames (Table 8.2) and the other things that cross the module's
boundary.
-/
namespace Sys2Proof

open Sys2Proof.Machine (Fmt)

/-- A core in service by field and index, R9. -/
structure CoreAt where
  field : Fin 56
  core : Fin 450
deriving DecidableEq, Repr

/-- A memory operand: a pointer register and a line offset, R69. -/
structure MemOp where
  ptr : Fin 16
  off : BitVec 16
deriving DecidableEq, Repr

/-- Operands of a LOAD step, Table 3.7; `lines` is the number of lines less one. -/
structure LoadOp where
  mem : MemOp
  slot : Fin 2
  lines : Fin 1024
deriving DecidableEq, Repr

/-- Operands of an MMA step, Table 3.7; `k` is the depth less one. -/
structure MmaOp where
  fmt : Fmt
  aslot : Fin 2
  bslot : Fin 2
  tile : Fin 64
  k : Fin 1024
deriving DecidableEq, Repr

/-- Operands of a VEC step, R72. -/
structure VecOp where
  dst : Fin 64
  src1 : Fin 64
  src2 : Fin 64
  src3 : Fin 64
  imm : F32
deriving DecidableEq, Repr

/-- RND of a CVT step, Table 3.7. -/
inductive Rnd where
  | nearest | stochastic | zero
deriving DecidableEq, Repr

/-- Operands of a CVT step, Table 3.7. -/
structure CvtOp where
  tile : Fin 64
  fmt : Fmt
  rnd : Rnd
  mem : MemOp
deriving DecidableEq, Repr

/-- Operands of a STORE step, Table 3.7. -/
structure StoreOp where
  tile : Fin 64
  mem : MemOp
deriving DecidableEq, Repr

/-- Operands of a SEND step, R76: DST is a slice-relative field number and a core index. -/
structure SendOp where
  mem : MemOp
  dstField : BitVec 19
  dstCore : BitVec 9
  slot : BitVec 8
deriving DecidableEq, Repr

/-- Operands of a GLOBAL step, R74; `lines` is the number of lines less one. -/
structure GlobalOp where
  mem : MemOp
  lines : Fin 4096
  va : BitVec 48
  vreg : Option (Fin 16)
deriving DecidableEq, Repr

/-- A Sorrel record, Table 5.2. -/
structure Sorrel where
  crc : BitVec 64
  colsum : F32
  format : BitVec 4
  reserved : BitVec 11
  poison : Bool
  epoch : BitVec 16
deriving DecidableEq, Repr

/-- A packet: the header of Table 8.4 with the data and the Sorrel record that follow it. `ptype` is PTYPE. -/
structure Packet where
  ptype : BitVec 4
  slice : BitVec 12
  epoch : BitVec 16
  replay : BitVec 2
  segment : BitVec 8
  mover : Bool
  code : BitVec 5
  lines : Fin 64
  tile : Bool
  addr : BitVec 64
  src : BitVec 14
  tag : BitVec 32
  frame : BitVec 32
  data : List Byte
  record : Option Sorrel
deriving DecidableEq, Repr

/-- How a packet reached the place at which it acts: over the wafer mesh only, or in through a link slot. -/
inductive Via where
  | mesh
  | link (n : Fin 24)
deriving DecidableEq, Repr

/-- What an arrival on the mesh brings besides the packet: whether its payload passed the CRC-16 of R173, and the field in which a router
found the header uncorrectable and dropped the packet. -/
structure Arrival where
  via : Via
  crcOk : Bool
  lost : Option (Fin 56)
deriving DecidableEq, Repr

/-- A packet with what its arrival brings. -/
structure Arrived where
  arrival : Arrival
  packet : Packet
deriving DecidableEq, Repr

/-- The answer to a mover's request: the data read, with the mask of its poisoned lines, its Sorrel record and whether
its CRC-16 or ICRC passed; a write done; a fault with a code of Table 5.4; a NAK syndrome of the submitter. -/
inductive MoverAnswer where
  | data (bytes : List Byte) (mask : Nat) (record : Option Sorrel) (intact : Bool)
  | done
  | fault (code : Nat)
  | nak (syndrome : Nat)
deriving DecidableEq, Repr

/-- A link frame as received, Table 8.2: the header fields, the payload, the CRC, and whether the lane's FEC decoded
every codeword under it. -/
structure LinkFrame where
  kind : BitVec 4
  vc : BitVec 2
  sop : Bool
  eop : Bool
  len : BitVec 8
  seq : BitVec 24
  ack : BitVec 24
  ret0 : BitVec 16
  ret1 : BitVec 16
  ret2 : BitVec 16
  ret3 : BitVec 16
  payload : List Byte
  crc : BitVec 64
  fecOk : Bool
deriving DecidableEq, Repr

/-- What a TIME packet says (R298): a request with its departure stamp t1 by its sender's clock; or the parent's reply to
it with t2 and t3, the parent's tick count and FTK_ANCHOR. -/
inductive TimeMsg where
  | request (t1 : BitVec 64)
  | reply (t1 t2 t3 ticks anchor : BitVec 64)
deriving DecidableEq, Repr

/-- What a TIME packet says, as numbers. -/
def TimeMsg.values : TimeMsg → List Nat
  | .request t1 => [t1.toNat]
  | .reply t1 t2 t3 ticks anchor => [t1.toNat, t2.toNat, t3.toNat, ticks.toNat, anchor.toNat]

/-- An address that an ARP request or a Neighbour Solicitation asks for. -/
inductive IpAddr where
  | v4 (a : BitVec 32)
  | v6 (a : BitVec 128)
deriving DecidableEq, Repr

/-- A front-end packet other than a doorbell (R307, R308): a pause or PFC frame, a packet that is not RoCEv2, for QP1 or for a
queue pair that is not open, at a port; a request with another opcode or with a length on a connection; an acknowledgement
up to a PSN on a connection. -/
inductive FePacket where
  | other (port : Fin 2)
  | request (conn : Fin 1024)
  | ack (conn : Fin 1024) (psn : BitVec 24)
deriving DecidableEq, Repr

/-- What the placement service knows of one face of a module: the lowest lane group of the direct link over the face while that link is
UP (R192); the one-way propagation of the face's fibre in ns (LNK_LINK_DELAY); its free express pairs, bit i for pair 32 + i (R222, R280); the
lane groups of its port that no link holds, bit j for group j; those of the direct link; the deck output that the transmitter of each lane of
the port is joined to, where it is; and the SHAREs that the direct link carries (R282). -/
structure FaceFacts where
  up : Option (Fin 4)
  prop : BitVec 16
  pairs : BitVec 16
  groups : BitVec 4
  direct : BitVec 4
  held : List (Fin 32 × Fin 480)
  share : Nat
deriving DecidableEq, Repr

/-- What the placement service knows of an active slice entry of a module: its slice, its number, and HOP and the PEER values in force. -/
structure EntryFacts where
  slice : BitVec 12
  entry : Fin 64
  hop : BitVec 36
  peers : List (BitVec 35)
deriving DecidableEq, Repr

/-- What the placement service knows of a module of the machine (R281, R284): its id, whether its coordinates are valid (R267) and its time
state and source let it carry a member of a slice on several modules (R292, R296), its free fields in service, a free sequencer slot and a free
slice entry, its active entries, the LPDDR frames that can be allocated, and its six faces in the order of R221. -/
structure ModuleFacts where
  module : BitVec 14
  valid : Bool
  timed : Bool
  fields : List (Fin 56)
  slot : Option (Fin 56)
  entry : Option (Fin 64)
  entries : List EntryFacts
  frames : Nat
  faces : List FaceFacts
deriving DecidableEq, Repr

/-- What the scheduler chose for a job on this module (R332): the slice id, the slot, the slice entry, the fields and the origin
of its box; and what it knows of the other modules of the machine. -/
structure Placing where
  job : BitVec 16
  slice : BitVec 12
  slot : Fin 56
  entry : Fin 64
  fields : List (Fin 56)
  origin : BitVec 14
  survey : List ModuleFacts
deriving DecidableEq, Repr

/-- An element that fails (R174, R183, Table 7.2): a field's router; a stitched link, by the number of `stitchNS` or `stitchEW`; a core; a
field controller. -/
inductive Element where
  | router (f : Fin 56)
  | stitch (link : Fin 2224)
  | core (a : CoreAt)
  | controller (f : Fin 56)
deriving DecidableEq, Repr

/-- How the wafer comes up in steps 6 to 11 of Table 20.3: the LPDDR devices that fail training, the elements that fail their power-up
test, and the first flash device from which the scan library can be read (0 A, 1 B, 2 neither). -/
structure WaferStart where
  failed : List (Fin 32)
  elements : List Element
  library : Fin 3
deriving DecidableEq, Repr

/-- What the module finds at power-up: the strap lines X, Y, Z and parity from bit 0 on, the voltages of the feeds in 0.1 V, the mean of
MREF in µV, how the wafer comes up, and which flash device takes the boot's writes. -/
structure PowerIn where
  straps : BitVec 15
  voltsA : BitVec 12
  voltsB : BitVec 12
  mref : BitVec 24
  wafer : WaferStart
  okA : Bool
  okB : Bool
deriving DecidableEq, Repr

/-- The two isolated ports, R456. -/
inductive PortId where
  | deck | cartridge
deriving DecidableEq, Repr

/-- What the servo samples of one axis at a tick (Table 10.2): the angle in units of 0.5 µrad, and the error that an upset adds to the
engine's output chk, zero without one (R260). -/
structure AxisSample where
  axis : Fin 1920
  angle : BitVec 20
  slip : BitVec 64
deriving DecidableEq, Repr

/-- What a lane's FEC decoder counted since the last tick, R196. -/
structure FecCount where
  lane : Fin 192
  corrected : Nat
  symbols : Nat
  uncorrectable : Nat
deriving DecidableEq, Repr

/-- What the cartridge measures in a bin of 1 ms (R393, R395): the energies of the 64 rails in µJ; the voltage in 0.1 V and the mean
current in 0.01 A of each feed; and the temperature in the bay in °C above −128. -/
structure BinIn where
  rails : List (BitVec 32)
  voltsA : BitVec 12
  ampsA : BitVec 16
  voltsB : BitVec 12
  ampsB : BitVec 16
  celsius : BitVec 8
deriving DecidableEq, Repr

/-- An UPDATE of the cartridge (R411): the image, its security version, its firmware version and the authority's signature; the
verifier whose authorisation comes with it, the counter and the signature in that; and whether the new image starts within three
tries. -/
structure CartUpdate where
  image : List Byte
  secVer : BitVec 6
  version : BitVec 16
  signature : List Byte
  verifier : Fin 4
  counter : BitVec 32
  authorisation : List Byte
  starts : Bool
deriving DecidableEq, Repr

/-- What the module's sensors and lanes give at a tick: the deck's supply, the servo's samples, the lanes' FEC counts, the
hottest die sensor, and the voltages of the feeds in 0.1 V; and whether it is a tick of the deck's own oscillator alone (R241). -/
structure TickIn where
  volts : BitVec 16
  axes : List AxisSample
  fec : List FecCount
  dieMax : BitVec 8
  feedA : BitVec 12
  feedB : BitVec 12
  own : Bool
deriving DecidableEq, Repr

/-- The paths to set-up space, chapter 22. -/
inductive SetupPath where
  | control | ethernet | i3c | mgmt
deriving DecidableEq, Repr

/-- What an MGMT packet carries: a set-up request in the packet's data (R493) or the response to one; and between the control
complexes that serve a slice (log entry 91): a member's report to the entry module that the home module is lost (R37), or that a
fault on the member stops the job (R42, R43, R66); the entry module's word that a slice is stopped (R330), or released (R331), of its program
set with the live mask and the dependency table (R54, R57), of SEQ_NEXT, of the fields that the slice owns on a module (R277), and of the job, its TAG (R398) and its state (R329); the hop delay H of a slice's vote tree in ns (R34); a
question for lines of the other module to be read again, and its answer with the line that is lost, if one is (R138); and the placement
service's orders that a departing module copy a slice to a spare, and that a member take the spare in its place (R285). -/
inductive MgmtBody where
  | request
  | response
  | homeLost (slice : BitVec 12) (home : BitVec 14)
  | sliceFault (slice : BitVec 12) (cause : BitVec 8) (detail : BitVec 64) (frame : BitVec 32)
  | sliceStop (slice : BitVec 12)
  | sliceRelease (slice : BitVec 12)
  | sliceSet (slice : BitVec 12) (base : BitVec 64) (live : BitVec 48) (depends : List (BitVec 64))
  | sliceNext (slice : BitVec 12) (index : BitVec 8) (valid : Bool)
  | voteDepth (slice : BitVec 12) (h : BitVec 16)
  | sliceFields (slice : BitVec 12) (module : BitVec 14) (fields : BitVec 56)
  | sliceJob (slice : BitVec 12) (job : BitVec 16) (tag : BitVec 64)
  | sliceState (slice : BitVec 12) (state : BitVec 3)
  | lineAsk (ga : BitVec 64) (lines : BitVec 8)
  | lineAnswer (ga : BitVec 64) (lost : Option (BitVec 64))
  | spareCopy (slice : BitVec 12) (spare : BitVec 14)
  | spareIn (slice : BitVec 12) (old : BitVec 14) (new : BitVec 14)
deriving DecidableEq, Repr

/-- What an MGMT packet carries, and the identifier under which the control complex asks for a time-stamp of the packet that it sends on or
in answer (R303). -/
structure MgmtIn where
  body : MgmtBody
  stamp : Option (BitVec 16)
deriving DecidableEq, Repr

/-- What a message between control complexes says, as numbers. -/
def MgmtBody.values : MgmtBody → List Nat
  | .request => [0]
  | .response => [1]
  | .homeLost slice home => [2, slice.toNat, home.toNat]
  | .sliceFault slice cause detail frame => [3, slice.toNat, cause.toNat, detail.toNat, frame.toNat]
  | .sliceStop slice => [4, slice.toNat]
  | .sliceRelease slice => [5, slice.toNat]
  | .voteDepth slice h => [6, slice.toNat, h.toNat]
  | .sliceSet slice base live depends => [7, slice.toNat, base.toNat, live.toNat] ++ depends.map (·.toNat)
  | .sliceNext slice index valid => [8, slice.toNat, index.toNat, if valid then 1 else 0]
  | .sliceFields slice module fields => [11, slice.toNat, module.toNat, fields.toNat]
  | .sliceJob slice job tag => [12, slice.toNat, job.toNat, tag.toNat]
  | .sliceState slice state => [13, slice.toNat, state.toNat]
  | .lineAsk ga lines => [9, ga.toNat, lines.toNat]
  | .lineAnswer ga lost => [10, ga.toNat] ++ (lost.map (·.toNat)).toList
  | .spareCopy slice spare => [14, slice.toNat, spare.toNat]
  | .spareIn slice old new => [15, slice.toNat, old.toNat, new.toNat]

/-- A private transfer to the I3C target, R492: a write of bytes, or a read. -/
inductive I3cTransfer where
  | write (bytes : List Byte)
  | read
deriving DecidableEq, Repr

/-- A common command code on I3C, R491; `other` is any that the target does not implement. -/
inductive I3cCcc where
  | entdaa (addr : BitVec 7)
  | setdasa (static addr : BitVec 7)
  | rstdaa
  | getpid | getbcr | getdcr | getstatus
  | other (code : BitVec 8)
deriving DecidableEq, Repr

end Sys2Proof

namespace Sys2Proof.Machine

/-- Hold causes of Table 2.3. -/
inductive Cause where
  | overrun | exchange | power | fault | rotation | preempt | decision | idle
deriving DecidableEq, Repr

/-- What a decision tells a slice to do at the tick, R27 and R33. -/
inductive Verdict where
  | advance | hold | replay | realign | preempt
deriving DecidableEq, Repr

/-- Why a slice is pre-empted: the CAUSE of Table 13.6 that its job is told, with its DETAIL; code 0 for none. -/
structure PreCause where
  code : Nat
  detail : Nat
deriving DecidableEq, Repr

/-- A decision: the verdict, the recorded cause (a code of Table 2.3), the frame number and replay count, and SEQ_NEXT
as every member uses it (R23, R33). With them the causes found on the members (R32), the cause that a pre-emption tells the job
(R39), the member on which a rotation step, shift or fencing begins (R44, R178), whether a change of placement takes effect at the tick
(R271), whether programs of a faulted frame are stopped (R40), and the class of the last fault when the job stops with cause
FRAME_FAULT (R36, R42). -/
structure Decision where
  verdict : Verdict
  cause : Nat
  frame : Nat
  replay : Nat
  next : Nat
  causes : List Cause
  told : PreCause
  begins : Option Nat
  change : Bool
  halt : Bool
  ends : Option Nat
deriving DecidableEq, Repr

/-- A vote, R33: the member's or holder's module id, frame number, replay count and hold causes. With them what the home module
needs of the member to decide: whether its context is being saved or restored (R47), whether it holds an abandoned frame (R45), whether
its frame holds a fault mark, the class of its last fault and whether nothing of the frame awaits resolution (R40, R42), pre-emptions
asked for on it (R45), whether the fencing of a core or a step is due (R44, R181), and whether a change of placement takes effect on it
at the tick (R271). -/
structure Vote where
  member : Nat
  holder : Bool
  frame : Nat
  replay : Nat
  causes : List Cause
  moving : Bool
  rerun : Bool
  faulted : Bool
  lastClass : Nat
  ready : Bool
  asked : List PreCause
  fence : Bool
  step : Bool
  change : Bool
deriving DecidableEq, Repr

/-- What a log entry says, Table 17.4: a closed assignment; the registers; an event with its code and data. -/
inductive LogPayload where
  | slice (slice job tag module start stop energy field : Nat)
  | period (feedA feedB unassigned swid : Nat)
  | event (code : Nat) (data : Nat)
deriving DecidableEq, Repr

/-- A log entry, Table 17.4, without its signature. -/
structure LogEntry where
  lseq : Nat
  untraced : Bool
  late : Bool
  part : Bool
  evtCnt : Nat
  ctime : Nat
  mtime : Nat
  payload : LogPayload
deriving DecidableEq, Repr

end Sys2Proof.Machine
end

