-- ==== Sys2Proof/Machine/Context.lean ====
section
/-!
DEFINITION. Sys2Proof/Machine/Context.lean: what cores, memories, slots and movers hold, the saved context of a slice that is made of
it (R46), and the steps by which a spare module takes it over (R285).
-/
namespace Sys2Proof.Machine

/-! ## Cores, chapters 3 and 4 -/

/-- An open loop of the sequencer, R70: the body's first step, the step after its last, and the passes left. -/
structure LoopFrame where
  first : Nat
  stop : Nat
  left : Nat
deriving DecidableEq, Repr

/-- One filled receive slot, R77: the frame number and replay count of the copy it holds. -/
structure RecvCopy where
  frame : Nat
  replay : Nat
deriving DecidableEq, Repr

/-- A core in service: what its unit of Table 4.1 and its sequencer hold. Unlisted steps, pointers, operand bytes and
tile elements read as zero. -/
structure Core where
  steps : List (Nat × BitVec 128)
  stepUpset : List (Nat × Nat)
  pc : Nat
  loops : List LoopFrame
  running : Bool
  ptrs : List (Nat × BitVec 16)
  shadow : List (Nat × BitVec 16)
  opnd : List (Nat × Byte)
  opndPoison : BitVec 8
  acc : List (Nat × F32)
  accPoison : BitVec 64
  accUpset : List (Nat × Nat)
  seed : BitVec 128
  ctr : BitVec 64
  sampCtr : BitVec 64
  sigMain : BitVec 64
  sigCheck : BitVec 64
  mmas : Nat
  misses : List Nat
  recv : List (Nat × Option RecvCopy)
  outstanding : Nat
deriving DecidableEq, Repr

/-- A core that nothing has been loaded into. DESIGN CHOICE (log entry 1): slots, tiles and the seed read 0 until they are first
written or seeded, for the manual gives them no reset value. -/
def Core.init : Core :=
  { steps := [], stepUpset := [], pc := 0, loops := [], running := false, ptrs := [], shadow := [], opnd := [],
    opndPoison := 0, acc := [], accPoison := 0, accUpset := [], seed := 0, ctr := 0, sampCtr := 0, sigMain := 0,
    sigCheck := 0, mmas := 0, misses := [], recv := [], outstanding := 0 }

/-! ## Memory, chapter 5 -/

/-- What is kept beside a 4 KiB tile: in SRAM the FORMAT of R337, the CURRENT flag and the record of R127 (`copy1`);
in LPDDR the two copies of the record in the check area, R128. -/
structure TileSide where
  current : Bool
  format : Nat
  copy1 : Sorrel
  copy2 : Sorrel
deriving DecidableEq, Repr

/-- A record over zero data, FORMAT 0xF. -/
def Sorrel.zero : Sorrel := { crc := 0, colsum := 0, format := 0xF, reserved := 0, poison := false, epoch := 0 }

/-- The side data of a tile that nothing has written. -/
def TileSide.init : TileSide := { current := false, format := 0xF, copy1 := Sorrel.zero, copy2 := Sorrel.zero }

/-- The byte-addressed memory of the module over module offsets, Table 5.1. `cells` lists bytes by offset, an unlisted
byte of a defined line reading as zero. `marks` are the poison marks of R123 and the patterns of R130 by line (offset
÷ 64), `upset` the bit errors a line holds (1 correctable, 2 not), `tiles` the side data by tile (offset ÷ 4,096).
`fldUndef` and `bankUndef` number the occasion on which a field's SRAM or a 64 KiB bank became undefined (0 when it is
defined), `lineDef` lists the lines written since, and `lineUndef` the
lines filled with poisoned data whose bytes the manual leaves open (the occasion; 0 when none). `owner` is the slice that owns an LPDDR frame (slice id plus
one; 0 when it has none), R140. -/
structure Memory where
  cells : List Host.Cell
  marks : List (Nat × Nat)
  upset : List (Nat × Nat)
  tiles : List (Nat × TileSide)
  fldUndef : List (Nat × Nat)
  bankUndef : List (Nat × Nat)
  lineDef : List (Nat × Bool)
  lineUndef : List (Nat × Nat)
  owner : List (Nat × Nat)
deriving DecidableEq, Repr

/-- A leaf translation in a field's MMU cache, R135: tagged by slot and page. -/
structure Leaf where
  slot : Nat
  huge : Bool
  page : Nat
  target : Nat
  write : Bool
  poison : Bool
  slice : Nat
deriving DecidableEq, Repr

/-- A remote access of a core that awaits its response, R137: one request of a GLOBAL step, whose lines from `base` are `total`
and whose requests share `group`. `live`: its frame attempt still runs (R81). `spoiled`: the step has faulted through another of its
requests (R136). -/
structure Remote where
  tag : Nat
  group : Nat
  field : Nat
  core : Nat
  write : Bool
  line : Nat
  count : Nat
  base : Nat
  total : Nat
  live : Bool
  spoiled : Bool
  va : Nat
  step : Nat
  frame : Nat
  replay : Nat
  start : Nat
  link : Option Nat
deriving DecidableEq, Repr

/-- The control complex's own record of what it wrote for slices (R500): page-table entries by module offset, frame
owners and field owners (slice id plus one), and routing registers by key. -/
structure CcRecord where
  pages : List (Nat × Nat)
  frames : List (Nat × Nat)
  fields : List (Nat × Nat)
  routes : List (Nat × Nat)
deriving DecidableEq, Repr

/-! ## Slots: what a slice served by a sequencer slot holds beside its registers, chapters 2 and 3 -/

/-- One fault of the running frame: class of Table 3.12, MMU code of Table 5.4 where it has one, the address, the
place, how many lines the access covers, the link slot whose state faulted the frame where no address tells it (R217, R231), and whether
its cause is resolved (R40). -/
structure FrameFault where
  cls : Nat
  code : Nat
  addr : Nat
  field : Nat
  core : Nat
  step : Nat
  lines : Nat
  link : Option Nat
  resolved : Bool
deriving DecidableEq, Repr

/-- States of a job, Table 13.7. -/
inductive JobState where
  | queued | loading | idle | running | preempted | stopped
deriving DecidableEq, Repr

/-- Where a slice stands: it runs on its slot; its contexts are being saved, or are saved; they are being restored, or are
restored and wait for a tick (R45 to R47); or its job is stopped. -/
inductive Phase where
  | placed
  | saving
  | saved
  | restoring
  | restored
  | stopped
deriving DecidableEq, Repr

/-- A slot's state beside its registers: whether a frame has started, and by a realignment; the faults of the frame, and how many of them
the latest close found; the causes found at the latest close (none since the tick); the decision for the tick, and those that came late, oldest first (R36); the program that SEQ_NEXT named at the close, if it was valid
(R23); votes of other members since the latest decision; whether input regions are protected (R62); whether the latest close found the frame's programs ended without a
fault mark; the instants of the first hold of a run of FAULT and of DECISION holds, and of the report of a lost home
module; the phase; pre-emptions asked for; the holds left of a rotation step; whether an abandoned frame waits for its
rerun, and whether the fields restored onto differ from those left; whether the slice's entry module has stopped (false) or released
(true) the slice at the coming tick; the link slots that faulted in a retrain since the latest close
(R217); the dependency records of the program set and the state of the job as the entry module told them (R57, R329); and the detection goal, S and K of the frame with
the grant for the tick. -/
structure Slot where
  started : Bool
  realigned : Bool
  faults : List FrameFault
  seen : Nat
  causes : Option (List Cause)
  decision : Option Decision
  late : List Decision
  named : Option Nat
  votes : List Vote
  prot : Bool
  clean : Bool
  faultSince : Option Nat
  decisionSince : Option Nat
  lostReported : Option Nat
  phase : Phase
  requests : List PreCause
  rotLeft : Nat
  rerun : Bool
  replaced : Bool
  stopDue : Option Bool
  linkDue : List Nat
  depends : List Nat
  told : JobState
  goalBudget : Bool
  sampleS : Nat
  kLog2 : Nat
  grant : Nat
deriving DecidableEq, Repr

/-- A slot that serves nothing. -/
def Slot.init : Slot :=
  { started := false, realigned := false, faults := [], seen := 0, causes := none, decision := none, late := [], named := none, votes := [], prot := false
    clean := false, faultSince := none, decisionSince := none, lostReported := none, phase := .placed, requests := [], rotLeft := 0
    rerun := false, replaced := false, stopDue := none, linkDue := [], depends := [], told := .loading, goalBudget := false, sampleS := 65536, kLog2 := 0, grant := 0 }

/-! ## Movers, chapter 6 -/

/-- A mover's copy of a descriptor, Table 6.1: words 0 to 4 as posted, the fields of words 5 to 7, the program index of the posting frame
(R57) and the slice. -/
structure Desc where
  w0 : Nat
  w1 : Nat
  w2 : Nat
  w3 : Nat
  w4 : Nat
  progress : Nat
  state : Nat
  code : Nat
  segment : Nat
  core : Nat
  step : Nat
  frame : Nat
  prog : Nat
  slice : Nat
  cc : Bool
  sent : Nat
  poisoned : Nat
deriving DecidableEq, Repr

/-- Where an outstanding request of a mover stands: its source is being read, its destination is being written, or the mesh has lost the
header of its write (R173). -/
inductive ReqStage where
  | reading
  | writing
  | lost
deriving DecidableEq, Repr

/-- What the mesh does to an access within the module (R173): it arrives intact, a router of a field drops its header, or its payload fails
the CRC-16 at ejection. -/
inductive Flit where
  | intact
  | dropped (field : Fin 56)
  | spoilt
deriving DecidableEq, Repr

/-- An outstanding request of a mover: its tag, its offset in the descriptor, its length, when it was issued,
and the link slot through which it left. -/
structure MoverReq where
  tag : Nat
  off : Nat
  len : Nat
  start : Nat
  stage : ReqStage
  link : Option Nat
deriving DecidableEq, Repr

/-- A completion that is not visible yet (R163): what Table 6.6 records of it, the bytes it adds to MOV_FLD_BYTES, the
posting it belongs to with its slice, and whether a close has followed it. -/
structure MoverDone where
  tag : Nat
  status : Nat
  bytes : Nat
  count : Nat
  poisoned : Nat
  code : Nat
  core : Nat
  step : Nat
  frame : Nat
  prog : Nat
  slice : Nat
  cc : Bool
  closed : Bool
deriving DecidableEq, Repr

/-- A mover: its queue, head first; the head's outstanding requests and the acknowledged parts beyond PROGRESS; the
counts of the byte audit (R165); the tags of requests that timed out in this segment; the cause for which it is parking; when it parked;
whether its queue is being cancelled; whether a command of MOV_FLD_CMD waits for it; the completions not yet visible, oldest first; and
whether one waits for ring room (R164). -/
structure Mover where
  queue : List Desc
  reqs : List MoverReq
  acks : List (Nat × Nat)
  segStart : Nat
  readBytes : Nat
  ackBytes : Nat
  issued : Nat
  answered : Nat
  timedOut : List Nat
  parking : Option Nat
  parkedAt : Nat
  cancel : Bool
  cmd : Bool
  finished : List MoverDone
  blocked : Bool
deriving DecidableEq, Repr

/-- A mover with nothing to do. -/
def Mover.init : Mover :=
  { queue := [], reqs := [], acks := [], segStart := 0, readBytes := 0, ackBytes := 0, issued := 0, answered := 0,
    timedOut := [], parking := none, parkedAt := 0, cancel := false, cmd := false, finished := [], blocked := false }

/-- The saved context of one field of a pre-empted slice (R46): the field it was saved from, its cores, the lines of its
live banks as they lay in that field, and its movers. -/
structure SavedField where
  field : Nat
  cores : List (Nat × Core)
  mem : Memory
  movers : List (Nat × Mover)
deriving DecidableEq, Repr

/-- The saved context of a pre-empted slice on this module (R46): its placement epoch, frame number, replay count, program, fault marks,
the registers of its slot, and the contexts of its fields in ascending order. -/
structure SavedSlice where
  slice : Nat
  epoch : Nat
  frame : Nat
  status : Nat
  fault : Nat
  faultAddr : Nat
  next : Nat
  setBase : Nat
  live : Nat
  root : Nat
  slot : Slot
  fields : List SavedField
deriving DecidableEq, Repr

/-! ## Spare modules, R285 -/

/-- The steps of R285: the slice is pre-empted, with the spare that the placement service chose and what it knows of the modules;
the substitution and copy links are built with a named tick; the copies are ordered; at the spare, what the departing module's movers copied
is there, the saved context, the slice's LPDDR frames, and which of them are its save areas; the tables are rewritten and the commits armed with the tick of the restore; or the
departing module's context cannot be read. -/
inductive SpareStep where
  | preempt (spare : BitVec 14) (survey : List ModuleFacts)
  | links (tick : BitVec 64)
  | copy
  | arrive (context : SavedSlice) (frames : Memory) (areas : List Nat)
  | rewrite (tick : BitVec 64)
  | lost
deriving DecidableEq, Repr

end Sys2Proof.Machine
end

