-- ==== Sys2Proof/Syntax.lean ====
section
/-!
DEFINITION. Sys2Proof/Syntax.lean: the commands, one constructor for each row of spec/opcode_table.json, in the table's order, with the
operands that the manual gives the operation or event.
-/
namespace Sys2Proof

open Sys2Proof.Machine (Vote Decision LogEntry SpareStep)

/-- The operations and events of the module. -/
inductive Instr where
  /-- TICK, R18: At each tick the module applies the decision taken at the previous close for every slice, and runs every
  action bound to the tick. -/
  | tick (x : TickIn)
  /-- CLOSE, R22: At the close each field samples its cores, exchanges and fault marks, and the control complex evaluates each
  slice. -/
  | close
  /-- VOTE, R33: A VOTE packet carrying a member's frame number, replay count and hold causes arrives at the home module. -/
  | vote (slice : BitVec 12) (x : Vote)
  /-- DECISION, R33: A DECISION packet carrying the verdict and SEQ_NEXT arrives at a member, which applies it at the tick. -/
  | decision (slice : BitVec 12) (d : Decision)
  /-- HOLD_LIMIT_REACHED, R39: A counting hold cause present at 64 preceding ticks makes the decision at the next tick a
  pre-emption. -/
  | holdLimitReached (n : Fin 56)
  /-- HOME_MODULE_LOST, R37: A member that has held a slice with cause DECISION for 1.000 s treats the home module as lost and
  reports it. -/
  | homeModuleLost (n : Fin 56)
  /-- FAULT_UNRESOLVED, R43: A fault not resolved within 1.000 s after the first hold stops the job with a fault completion. -/
  | faultUnresolved (n : Fin 56)
  /-- TIME_LOST, R296: A multi-module slice held with cause DECISION for 1.000 s while the time state is FREE or ACQUIRING is
  pre-empted. -/
  | timeLost (n : Fin 56)
  /-- CONTEXT_SAVE_DONE, R47: When the last field's context save completes, the slice's fields return to the scheduler at the
  next tick. -/
  | contextSaveDone (n : Fin 56)
  /-- CONTEXT_RESTORE_DONE, R47: When the last field's restore completes, the slice advances or reruns its abandoned frame at
  the next tick. -/
  | contextRestoreDone (n : Fin 56)
  /-- NOP, R69: The NOP step issues and has no effect. -/
  | nop (a : CoreAt)
  /-- END, R69: END issues when every earlier step has completed and ends the frame program. -/
  | end_ (a : CoreAt)
  /-- FENCE, R69: FENCE acts as a NOP that issues only when every earlier step has completed. -/
  | fence (a : CoreAt)
  /-- LOOP, R70: LOOP repeats the following BODY steps COUNT times. -/
  | loop (a : CoreAt) (count : Fin 65536) (body : Fin 16384)
  /-- PTR_SET, R71: PTR SET writes IMM to a pointer register. -/
  | ptrSet (a : CoreAt) (dst : Fin 16) (imm : BitVec 16)
  /-- PTR_ADD, R71: PTR ADD adds a signed IMM to a pointer register modulo 65,536. -/
  | ptrAdd (a : CoreAt) (dst : Fin 16) (imm : BitVec 16)
  /-- PTR_PARITY, R71: PTR PARITY writes IMM plus the frame parity times STRIDE to a pointer register. -/
  | ptrParity (a : CoreAt) (dst : Fin 16) (imm : BitVec 16) (stride : BitVec 16)
  /-- LOAD_A, R86: LOAD A copies SRAM lines into an A operand slot. -/
  | loadA (a : CoreAt) (op : LoadOp)
  /-- LOAD_B, R86: LOAD B copies SRAM lines into a B operand slot. -/
  | loadB (a : CoreAt) (op : LoadOp)
  /-- LOAD_SCALE_A, R88: LOAD SCALE_A copies SRAM lines into a SCALE_A slot. -/
  | loadScaleA (a : CoreAt) (op : LoadOp)
  /-- LOAD_SCALE_B, R88: LOAD SCALE_B copies SRAM lines into a SCALE_B slot. -/
  | loadScaleB (a : CoreAt) (op : LoadOp)
  /-- MMA_ACC, R92: MMA ACC multiplies the A and B operands and adds the product to an accumulator tile. -/
  | mmaAcc (a : CoreAt) (op : MmaOp)
  /-- MMA_ZERO, R92: MMA ZERO multiplies the A and B operands and overwrites an accumulator tile with the product. -/
  | mmaZero (a : CoreAt) (op : MmaOp)
  /-- CORE_MARKED_FOR_TEST, R109: A check row reporting failures on more than 4 of 1,024 consecutive MMAs marks its core for
  in-field test. -/
  | coreMarkedForTest (a : CoreAt)
  /-- VEC_ADD, R102: VEC ADD writes the sum of two tiles. -/
  | vecAdd (a : CoreAt) (op : VecOp)
  /-- VEC_MUL, R102: VEC MUL writes the product of two tiles. -/
  | vecMul (a : CoreAt) (op : VecOp)
  /-- VEC_FMA, R102: VEC FMA writes SRC1 × SRC2 + SRC3 with one rounding. -/
  | vecFma (a : CoreAt) (op : VecOp)
  /-- VEC_MAX, R102: VEC MAX writes the element-wise maximum of two tiles. -/
  | vecMax (a : CoreAt) (op : VecOp)
  /-- VEC_SCALE, R102: VEC SCALE multiplies a tile by an FP32 constant. -/
  | vecScale (a : CoreAt) (op : VecOp)
  /-- VEC_COPY, R102: VEC COPY copies one tile to another. -/
  | vecCopy (a : CoreAt) (op : VecOp)
  /-- VEC_EXP, R103: VEC EXP writes e to the power of each element. -/
  | vecExp (a : CoreAt) (op : VecOp)
  /-- VEC_RSQRT, R103: VEC RSQRT writes the reciprocal square root of each element. -/
  | vecRsqrt (a : CoreAt) (op : VecOp)
  /-- VEC_RSUM, R102: VEC RSUM writes row sums into column 0 and zeros elsewhere. -/
  | vecRsum (a : CoreAt) (op : VecOp)
  /-- VEC_RMAX, R102: VEC RMAX writes row maxima into column 0 and zeros elsewhere. -/
  | vecRmax (a : CoreAt) (op : VecOp)
  /-- CVT, R95: CVT converts an accumulator tile to a target format with the selected rounding and writes it to SRAM. -/
  | cvt (a : CoreAt) (op : CvtOp)
  /-- ACC_TO_SRAM, R67: STORE ACC_TO_SRAM writes an accumulator tile to 32 SRAM lines as FP32. -/
  | accToSram (a : CoreAt) (op : StoreOp)
  /-- SRAM_TO_ACC, R67: STORE SRAM_TO_ACC loads an accumulator tile from SRAM. -/
  | sramToAcc (a : CoreAt) (op : StoreOp)
  /-- SEND, R76: SEND transmits 64 SRAM lines as one exchange tile to a core of the slice. -/
  | send (a : CoreAt) (op : SendOp)
  /-- GREAD, R74: GREAD copies lines from a slice-virtual address into local SRAM. -/
  | gread (a : CoreAt) (op : GlobalOp)
  /-- GWRITE, R74: GWRITE copies local SRAM lines to a slice-virtual address. -/
  | gwrite (a : CoreAt) (op : GlobalOp)
  /-- POST, R78: POST copies a 64-byte descriptor into the posting queue of a mover of the field. -/
  | post (a : CoreAt) (mem : MemOp) (queue : Fin 16)
  /-- SEQ_NEXT_WRITE, R56: A write of SEQ_NEXT names the program that starts at the next advance, counting from the next
  close. -/
  | seqNextWrite (n : Fin 56) (index : BitVec 8) (valid : Bool)
  /-- SEQ_FLD_LOAD_START, R54: START of SEQ_FLD_LOAD loads and validates the program set of a slot into the field's cores. -/
  | seqFldLoadStart (f : Fin 56) (slot : BitVec 6)
  /-- FIELD_LOAD_DONE, R55: A field's step-store load ends and SEQ_FLD_LOAD reports the result. -/
  | fieldLoadDone (f : Fin 56) (away : List Byte)
  /-- STEP_REPAIR, R51: During a STEP_ECC hold the field controller rewrites the failing step from the set image. -/
  | stepRepair (n : Fin 56) (away : List Byte)
  /-- INJECT_ARM, R107: A write of TEN_FLD_INJECT with ARM = 1 arms one injected error on a core. -/
  | injectArm (f : Fin 56) (core : BitVec 9) (kind : Bool)
  /-- SRM_FLD_CLEAR_START, R124: START of SRM_FLD_CLEAR clears every line of the field's cores. -/
  | srmFldClearStart (f : Fin 56)
  /-- FIELD_CLEAR_DONE, R124: A field SRAM clear ends and BUSY clears. -/
  | fieldClearDone (f : Fin 56)
  /-- SRAM_SCRUB, R125: Scrub reads and corrects a line of the field's SRAM, marking lines lost at rest. -/
  | sramScrub (f : Fin 56) (w : Fin 480) (line : Fin 49152)
  /-- LPDDR_SCRUB, R132: Scrub reads and corrects a line of an LPDDR device. -/
  | lpddrScrub (line : BitVec 44)
  /-- MMU_SLOT_INVAL_START, R135: START of MMU_SLOT_INVAL invalidates cached translations of a slot on every field. -/
  | mmuSlotInvalStart (n : Fin 56) (all : Bool) (page : BitVec 27)
  /-- MMU_SLOT_ROOT_WRITE, R135: A write of MMU_SLOT_ROOT that takes effect invalidates every cached translation of the slot. -/
  | mmuSlotRootWrite (n : Fin 56) (root : BitVec 64)
  /-- LPD_ALLOCATE, R140: LPD_ALLOC with OP allocate checks the quota, zeroes a frame and sets its owner. -/
  | lpdAllocate (slice : BitVec 12) (frame : BitVec 21)
  /-- LPD_FREE, R140: LPD_ALLOC with OP free clears a frame's owner and decrements HELD. -/
  | lpdFree (slice : BitVec 12) (frame : BitVec 21)
  /-- REMOTE_TIMEOUT, R137: A remote access with no response within MMU_TIMEOUT faults or parks with code TIMEOUT. -/
  | remoteTimeout (tag : BitVec 32)
  /-- MOVER_ISSUE, R151: A running mover issues the next request of up to 4,096 bytes when fewer than 32 are outstanding. -/
  | moverIssue (f : Fin 56) (m : Fin 16)
  /-- MOVER_RESPONSE, R154: A response to a mover request arrives, advancing PROGRESS or parking the mover, or is dropped for
  a stale SEGMENT. -/
  | moverResponse (tag : BitVec 32) (segment : BitVec 8) (b : MoverAnswer)
  /-- MOVER_PARK_DONE, R155: A parking mover whose outstanding requests are all answered or timed out writes PROGRESS, STATE
  and CODE. -/
  | moverParkDone (f : Fin 56) (m : Fin 16)
  /-- MOVER_AUTO_RESUME, R156: A mover parked under an automatic code resumes by itself once its cause ends, with SEGMENT
  increased. -/
  | moverAutoResume (f : Fin 56) (m : Fin 16)
  /-- MOVER_COMPLETE, R165: A descriptor whose PROGRESS reaches LENGTH runs its byte audit and completes. -/
  | moverComplete (f : Fin 56) (m : Fin 16)
  /-- MOVER_PARK_TIMEOUT, R157: A mover parked for 1.000 s stops its job with a fault completion. -/
  | moverParkTimeout (f : Fin 56) (m : Fin 16)
  /-- MOVER_POST, R148: MOV_FLD_CMD OP 0 posts the staged descriptor for the control complex. -/
  | moverPost (f : Fin 56) (m : Fin 16) (ident : BitVec 21)
  /-- MOVER_RESUME, R156: MOV_FLD_CMD OP 1 resumes a parked head descriptor. -/
  | moverResume (f : Fin 56) (m : Fin 16) (ident : BitVec 21)
  /-- MOVER_CANCEL, R162: MOV_FLD_CMD OP 2 cancels every descriptor in a mover's queue. -/
  | moverCancel (f : Fin 56) (m : Fin 16) (ident : BitVec 21)
  /-- MOVER_STOP, R155: MOV_FLD_CMD OP 3 parks the running head with code 0x24. -/
  | moverStop (f : Fin 56) (m : Fin 16) (ident : BitVec 21)
  /-- ROTATION_DUE, R177: The staggered rotation interval of a column expires and its rotation step falls due. -/
  | rotationDue (f : Fin 56) (c : Fin 30)
  /-- STATE_MOVE_DONE, R178: The state move of a rotation step or shift completes and the new column map takes effect at the
  next tick. -/
  | stateMoveDone (f : Fin 56) (c : Fin 30)
  /-- DIRECTED_SHIFT, R180: MSH_FLD_CMD OP 0 shifts the cores of a column so that a marked core becomes the spare. -/
  | directedShift (f : Fin 56) (col : BitVec 5) (prow : Fin 16)
  /-- FENCE_SPARE, R180: MSH_FLD_CMD OP 1 fences the column spare and consumes it. -/
  | fenceSpare (f : Fin 56) (col : BitVec 5) (prow : Fin 16)
  /-- FENCE_CORE, R181: MSH_FLD_CMD OP 2 fences a core in service and shifts the column toward the spare. -/
  | fenceCore (f : Fin 56) (col : BitVec 5) (prow : Fin 16)
  /-- RETIRE_FIELD, R183: MSH_FLD_CMD OP 3 retires a field. -/
  | retireField (f : Fin 56)
  /-- ELEMENT_FAILED, R174: A router, stitched link, core or field controller fails, and the module fences it, reroutes or
  retires the field. -/
  | elementFailed (e : Element)
  /-- FIELD_RETIREMENT, R185: At the tick after a field is retired, the owning slice is pre-empted and a replacement is
  sought. -/
  | fieldRetirement (f : Fin 56)
  /-- IDLE_FRAME, R198: An IDLE link frame is received and its ACK and credit returns are taken. -/
  | idleFrame (n : Fin 24) (f : LinkFrame)
  /-- DATA_FRAME, R207: A DATA link frame is received, checked, ordered by SEQ and buffered toward its packet. -/
  | dataFrame (n : Fin 24) (f : LinkFrame)
  /-- NAK_FRAME, R207: A NAK frame makes the sender resend every unacknowledged frame from the named SEQ. -/
  | nakFrame (n : Fin 24) (f : LinkFrame)
  /-- AUDIT_FRAME, R214: An AUDIT frame taken in order makes the receiver check the four credit equations per VC. -/
  | auditFrame (n : Fin 24) (f : LinkFrame)
  /-- IDENT_FRAME, R210: IDENT frames are received and checked against the expected identity of the fibre. -/
  | identFrame (l : Fin 192) (f : LinkFrame)
  /-- ECHO_FRAME, R209: An ECHO frame is received and used to measure the link delay. -/
  | echoFrame (l : Fin 192) (f : LinkFrame) (arrived : BitVec 64)
  /-- CREDIT_INIT_FRAME, R202: A CREDIT_INIT frame grants the initial credits of each VC at training. -/
  | creditInitFrame (n : Fin 24) (f : LinkFrame) (v0 : BitVec 16) (v1 : BitVec 16) (v2 : BitVec 16) (v3 : BitVec 16)
  /-- RETRAIN_FRAME, R217: A RETRAIN frame from the peer retrains the link with cause PEER. -/
  | retrainFrame (n : Fin 24) (f : LinkFrame)
  /-- NAK_GAP_TIMEOUT, R207: A sequence gap that stays open 200 ns, or each further 1 µs, makes the receiver send NAK. -/
  | nakGapTimeout (n : Fin 24)
  /-- READ, R200: A READ packet arrives at its target, passes the ingress and epoch checks and is answered with READ_DATA or
  FAULT_RSP. -/
  | read (a : Arrival) (p : Packet)
  /-- READ_DATA, R200: A READ_DATA response arrives, is verified and written to its requester's target lines. -/
  | readData (a : Arrival) (p : Packet)
  /-- WRITE, R200: A WRITE packet arrives at its target, is verified and written, and is answered. -/
  | write (a : Arrival) (p : Packet)
  /-- WRITE_DONE, R200: A WRITE_DONE response completes a remote write at its requester. -/
  | writeDone (x : Arrived)
  /-- FAULT_RSP, R136: A FAULT_RSP arrives and faults its requester's frame or parks its mover with the carried code. -/
  | faultRsp (x : Arrived)
  /-- EXCHANGE, R77: An exchange arrives at its receiving field and is written, dropped or faulted as Table 3.11 states. -/
  | exchange (a : Arrival) (p : Packet)
  /-- TIME, R298: A TIME packet is received and answered by the parent, or its reply gives the module its offset and delay. -/
  | time (n : Fin 24) (m : TimeMsg) (arrived : BitVec 64) (leaves : BitVec 64)
  /-- MGMT, R493: An MGMT packet is forwarded or carries a set-up request that the module checks and serves. -/
  | mgmt (via : Via) (p : Packet) (x : MgmtIn)
  /-- LIGHT_PRESENT, R209: The deck reports light at a lane and the lane begins training. -/
  | lightPresent (l : Fin 192) (power : BitVec 16)
  /-- TRAINING_RESTART, R209: A lane that has not reached IDENT within 10 ms of light restarts training, failing after 3
  restarts. -/
  | trainingRestart (l : Fin 192)
  /-- TRAINING_DEADLINE, R209: A link with no lane at IDENT 10 ms after the first light goes DOWN with cause DEADLINE. -/
  | trainingDeadline (n : Fin 24)
  /-- LINK_UP, R233: A link reaches UP and its link slot and routing entries open. -/
  | linkUp (n : Fin 24)
  /-- LANE_LOSS, R216: A lane that loses light, loses FEC lock or exceeds its error limit leaves its link and trains alone. -/
  | laneLoss (l : Fin 192) (light : Bool)
  /-- LINK_RETRAIN, R217: A link retrains for a cause of Table 8.8 and its routing entries close. -/
  | linkRetrain (n : Fin 24) (cause : Fin 8)
  /-- RETRAIN_COMMAND, R217: RETRAIN written in LNK_LINK_CFG retrains the link with cause COMMAND. -/
  | retrainCommand (n : Fin 24)
  /-- CLEAR_COMMAND, R212: CLEAR written in LNK_LINK_CFG takes a MISWIRED or QUARANTINED link back into training. -/
  | clearCommand (n : Fin 24)
  /-- OPTICAL_ENGINE_FAILED, R244: A failed optical engine is taken out of service and its lanes leave their links. -/
  | opticalEngineFailed (e : Fin 12)
  /-- PATH_SET_START, R230: START of DCK_CMD_CTRL checks a set of path commands and, if accepted, closes the affected link
  slots. -/
  | pathSetStart (count : BitVec 9)
  /-- SET_START_TICK, R232: At the named tick, or the first tick after the drain, the deck removes old paths and moves the
  mirrors of new ones. -/
  | setStartTick
  /-- PATH_SETTLED, R258: The last axis of a path dwells in its window and the path becomes settled. -/
  | pathSettled (o : Fin 480) (pin : BitVec 16) (pout : BitVec 16)
  /-- PARK, R238: A write of PARK = 1 closes and drains every link slot of the deck. -/
  | park
  /-- PARKING, R238: At the first tick after the drain every path is removed and the mirrors come to rest. -/
  | parking
  /-- DECK_PARKED, R238: Every mirror rests and the deck state becomes parked. -/
  | deckParked
  /-- UNPARK, R239: A write of PARK = 0 to a parked deck restores the kept paths from the next tick. -/
  | unpark
  /-- DECK_RESET_KEY, R242: A write of RESET_KEY 0xD5 while parked resets the deck. -/
  | deckResetKey (key : BitVec 8) (park : Bool)
  /-- DETACHED, R241: Ticks absent for 2 periods make the deck run its servo from its own oscillator. -/
  | detached
  /-- TICKS_RETURN, R241: Returning ticks make the deck realign within 16 ticks and clear DETACHED. -/
  | ticksReturn
  /-- AXIS_LOST, R259: A settled axis outside LOST_WIN at 4 consecutive ticks puts its path back to moving. -/
  | axisLost (a : Fin 1920)
  /-- SERVO_FAULT, R261: A servo fault condition of Table 10.4 is met and the affected mirrors rest and paths fail. -/
  | servoFault (a : Fin 1920) (code : Fin 8)
  /-- SUPPLY_RECOVERED, R261: The supply back within 180 to 220 V for 1,024 ticks clears fault SUPPLY. -/
  | supplyRecovered
  /-- AXIS_CLEAR, R261: SRV_AXIS.CLEAR clears code 0x1 or 0x5 on a resting axis. -/
  | axisClear (a : Fin 1920)
  /-- COMMIT_ARM, R271: A write of RTE_SLICE_COMMIT arms the staged tables of a slice entry for a named tick. -/
  | commitArm (e : Fin 64) (tick : BitVec 64)
  /-- COMMIT_TAKES_EFFECT, R271: At the named tick the staged tables come into force and the epoch increments. -/
  | commitTakesEffect (e : Fin 64)
  /-- SPARE_SWITCH, R285: The placement service replaces a member by a spare module through pre-emption, copy, table rewrite
  and restore. -/
  | spareSwitch (e : Fin 64) (departing : BitVec 14) (step : SpareStep)
  /-- TIME_MEASURE, R298: Every 16 ticks the module sends its parent a TIME request. -/
  | timeMeasure
  /-- MEASUREMENT_LOST, R298: A TIME reply not arrived within 16 ticks counts as lost, and 4 in a row enter HOLDOVER. -/
  | measurementLost
  /-- HOLDOVER_EXPIRY, R293: 2 s in HOLDOVER without the source returning puts the time state to FREE. -/
  | holdoverExpiry
  /-- TICK_IN_EDGE, R301: A TICK_IN edge is compared with the expected tick and slewed toward or counted as a mismatch. -/
  | tickInEdge (edge : Option (BitVec 64)) (marker : Bool)
  /-- REFCLK_LOSS, R301: REFCLK absent for 1 µs puts the time state into HOLDOVER. -/
  | refclkLoss
  /-- HARNESS_ARM, R300: ARM of TIM_HRN_ARM loads the harness time and tick count at the next marker edge. -/
  | harnessArm
  /-- PERIOD_CHANGE_ARM, R302: ARM of FTK_NEXT arms a change of tick period at a named tick, or refuses it. -/
  | periodChangeArm (period : BitVec 16)
  /-- PERIOD_CHANGE_CANCEL, R302: CANCEL of FTK_NEXT withdraws a pending change of period. -/
  | periodChangeCancel
  /-- PERIOD_CHANGE, R302: At the named tick the anchor and tick period take their new values. -/
  | periodChange
  /-- TSQ_POP, R303: POP removes the oldest entry of a transmit time-stamp queue. -/
  | tsqPop (q : Fin 3)
  /-- PTP_EVENT_MESSAGE, R305: A PTP event message crosses a front-end port and is time-stamped. -/
  | ptpEventMessage (port : Fin 2) (sent : Option (BitVec 16)) (crossed : BitVec 64) (tai : Option (BitVec 64))
  /-- DOORBELL, R314: An RDMA WRITE with immediate of length zero updates SQ_PROD or CQ_CONS, or is ignored. -/
  | doorbell (n : Fin 1024) (imm : BitVec 32)
  /-- DESCRIPTOR_FETCH, R315: The module reads submission entries by RDMA READ and takes them in ring order when completion
  room exists. -/
  | descriptorFetch (n : Fin 1024) (entries : List (BitVec 512))
  /-- COMPLETION_WRITE, R316: The module writes a completion at CQ_PROD, advancing it and notifying when set. -/
  | completionWrite (n : Fin 1024)
  /-- FE_PACKET, R308: A front-end packet other than a doorbell is dropped, refused with NAK or taken as an acknowledgement. -/
  | fePacket (p : FePacket)
  /-- FE_ACK_TIMEOUT, R311: The local acknowledgement timeout expires and the request is retried or the connection enters
  error. -/
  | feAckTimeout (n : Fin 1024)
  /-- FE_NAK, R311: A NAK from the submitter fails the descriptor with FE_ERROR and puts the connection in error. -/
  | feNak (n : Fin 1024) (psn : BitVec 24) (syndrome : BitVec 8)
  /-- FE_ARP, R309: An ARP request or Neighbour Solicitation for a front-end address is answered. -/
  | feArp (port : Fin 2) (addr : IpAddr)
  /-- CONN_OPEN, R310: FEI_CONN_CMD OP open opens a closed connection entry. -/
  | connOpen (n : Fin 1024)
  /-- CONN_CLOSE, R312: FEI_CONN_CMD OP close closes a connection, refused when it is bound to a job. -/
  | connClose (n : Fin 1024)
  /-- CONN_REOPEN, R312: FEI_CONN_CMD OP reopen sets new PSNs and returns the connection to service. -/
  | connReopen (n : Fin 1024)
  /-- NOP_DESCRIPTOR, R318: A NOP descriptor completes DONE. -/
  | nopDescriptor (n : Fin 1024)
  /-- LOAD, R324: A LOAD descriptor creates a job, places it, fetches its image and loads its programs. -/
  | load (n : Fin 1024)
  /-- LOAD_WAIT_EXPIRED, R324: WAIT_MS elapses without placement and the LOAD is refused with cause WAIT. -/
  | loadWaitExpired (job : BitVec 16)
  /-- LOAD_DONE, R324: At the first tick after the programs are loaded the LOAD completes DONE and the job is IDLE. -/
  | loadDone (job : BitVec 16) (targets : List (BitVec 43))
  /-- RUN, R326: A RUN descriptor runs schedule entries frame by frame and completes at the advance into the rest frame. -/
  | run (n : Fin 1024)
  /-- COPY_IN, R327: COPY_IN moves submitter memory into job memory through FE_READ movers. -/
  | copyIn (n : Fin 1024)
  /-- COPY_OUT, R327: COPY_OUT moves job memory to submitter memory through FE_WRITE movers. -/
  | copyOut (n : Fin 1024)
  /-- STATUS, R328: STATUS writes a job snapshot to the submitter and completes DONE. -/
  | status (n : Fin 1024)
  /-- STOP, R330: STOP holds the slice at the next tick, cancels its movers and puts the job in STOPPED. -/
  | stop (n : Fin 1024)
  /-- RELEASE, R331: RELEASE stops the job if needed and frees its fields, frames and save areas. -/
  | release (n : Fin 1024)
  /-- RESUME, R335: RESUME returns a job pre-empted for the hold limit to the scheduler. -/
  | resume (n : Fin 1024)
  /-- INVALID_OPCODE, R318: A descriptor with a reserved or EVENT opcode, or a reserved bit, is refused with cause OPCODE. -/
  | invalidOpcode (n : Fin 1024)
  /-- JOB_CMD_STOP, R330: JOB_CMD OP 0 stops a job with cause OPERATOR. -/
  | jobCmdStop (job : BitVec 16)
  /-- JOB_CMD_RELEASE, R331: JOB_CMD OP 1 releases a job. -/
  | jobCmdRelease (job : BitVec 16)
  /-- JOB_CMD_RESUME, R335: JOB_CMD OP 2 resumes a job as RESUME does. -/
  | jobCmdResume (job : BitVec 16)
  /-- PLACEMENT, R332: The scheduler places a waiting job, or restores a pre-empted one, once its conditions hold. -/
  | placement (p : Placing)
  /-- SCHEDULER_PREEMPT, R333: The scheduler pre-empts the fewest lower-priority jobs to place a waiting job. -/
  | schedulerPreempt (job : BitVec 16)
  /-- LINGER_EXPIRED, R331: A job STOPPED for LINGER_S seconds is released with an event completion. -/
  | lingerExpired (job : BitVec 16)
  /-- SAMPLING_COMPUTE, R350: Once per second the integrity block computes λ, S and u and updates EXCEEDED. -/
  | samplingCompute
  /-- POSITION_DUE, R356: A position whose age reaches DUE_MIN becomes due for in-field test. -/
  | positionDue (f : Fin 56) (c : Fin 30) (p : Fin 16)
  /-- TEST_START, R354: An in-field test starts on a column spare, or in place on an unowned field. -/
  | testStart (f : Fin 56) (c : Fin 30) (p : Fin 16) (inPlace : Bool)
  /-- TEST_DONE, R353: An in-field test ends, passing and zeroing the age or failing and fencing the position. -/
  | testDone (f : Fin 56) (c : Fin 30) (p : Fin 16) (part : Fin 6)
  /-- MAXIMUM_DEFERRAL, R359: The maximum deferral of a due or marked position expires and the owning slice is pre-empted with
  cause TEST. -/
  | maximumDeferral (f : Fin 56) (c : Fin 30) (p : Fin 16)
  /-- FEED_LOST, R374: A feed below 44 V for 2 µs or above 60 V is declared lost and the budget is reduced at the next tick. -/
  | feedLost (feed : Fin 2) (volts : BitVec 12)
  /-- FEED_RETURN, R374: A feed within 48 to 60 V for 100 ms counts as present again. -/
  | feedReturn (feed : Fin 2) (volts : BitVec 12)
  /-- CLOCK_STEP_SLOWER, R375: Heat for 16 ticks or overdraw steps the core clock one step slower at the next tick. -/
  | clockStepSlower
  /-- CLOCK_STEP_FASTER, R375: 1 s cool without overdraw steps the clock one step faster, within CEILING. -/
  | clockStepFaster
  /-- OVERDRAW, R376: Measured input or feed current beyond its limit counts as overdraw. -/
  | overdraw (mean : BitVec 16) (frame : BitVec 16) (ampsA : BitVec 16) (ampsB : BitVec 16)
  /-- CEILING_WRITE, R375: A write of PWR_CLOCK.CEILING slower than the step in force moves the module to the ceiling. -/
  | ceilingWrite (c : Fin 4)
  /-- CAL_RUN, R382: CAL_CMD OP 0 runs the calibration groups set in MASK. -/
  | calRun (mask : BitVec 4) (mref : BitVec 24)
  /-- CAL_GROUP_JUDGED, R383: A group's measurements end and each DAC is judged against its absolute and drift limits. -/
  | calGroupJudged (g : Fin 4) (mref : BitVec 24) (codes : List (BitVec 20))
  /-- FUSE_BURN, R390: CAL_CMD OP 1 with KEY 0xA7 burns the next fuse slot with the trims in force. -/
  | fuseBurn (key : BitVec 8) (intact : Bool)
  /-- HOURLY_SAVE, R348: Once an hour the control complex saves position ages, rotation positions, untraced hours and the
  recorder sequence to flash. -/
  | hourlySave (okA : Bool) (okB : Bool)
  /-- ASSIGNMENT_RECORD, R401: The cartridge takes a slice-assignment record, accepting and acknowledging it or rejecting it. -/
  | assignmentRecord (bytes : List Byte)
  /-- RECORD_RESEND, R401: Every 100 ms the module resends unacknowledged assignment records in SEQ order. -/
  | recordResend
  /-- TIME_RECORD_SEND, R400: Once per second the module sends a TIME record to the cartridge. -/
  | timeRecordSend
  /-- BIN_SAMPLE, R396: Every 1 ms bin the cartridge credits each field rail to its assigned slice. -/
  | binSample (b : BinIn)
  /-- PERIOD_END, R397: At each 1 s period end the cartridge splits residue and shared rails and updates its legal registers. -/
  | periodEnd
  /-- LOG_ENTRY, R404: A signed log entry pushed by the cartridge is stored in the module's flash ring. -/
  | logEntry (e : LogEntry) (okA : Bool) (okB : Bool)
  /-- CARTRIDGE_CALIBRATION, R405: The cartridge calibrates its ADCs at start and every 24 hours, setting or clearing
  UNTRACED. -/
  | cartridgeCalibration (mref : BitVec 24) (drift : BitVec 16)
  /-- CARTRIDGE_CHECK, R407: At start or seating the module checks the cartridge's certificate and pairing and settles
  MET_STATUS.STATE. -/
  | cartridgeCheck (seating : Bool) (certOk : Bool)
  /-- CARTRIDGE_CHECK_TIMEOUT, R407: A state unsettled 8 s after start, or a record unacknowledged for 10 s, makes the state
  FAILED. -/
  | cartridgeCheckTimeout
  /-- TAMPER, R409: An opening of the bay latch increments the event counter and logs TAMPER. -/
  | tamper
  /-- IDENT, R410: The verification port command IDENT returns the cartridge identification. -/
  | ident
  /-- REGS, R410: The verification port command REGS returns the legal registers at the latest period end. -/
  | regs
  /-- LOG, R410: The verification port command LOG returns up to 64 log entries from an LSEQ. -/
  | log (lseq : BitVec 64)
  /-- SELFTEST, R410: The verification port command SELFTEST displays every register and tests the signing unit. -/
  | selftest (passed : Bool)
  /-- UPDATE, R411: The verification port command UPDATE activates a new cartridge image when both signatures and the counter
  verify. -/
  | update (u : CartUpdate)
  /-- UNKNOWN_COMMAND, R410: A verification port command not in Table 17.5 is answered with code UNKNOWN. -/
  | unknownCommand
  /-- CARTRIDGE_POWER_LOSS, R412: Both feeds below 44 V make the cartridge save its registers on hold-up. -/
  | cartridgePowerLoss
  /-- LOG_CURSOR_WRITE, R404: A write of MET_LOG_CURSOR shows the named log copy in MET_LOG_WIN. -/
  | logCursorWrite (lseq : BitVec 64)
  /-- BEGIN, R424: FWU_CMD BEGIN takes the image length and marks the inactive slot empty. -/
  | begin (length : BitVec 40)
  /-- FWU_WRITE, R424: FWU_CMD WRITE copies a chunk of FWU_BUF into the inactive slot on both devices. -/
  | fwuWrite (offset : BitVec 40) (len : BitVec 21) (okA : Bool) (okB : Bool)
  /-- VERIFY, R416: FWU_CMD VERIFY reads back and checks the inactive slot's image. -/
  | verify
  /-- ACTIVATE, R425: FWU_CMD ACTIVATE writes a TRIAL boot record and restarts the control and wafer domains. -/
  | activate (okA : Bool) (okB : Bool)
  /-- CONFIRM, R427: FWU_CMD CONFIRM, or automatic confirmation, writes a CONFIRMED record and burns the fuses. -/
  | confirm (okA : Bool) (okB : Bool) (library : Fin 3)
  /-- ABORT, R424: FWU_CMD ABORT returns the update phase to idle. -/
  | abort
  /-- TRIAL_WATCHDOG, R426: TRIAL_S expiring without confirmation writes a fallback record and restarts the control and wafer
  domains. -/
  | trialWatchdog (okA : Bool) (okB : Bool)
  /-- BOOT, R426: The lowest level acts on the winning boot record and boots, falls back, resets settings or enters recovery. -/
  | boot (okA : Bool) (okB : Bool)
  /-- ATTEST, R423: START of FWU_ATT_CMD forms signed evidence with the certificate chain in FWU_ATT_WIN. -/
  | attest (nonce : BitVec 256)
  /-- RECORD_CLOSE, R437: An open recorder record closes 1.000 s after its TIME. -/
  | recordClose (seq : BitVec 64)
  /-- SUPPRESSION_RECORD, R440: At the start of each second the recorder writes one suppression record per code that had
  suppressed occurrences. -/
  | suppressionRecord
  /-- CURSOR_WRITE, R442: A write of EVR_CURSOR snapshots eight records into EVR_WIN. -/
  | cursorWrite (seq : BitVec 64)
  /-- EVR_CLEAR, R444: EVR_CLEAR with KEY 0x5A clears the permanent area, which refills from a CLEAR record. -/
  | evrClear (key : BitVec 8)
  /-- NOTE, R441: EVR_NOTE_CMD START writes a management note, or refuses it over NOTE_LIMIT. -/
  | note (code : BitVec 12)
  /-- HELLO, R456: A HELLO message on an isolated port is received and the peer's session number is compared. -/
  | hello (p : PortId) (session : BitVec 32)
  /-- PEER_DOWN, R456: A side that misses 4 HELLOs in a row treats its isolated-port peer as down. -/
  | peerDown (p : PortId)
  /-- RESYNCHRONISATION, R457: On a peer's return both sides exchange session and sequence numbers and resend unacknowledged
  messages. -/
  | resynchronisation (p : PortId) (session : BitVec 32)
  /-- POWER_UP, R461: Power applied to the feeds runs the power-up sequence up to the first tick. -/
  | powerUp (x : PowerIn)
  /-- MOD_RST_N, R459: MOD_RST_N asserted for 1 µs resets the control and wafer domains until release. -/
  | modRstN
  /-- CONTROL_RESET, R458: A control-complex reset restarts the control domain, which then resets the wafer. -/
  | controlReset
  /-- WAFER_RESET, R458: A wafer reset by control-complex command runs the wafer steps of the power-up sequence. -/
  | waferReset (x : WaferStart)
  /-- DECK_RESET, R242: A deck reset clears paths, face maps and plans, recalibrates and recomputes the servo matrices. -/
  | deckReset (mref : BitVec 24)
  /-- DECK_POWER_LOSS, R240: Both feeds lost make the deck run on hold-up, and beyond 20 ms the deck domain is lost. -/
  | deckPowerLoss (expired : Bool)
  /-- THERMAL_SHUTDOWN, R480: A die sensor at 110 °C for 4 ticks or a converter at 125 °C switches the wafer converters off. -/
  | thermalShutdown (conv : BitVec 8)
  /-- WAFER_RESTART, R481: 60 s after a thermal shutdown with converters below 85 °C the control complex restarts the wafer. -/
  | waferRestart (conv : BitVec 8) (x : WaferStart)
  /-- SETUP_REQUEST, R489: A management Ethernet set-up request is checked by tag and request number and served. -/
  | setupRequest (station : IpAddr) (port : BitVec 16) (datagram : List Byte)
  /-- MGMT_ARP, R488: An ARP request or Neighbour Solicitation for a management address is answered. -/
  | mgmtArp (addr : IpAddr)
  /-- I3C_PRIVATE_TRANSFER, R492: An I3C private write or read sets up and serves a set-up access. -/
  | i3cPrivateTransfer (t : I3cTransfer)
  /-- I3C_CCC, R491: An I3C common command code is served if listed or NACKed otherwise. -/
  | i3cCcc (c : I3cCcc)
  /-- SETUP_LOCK, R495: MGT_LOCK with KEY 0x4C and SET = 1 sets the set-up lock. -/
  | setupLock (key : BitVec 8)
  /-- AUTOLOCK, R495: AUTOLOCK_S seconds after the first tick the runtime sets the set-up lock. -/
  | autolock
  /-- LINE_READ, R494: START of MGT_LINE_CMD reads a 64-byte line for the control complex and reports its state. -/
  | lineRead (line : BitVec 44)
  /-- REGISTER_WRITE, R6: A write to a register with no row of its own sets its fields under their access codes, or is
  ignored, locked or refused and recorded. -/
  | registerWrite (path : SetupPath) (offset : BitVec 26) (bytes : List Byte)
  /-- FEC_LOCK, R209: A lane's receiver finds 64 consecutive codewords with valid markers and reaches FEC lock, so the lane
  can go on to IDENT, or for a LOOP path reports its FEC counts. -/
  | fecLock (c : FecCount)
  /-- REFCLK_RETURN, R287: REFCLK appears on the harness, the time clock moves from the module's oscillator to REFCLK, and
  with SOURCE 1 the time state leaves FREE or HOLDOVER toward ACQUIRING. -/
  | refclkReturn
  /-- MOD_RST_N_RELEASE, R459: Release of MOD_RST_N lets the control and wafer domains start, running the power-up sequence
  from the boot ROM. -/
  | modRstNRelease (okA : Bool) (okB : Bool) (x : WaferStart)
  /-- CARTRIDGE_REMOVAL, R407: The cartridge is taken out of its bay, the shorting bar carries the feeds, and MET_STATUS.STATE
  becomes ABSENT with assignments unmetered. -/
  | cartridgeRemoval
  /-- ENTRY_MODULE_NO_ANSWER, R37: The entry module has not answered a member's report of a lost home module within a further
  1.000 s, so each member stops the slice on its own fields and frees what it holds. -/
  | entryModuleNoAnswer (n : Fin 56)
  /-- RETRAIN_FAILED, R219: A retrain that has not brought the link UP within the bounds of Table 8.6 is repeated, and after
  the third failure the link goes DOWN with its routing entries faulting LINK_DOWN. -/
  | retrainFailed (n : Fin 24)
  /-- FE_PORT_LINK_CHANGE, R307: A front-end port's 800GBASE-DR4 link comes up or goes down, setting FEI_PORT_STATUS.UP and
  its lane FEC locks. -/
  | fePortLinkChange (port : Fin 2) (up : Bool) (lanes : BitVec 4)
deriving DecidableEq, Repr

end Sys2Proof
end

