-- ==== Sys2Proof/Decode.lean ====
section
/-!
DEFINITION. Sys2Proof/Decode.lean: commands by the bits of the opcode table. No row of the table gives bits: the rows name
operations and events, and their operands reach the module as registers, packets, frames and descriptors, whose layouts stand
with their meanings (log entry 2).
-/
namespace Sys2Proof

/-- The command that a word spells by the table's bits: none, for no row gives bits. -/
def decodeTableWord (_nbits _w : Nat) : Option Instr := none

end Sys2Proof
end

