-- ==== Sys2Proof/Machine/Map.lean ====
section
/-!
DEFINITION. Sys2Proof/Machine/Map.lean: sparse data by key, as a list of (key, value) pairs in one canonical form:
keys strictly rising, and no entry equal to what an unlisted key reads as. Memory, registers and per-core state are
held this way, so that equal contents are equal data.
-/
namespace Sys2Proof.Machine

variable {α : Type}

/-- The value at a key; `d` is what an unlisted key reads as. -/
def mapGet (d : Nat → α) : List (Nat × α) → Nat → α
  | [], k => d k
  | (k', v) :: m, k => if k = k' then v else mapGet d m k

/-- Insert or replace the value at a key. -/
def mapIns (k : Nat) (v : α) : List (Nat × α) → List (Nat × α)
  | [] => [(k, v)]
  | (k', v') :: m =>
    if k < k' then (k, v) :: (k', v') :: m
    else if k = k' then (k, v) :: m
    else (k', v') :: mapIns k v m

/-- Remove a key. -/
def mapDel (k : Nat) (m : List (Nat × α)) : List (Nat × α) := m.filter fun e => !(e.1 == k)

/-- Set the value at a key: a value equal to what an unlisted key reads as removes the entry. -/
def mapSet [DecidableEq α] (d : Nat → α) (k : Nat) (v : α) (m : List (Nat × α)) : List (Nat × α) :=
  if v = d k then mapDel k m else mapIns k v m

/-- Remove every key of a range. -/
def mapDelRange (lo hi : Nat) (m : List (Nat × α)) : List (Nat × α) :=
  m.filter fun e => !(decide (lo ≤ e.1) && decide (e.1 < hi))

/-- Keys strictly rising from a bound. -/
def mapRising : Nat → List (Nat × α) → Bool
  | _, [] => true
  | b, (k, _) :: m => decide (b ≤ k) && mapRising (k + 1) m

/-- The canonical form. -/
def mapWf [DecidableEq α] (d : Nat → α) (m : List (Nat × α)) : Bool :=
  mapRising 0 m && m.all fun e => !(decide (e.2 = d e.1))

/-- Set several consecutive keys. -/
def mapSetList [DecidableEq α] (d : Nat → α) : Nat → List α → List (Nat × α) → List (Nat × α)
  | _, [], m => m
  | k, v :: vs, m => mapSetList d (k + 1) vs (mapSet d k v m)

/-- Read several consecutive keys. -/
def mapGetList (d : Nat → α) (m : List (Nat × α)) : Nat → Nat → List α
  | _, 0 => []
  | k, n + 1 => mapGet d m k :: mapGetList d m (k + 1) n

end Sys2Proof.Machine
end

