-- ==== Sys2Proof/Machine/Parts.lean ====
section
/-!
DEFINITION. Sys2Proof/Machine/Parts.lean: what the deck, the servo and the time block hold beside their registers
(chapters 9, 10 and 12), and so the power arbiter, integrity, calibration, the cartridge and its mirrors, firmware and flash,
the isolated ports, the domains and set-up access (chapters 14 to 22).
-/
namespace Sys2Proof.Machine

/-! ## The light deck, chapter 9 -/

/-- A set of path commands in progress: its entries (Table 9.4), the machine time of its start tick (0: the first tick
after the drain), when it was accepted, the link slots it affects, whether its start tick has come, and whether it
restores a parked deck. -/
structure DeckSet where
  entries : List Nat
  startTick : Nat
  acceptedAt : Nat
  links : List Nat
  begun : Bool
  unpark : Bool
deriving DecidableEq, Repr

/-- A path that moves: when its bound of 4 ms began, and whether it moves because it was lost (R259). -/
structure PathMove where
  since : Nat
  lost : Bool
deriving DecidableEq, Repr

/-- The deck beside its registers: the set in progress; the paths that move, by output; the swap corrections that wait
for a set (lane, face, pairs p and q); whether a park waits for its drain, and when it was written; consecutive ticks at
which the supply was outside 170 to 230 V and within 180 to 220 V; the times of the ticks at which more than 64 axes
failed their check; since when both feeds are absent; the ticks left of a realignment; the time of the deck's own clock, and the
tick period that it had last (R241). -/
structure Deck where
  set : Option DeckSet
  moves : List (Nat × PathMove)
  swaps : List (Nat × Nat × Nat × Nat)
  parkAt : Option Nat
  supplyBad : Nat
  supplyGood : Nat
  engineFails : List Nat
  holdupAt : Option Nat
  realign : Nat
  clock : Nat
  period : Nat
deriving DecidableEq, Repr

/-- A deck with nothing in progress. -/
def Deck.init : Deck :=
  { set := none, moves := [], swaps := [], parkAt := none, supplyBad := 0, supplyGood := 0, engineFails := [],
    holdupAt := none, realign := 0, clock := 0, period := 8000 }

/-! ## The mirror servo, chapter 10 -/

/-- A servo axis beside SRV_AXIS: the estimated state θ̂, ω̂, d̂ and the applied torque b_prev (R250); the drive u, and what its converter takes with its trims (R253); the
latest sample; its profile: from which angle, to which, when it began and how long it takes (R256); whether its loop is
closed; the rest in progress: when its ramp begins, its length, the drive at its beginning and whether it is open-loop (R257, R262); and consecutive ticks: check failures, clipped
drives, inside the settling window, outside the lost window, and bad samples. Angles in units of 0.5 µrad. -/
structure Axis where
  th : Int
  om : Int
  dist : Int
  torque : Int
  drive : Int
  taken : Int
  sample : Int
  start : Int
  goal : Int
  profAt : Nat
  profFor : Nat
  loop : Bool
  restAt : Option Nat
  restFor : Nat
  restFrom : Int
  restOpen : Bool
  miss : Nat
  clip : Nat
  dwell : Nat
  away : Nat
  bad : Nat
deriving DecidableEq, Repr

/-- An axis at rest. -/
def Axis.init : Axis :=
  { th := 0, om := 0, dist := 0, torque := 0, drive := 0, taken := 0, sample := 0, start := 0, goal := 0, profAt := 0
    profFor := 0, loop := false, restAt := none, restFor := 0, restFrom := 0, restOpen := false, miss := 0, clip := 0, dwell := 0, away := 0, bad := 0 }

/-! ## Machine time, chapter 12 -/

/-- An entry of a transmit time-stamp queue, R303. -/
structure TsqEntry where
  ident : Nat
  source : Nat
  time : Nat
deriving DecidableEq, Repr

/-- A PTP event message that a front-end port received (R305): the port, the machine time of its crossing, and when its sender says that it
left, in TAI ns. -/
structure PtpStamp where
  port : Nat
  time : Nat
  origin : Option Nat
deriving DecidableEq, Repr

/-- A step of machine time that waits for the next tick, R294: the offset it removes, and the reference's anchor and its
tick count at a machine time. -/
structure TimeStep where
  offset : Int
  anchor : Nat
  ticks : Nat
  at_ : Nat
deriving DecidableEq, Repr

/-- The time block beside its registers: the machine time of the next tick; measurements in a row within 5 ns; lost
measurements in a row; TICK_IN mismatches in a row; when HOLDOVER began; the step due; the departure and tick count of
the request that awaits its reply; the one-way delay to the parent in units of 2⁻¹⁶ ns, once measured (R298); how many ticks of the reference
the step's interval holds beyond one (R294); how often the source has been lost; the pending change of period (its tick and its period); TAI
less machine time in ns by the PTP relation, while one is held, and the latest PTP event message received (R305); the width in ns of the latest pulse of TICK_OUT (R301); the stamp queues 0, 1 and 2. -/
structure TimeBlock where
  next : Nat
  good : Nat
  lost : Nat
  mismatch : Nat
  heldAt : Nat
  step : Option TimeStep
  asked : Option (Nat × Nat)
  delay : Option Int
  skip : Nat
  losses : Nat
  change : Option (Nat × Nat)
  ptp : Option Int
  ptpIn : Option PtpStamp
  pulse : Nat
  tsq0 : List TsqEntry
  tsq1 : List TsqEntry
  tsq2 : List TsqEntry
deriving DecidableEq, Repr

/-- The time block after reset; the first tick follows one period after the anchor. -/
def TimeBlock.init : TimeBlock :=
  { next := 8000 * 65536, good := 0, lost := 0, mismatch := 0, heldAt := 0, step := none, asked := none, delay := none, skip := 0, losses := 0, change := none, ptp := none, ptpIn := none, pulse := 0, tsq0 := []
    tsq1 := [], tsq2 := [] }

/-- A stamp queue. -/
def TimeBlock.tsq (t : TimeBlock) (q : Nat) : List TsqEntry :=
  match q with
  | 0 => t.tsq0
  | 1 => t.tsq1
  | _ => t.tsq2

/-- Set a stamp queue. -/
def TimeBlock.setTsq (t : TimeBlock) (q : Nat) (l : List TsqEntry) : TimeBlock :=
  match q with
  | 0 => { t with tsq0 := l }
  | 1 => { t with tsq1 := l }
  | _ => { t with tsq2 := l }

/-! ## The power arbiter, chapter 15 -/

/-- The power arbiter beside its registers: the feeds' voltages in 0.1 V; what the first close since the latest tick fixed for the coming
one (R367): the budget, the limits of the slots, and the clock step that falls due, with its cause; a step asked for since; ticks in a row
above HOT_C; since when every sensor has been below COOL_C without overdraw; an overdraw that waits for its step, when one was last counted
and when one was last found; whether a run of heat or of overdraw has been recorded at step 3; the room for grants, the wants of the slots
that have closed and the total of their grants; and since when each feed has been within 48 to 60 V. -/
structure Power where
  voltsA : Nat
  voltsB : Nat
  nextB : Option Nat
  limits : List Nat
  dueStep : Option (Nat × Nat)
  nextStep : Option (Nat × Nat)
  hot : Nat
  coolSince : Nat
  overdue : Bool
  overAt : Option Nat
  overSeen : Nat
  heatRun : Bool
  overRun : Bool
  room : Nat
  wants : List (Nat × Nat)
  granted : Nat
  goodA : Nat
  goodB : Nat
deriving DecidableEq, Repr

/-- The arbiter after reset. -/
def Power.init : Power :=
  { voltsA := 0, voltsB := 0, nextB := none, limits := [], dueStep := none, nextStep := none, hot := 0, coolSince := 0, overdue := false
    overAt := none, overSeen := 0, heatRun := false, overRun := false, room := 0, wants := [], granted := 0, goodA := 0, goodB := 0 }

/-- The image of a slot: the one the module shipped with, or one written by BEGIN and WRITE: its length, its bytes by offset (an
unlisted byte is zero), and the chunks written as offset and length. -/
inductive FwImage where
  | shipped
  | written (length : Nat) (cells : List Host.Cell) (chunks : List (Nat × Nat))
deriving DecidableEq, Repr

/-! ## Integrity, chapter 14 -/

/-- The error budget beside its registers: S with CAPPED as computed and not in force yet (R350), computations in a row above and
not above the limit (R351), the second of the latest computation, and of the computations of the last 60 minutes, newest
first, the S in force and the signature differences counted so far (R349); and the image whose scan library the reserved LPDDR region holds
(R352). -/
structure Integrity where
  next : Option (Nat × Bool)
  past : Nat
  under : Nat
  last : Nat
  history : List (Nat × Nat)
  library : Option FwImage
deriving DecidableEq, Repr

/-- The error budget after reset. -/
def Integrity.init : Integrity := { next := none, past := 0, under := 0, last := 0, history := [], library := none }

/-! ## Calibration, chapter 16 -/

/-- A used fuse slot (R389): its sequence number, every trim by CAL_TRIM index, and its CRC-64/ECMA-182. -/
structure CalSlot where
  seq : Nat
  trims : List (Nat × Nat)
  crc : BitVec 64
deriving DecidableEq, Repr

/-- A calibration run: the groups not judged yet, in order; whether MREF failed its check; whether CAL_CMD asked for it. -/
structure CalRun where
  groups : List Nat
  bad : Bool
  command : Bool
deriving DecidableEq, Repr

/-- The calibration block beside its registers: the used fuse slots, slot 1 first; trims that wait for a tick, as values of CAL_TRIM
by index (R388); the run in progress; whether an unpark waits for its end (Table 16.4); and what the DACs of groups 0 to 2 hold in the deck,
by the same index, which hold-up keeps (R240, R379); the run of group 3 at the wafer's power-up, with whether MREF failed its check, and whether it
is due (R381); and how many of the slots were used at the latest power-up (R384). -/
structure Cal where
  slots : List CalSlot
  dacs : List (Nat × Nat)
  laser : Option Bool
  laserDue : Bool
  old : Nat
  waiting : List (Nat × Nat)
  run : Option CalRun
  unpark : Bool
deriving DecidableEq, Repr

/-- Calibration after reset: no slot used. -/
def Cal.init : Cal := { slots := [], dacs := [], laser := none, laserDue := false, old := 0, waiting := [], run := none, unpark := false }

/-! ## Metrology, chapter 17 -/

/-- A slice-assignment record, Table 17.3, without its signature. -/
structure AssignRec where
  op : Nat
  seq : Nat
  effective : Nat
  fields : Nat
  slice : Nat
  job : Nat
  tag : Nat
  module : Nat
deriving DecidableEq, Repr

/-- A field's assignment as the module last reported it: slice, job and tag. -/
structure Holding where
  field : Nat
  slice : Nat
  job : Nat
  tag : Nat
deriving DecidableEq, Repr

/-- The module's side of metering: records not acknowledged, oldest first, each with the machine time at which it was first sent;
the next SEQ; what was reported of the fields; when records were last resent, and the second after that in which TIME was last sent; when STARTING
began; whether the certificate and the pairing were found good and whether the cartridge accepted a record since; and the
slices whose assignment it accepted (R399 to R408). -/
structure Meter where
  pending : List (AssignRec × Nat)
  nextSeq : Nat
  held : List Holding
  resentAt : Nat
  timeSec : Nat
  startAt : Nat
  checked : Bool
  accepted : Bool
  metered : List Nat
deriving DecidableEq, Repr

/-- The module's side after reset. -/
def Meter.init : Meter :=
  { pending := [], nextSeq := 1, held := [], resentAt := 0, timeSec := 0, startAt := 0, checked := false, accepted := false, metered := [] }

/-- An assignment that the cartridge holds: its number, its ASSIGN record, the fields it still holds, the machine times of its
start and end, its apportioned energy in mJ and field-rail energy in µJ so far, the flags of its entry, and whether it is closed
and waits for its last period. -/
structure Account where
  num : Nat
  slice : Nat
  job : Nat
  tag : Nat
  module : Nat
  fields : Nat
  start : Nat
  stop : Nat
  energy : Int
  field : Nat
  untraced : Bool
  late : Bool
  part : Bool
  closed : Bool
deriving DecidableEq, Repr

/-- A bin of the last 10 s: its cartridge time in ms, the energies of the field rails in µJ, and the account of each field (0 for
none). -/
structure Bin where
  at_ : Nat
  rails : List Nat
  accounts : List Nat
deriving DecidableEq, Repr

/-- A closed period of the last 10 s: the cartridge times of its start and end in ms, FEED_A + FEED_B in mJ and the shared rails in
µJ. -/
structure PeriodSum where
  start : Nat
  stop : Nat
  feeds : Nat
  shared : Nat
deriving DecidableEq, Repr

/-- The Campion cartridge (R393 to R413): the legal registers in mJ; the energies of the open period in µJ (the feeds with the part
of a mJ carried over, and the shared rails) and when it began; the open and closing assignments; bins and periods of the last
10 s, and the account that holds each field in the bin that is open (0 for none); cartridge time in ms and the latest TIME record with the cartridge time of its arrival; the last accepted SEQ and the
records rejected; the log, newest first; the periods ended and whether a supply loss fell since the latest PERIOD entry; the
event counter, and whether the bay was opened without power; UNTRACED and when the ADCs were calibrated; the module it is paired
with, and whether the record key that it enrolled then is this module's (R406); its firmware; and for voltage, current and temperature whether they left their range in this period (bit 0) and in the one
before (bit 1). -/
structure Cart where
  seated : Bool
  powered : Bool
  feedA : Nat
  feedB : Nat
  unassigned : Int
  openA : Nat
  openB : Nat
  shared : Nat
  periodAt : Nat
  accounts : List Account
  nextNum : Nat
  bins : List Bin
  holders : List Nat
  periods : List PeriodSum
  ctime : Nat
  timeMap : Option (Nat × Nat)
  lastSeq : Nat
  rejects : Nat
  log : List LogEntry
  nextLseq : Nat
  periodsRun : Nat
  part : Bool
  evtCnt : Nat
  tamperOff : Bool
  untraced : Bool
  calAt : Option Nat
  paired : Option Nat
  own : Bool
  swid : Nat
  version : Nat
  secVer : Nat
  volt : Nat
  past : Nat
  temp : Nat
deriving DecidableEq, Repr

/-- A cartridge seated and supplied, paired with module 0, that has metered nothing. -/
def Cart.init : Cart :=
  { seated := true, powered := true, feedA := 0, feedB := 0, unassigned := 0, openA := 0, openB := 0, shared := 0, periodAt := 0
    accounts := [], nextNum := 1, bins := [], holders := [], periods := [], ctime := 0, timeMap := none, lastSeq := 0, rejects := 0, log := []
    nextLseq := 1, periodsRun := 0, part := false, evtCnt := 0, tamperOff := false, untraced := false, calAt := none, paired := some 0, own := true
    swid := 0, version := 0, secVer := 0, volt := 0, past := 0, temp := 0 }

/-! ## Firmware and flash, chapter 18 -/

/-- A boot record, Table 18.7. -/
structure BootRec where
  active : Nat
  prev : Nat
  state : Nat
  attempts : Nat
  seq : Nat
deriving DecidableEq, Repr

/-- A settings copy: its version and sequence number, and its body, here the register keys and values that the runtime which wrote
it sets before the set-up lock. -/
structure Settings where
  version : Nat
  seq : Nat
  body : List (Nat × Nat)
deriving DecidableEq, Repr

/-- The module records of a flash device: the column maps and field states of the repair map (R182), position ages (R348), untraced
hours (R391), the next sequence number of the recorder (R434), and the saved face maps (R243). -/
structure ModuleRecords where
  columns : List (Nat × Nat)
  fields : List (Nat × Nat)
  ages : List (Nat × Nat)
  untraced : Nat
  nextSeq : Option Nat
  faceMaps : List (Nat × Nat)
  links : List Nat
deriving DecidableEq, Repr

/-- A flash device, Table 18.2; a copy that is missing or fails its check is none. -/
structure FlashDev where
  boot0 : Option BootRec
  boot1 : Option BootRec
  set0 : Option Settings
  set1 : Option Settings
  slot0 : Option FwImage
  slot1 : Option FwImage
  records : Option ModuleRecords
  ring : List LogEntry
deriving DecidableEq, Repr

/-- A device as shipped: a CONFIRMED record for slot 0, which holds the shipped image. -/
def FlashDev.init : FlashDev :=
  { boot0 := some { active := 0, prev := 0, state := 0, attempts := 0, seq := 1 }, boot1 := none, set0 := none, set1 := none
    slot0 := some .shipped, slot1 := none, records := none, ring := [] }

/-- The fuses of R417 and R418: the pairs whose left and whose right fuse is burned, and the revoke fuse of key 0. The factory repairs of
R182: column maps by index, and stitched links that are fenced. -/
structure Fuses where
  left : List Nat
  right : List Nat
  revoked : Bool
  columns : List (Nat × Nat)
  links : List Nat
deriving DecidableEq, Repr

/-- Fuses of which none is burned. -/
def Fuses.init : Fuses := { left := [], right := [], revoked := false, columns := [], links := [] }

/-! ## Domains, ports and access, chapters 20 to 22 -/

/-- The control side of an isolated port: whether its peer is up and synchronised, its own session number and the peer's, and
when it heard the peer last (R456, R457). -/
structure Port where
  up : Bool
  session : Nat
  peer : Nat
  heardAt : Nat
deriving DecidableEq, Repr

/-- A port in step with its peer. -/
def Port.init : Port := { up := true, session := 0, peer := 0, heardAt := 0 }

/-- The domains: which are supplied and out of reset; mission mode and the machine time of its first tick (R460); ticks in a row at
110 °C or above; a thermal shutdown in force and when it came; when the wafer restarted after one; whether a second one leaves
the converters off (R480, R481); whether MOD_RST_N is held (R459); when a trial boot began (R426); the strap lines X, Y, Z and parity from
bit 0 on (R472); whether the control domain waits for its boot;
LINK_VER of the image that runs; the fused security version with which layer 0 derived its keys (R420); and the machine time at which the wafer went off, while it is off. -/
structure Domains where
  control : Bool
  wafer : Bool
  deck : Bool
  mission : Bool
  missionAt : Nat
  hot110 : Nat
  shutAt : Option Nat
  restartAt : Option Nat
  keepOff : Bool
  resetHeld : Bool
  trialAt : Nat
  straps : BitVec 15
  booting : Bool
  linkVer : Nat
  keyVer : Nat
  offAt : Option Nat
  deckPort : Port
  cartPort : Port
deriving DecidableEq, Repr

/-- Every domain out of reset, before the first tick. -/
def Domains.init : Domains :=
  { control := true, wafer := true, deck := true, mission := false, missionAt := 0, hot110 := 0, shutAt := none, restartAt := none
    keepOff := false, resetHeld := false, trialAt := 0, straps := 0, booting := false, linkVer := 4, keyVer := 0, offAt := none, deckPort := Port.init, cartPort := Port.init }

/-- Set-up access beside its registers: the last accepted REQ of up to 16 stations, the most recently used first (R490), and of each
sending module (R493); the I3C header that a private read will serve, and the reply of the latest I3C write (R492). -/
structure SetupSide where
  stations : List (IpAddr × Nat)
  senders : List (Nat × Nat)
  header : Option (Nat × Nat)
  reply : Option (List Byte)
deriving DecidableEq, Repr

/-- Set-up access after reset. -/
def SetupSide.init : SetupSide := { stations := [], senders := [], header := none, reply := none }

end Sys2Proof.Machine
end

