-- ==== Sys2Proof/Machine/Reg.lean ====
section
/-!
DEFINITION. Sys2Proof/Machine/Reg.lean: the registers of set-up space, one constructor per register of the
manual's register lines, with the block, offset, repetition, width, fields, access codes and reset values those
lines and field tables give (Table 0.5 for the access codes, Table 22.1 for the block bases and recorder sources).
-/
namespace Sys2Proof.Machine

/-- The blocks of Table 22.1, by register prefix. -/
inductive Block where
  | MGT
  | FTK
  | TIM
  | SEQ
  | TEN
  | SRM
  | LPD
  | MMU
  | MSH
  | LNK
  | DCK
  | SRV
  | RTE
  | JOB
  | INT
  | PWR
  | CAL
  | MET
  | EVR
  | MOV
  | FEI
  | FWU
deriving DecidableEq, Repr

/-- The reset domain a block's registers belong to, Table 1.3 and Table 1.4. -/
inductive Domain where
  | wafer | control | deck | cartridge
deriving DecidableEq, Repr

/-- Base of a block's window in set-up space, Table 22.1. -/
def Block.base : Block → Nat
  | .MGT => 0x0
  | .FTK => 0x10000
  | .TIM => 0x20000
  | .SEQ => 0x30000
  | .TEN => 0x40000
  | .SRM => 0x50000
  | .LPD => 0x60000
  | .MMU => 0x70000
  | .MSH => 0x80000
  | .LNK => 0x90000
  | .DCK => 0xA0000
  | .SRV => 0xB0000
  | .RTE => 0xC0000
  | .JOB => 0xD0000
  | .INT => 0xE0000
  | .PWR => 0xF0000
  | .CAL => 0x100000
  | .MET => 0x110000
  | .EVR => 0x120000
  | .MOV => 0x140000
  | .FEI => 0x180000
  | .FWU => 0x200000

/-- Size of a block's window, Table 22.1. -/
def Block.window : Block → Nat
  | .MGT => 0x10000
  | .FTK => 0x10000
  | .TIM => 0x10000
  | .SEQ => 0x10000
  | .TEN => 0x10000
  | .SRM => 0x10000
  | .LPD => 0x10000
  | .MMU => 0x10000
  | .MSH => 0x10000
  | .LNK => 0x10000
  | .DCK => 0x10000
  | .SRV => 0x10000
  | .RTE => 0x10000
  | .JOB => 0x10000
  | .INT => 0x10000
  | .PWR => 0x10000
  | .CAL => 0x10000
  | .MET => 0x10000
  | .EVR => 0x10000
  | .MOV => 0x40000
  | .FEI => 0x40000
  | .FWU => 0x200000

/-- Recorder SOURCE of a refused write to the block, Table 22.1 and R435. -/
def Block.source : Block → Nat
  | .MGT => 0x14
  | .FTK => 0x0C
  | .TIM => 0x0C
  | .SEQ => 0x02
  | .TEN => 0x01
  | .SRM => 0x03
  | .LPD => 0x05
  | .MMU => 0x06
  | .MSH => 0x04
  | .LNK => 0x08
  | .DCK => 0x09
  | .SRV => 0x0A
  | .RTE => 0x0B
  | .JOB => 0x0E
  | .INT => 0x0F
  | .PWR => 0x11
  | .CAL => 0x12
  | .MET => 0x13
  | .EVR => 0x14
  | .MOV => 0x07
  | .FEI => 0x0D
  | .FWU => 0x14

/-- Domain of the block, Table 1.4. -/
def Block.domain : Block → Domain
  | .MGT => .control
  | .FTK => .control
  | .TIM => .control
  | .SEQ => .wafer
  | .TEN => .wafer
  | .SRM => .wafer
  | .LPD => .wafer
  | .MMU => .wafer
  | .MSH => .wafer
  | .LNK => .wafer
  | .DCK => .deck
  | .SRV => .deck
  | .RTE => .wafer
  | .JOB => .control
  | .INT => .wafer
  | .PWR => .control
  | .CAL => .control
  | .MET => .control
  | .EVR => .control
  | .MOV => .wafer
  | .FEI => .control
  | .FWU => .control

/-- Every block, in the order of Table 22.1. -/
def Block.all : List Block :=
  [.MGT, .FTK, .TIM, .SEQ, .TEN, .SRM, .LPD, .MMU, .MSH, .LNK, .DCK, .SRV, .RTE, .JOB, .INT, .PWR, .CAL, .MET, .EVR, .MOV, .FEI, .FWU]

/-- Access codes of Table 0.5. -/
inductive Acc where
  | ro | rw | w1c | wo | rwl
deriving DecidableEq, Repr

/-- Every register of the manual. The index of a repeated register is its position in its repetition, the outer
repetition first. -/
inductive Reg where
  | SEQ_SLOT_CFG
  | SEQ_NEXT
  | SEQ_FRAME
  | SEQ_STATUS
  | SEQ_SET_BASE
  | SEQ_LIVE
  | SEQ_FAULT
  | SEQ_FAULT_ADDR
  | SEQ_FLD_LOAD
  | SEQ_FLD_XDROP
  | SEQ_FLD_XSUPER
  | SEQ_FLD_ECC
  | TEN_FLD_CTRL
  | TEN_FLD_SR_SEED
  | TEN_FLD_INJECT
  | TEN_FLD_LAST
  | TEN_FLD_MMA_MISS
  | TEN_FLD_VEC_MISS
  | TEN_FLD_NONFINITE
  | TEN_FLD_ACC_ECC
  | SRM_FLD_CTRL
  | SRM_FLD_CLEAR
  | SRM_FLD_ERR
  | SRM_FLD_CE
  | SRM_FLD_UE
  | LPD_DEV_STATUS
  | LPD_DEV_CE
  | LPD_DEV_UE
  | LPD_DEV_ERR
  | LPD_SCRUB
  | LPD_QUOTA
  | LPD_ALLOC
  | MMU_SLOT_ROOT
  | MMU_SLOT_INVAL
  | MMU_FLD_FAULT
  | MMU_FLD_FAULT_VA
  | MMU_FLD_MISS
  | MMU_FLD_LATE
  | MMU_FLD_FAULTS
  | MMU_TIMEOUT
  | MOV_MV_STATUS
  | MOV_MV_DONE
  | MOV_MV_HEAD
  | MOV_FLD_STAGE
  | MOV_FLD_CMD
  | MOV_FLD_CRING_BASE
  | MOV_FLD_CRING_PTR
  | MOV_FLD_BYTES
  | MOV_FLD_LATE
  | MOV_FLD_AUDIT
  | MOV_FLD_REJECT
  | MSH_ROT
  | MSH_MOD_REPAIR
  | MSH_MOD_SHIP
  | MSH_FLD_STATE
  | MSH_FLD_CMD
  | MSH_FLD_STALE
  | MSH_FLD_FLIT_ERR
  | MSH_COL_MAP
  | LNK_VERSION
  | LNK_LINK_CFG
  | LNK_LINK_STATUS
  | LNK_LINK_DELAY
  | LNK_LINK_CAUSE
  | LNK_LINK_RETX
  | LNK_LINK_RETRAIN
  | LNK_LINK_AUDIT
  | LNK_LINK_PDROP
  | LNK_LINK_SWAP
  | LNK_LANE_STATUS
  | LNK_LANE_FEC_CORR
  | LNK_LANE_FEC_UNC
  | DCK_CTRL
  | DCK_STATUS
  | DCK_CMD_CTRL
  | DCK_CMD_TIME
  | DCK_FW
  | DCK_SWAP_CNT
  | DCK_LOSSY_CNT
  | DCK_REJECT_CNT
  | DCK_FACE_PLAN
  | DCK_CMD_BUF
  | DCK_PATH
  | DCK_TAP_IN
  | DCK_TAP_OUT
  | DCK_FACE_MAP
  | SRV_STATUS
  | SRV_CFG
  | SRV_HV
  | SRV_AXIS
  | SRV_SAT_CNT
  | SRV_LOST_CNT
  | SRV_ENG_MISS
  | SRV_FAULT_CNT
  | RTE_MACHINE
  | RTE_COORD
  | RTE_LINK
  | RTE_SLICE
  | RTE_SLICE_BOX
  | RTE_SLICE_HOP
  | RTE_SLICE_COMMIT
  | RTE_SLICE_SUBST
  | RTE_SLICE_PEER
  | RTE_FLD_OWNER
  | RTE_TRANSIT_DROP
  | RTE_FILTER_DROP
  | RTE_NOSLICE_DROP
  | RTE_NOROUTE
  | FTK_PERIOD
  | FTK_NEXT
  | FTK_CHANGE_AT
  | FTK_ANCHOR
  | FTK_TICKS
  | FTK_LAST
  | TIM_NOW
  | TIM_CTRL
  | TIM_STATUS
  | TIM_OFFSET
  | TIM_RATE
  | TIM_HRN_CFG
  | TIM_HRN_TIME
  | TIM_HRN_TICK
  | TIM_HRN_ARM
  | TIM_PTP_CTRL
  | TIM_TSQ_TIME
  | TIM_TSQ_INFO
  | TIM_TSQ_POP
  | TIM_TSQ_DROP
  | TIM_SYNC_LOSS
  | TIM_TICKIN_ERR
  | TIM_STEPS
  | FEI_PORT_STATUS
  | FEI_PORT_ADDR
  | FEI_PORT_IP
  | FEI_PORT_DROP
  | FEI_PORT_REFUSED
  | FEI_CONN_CFG
  | FEI_CONN_PSN
  | FEI_CONN_PEER
  | FEI_CONN_DMAC
  | FEI_CONN_SQ
  | FEI_CONN_CQ
  | FEI_CONN_IDX
  | FEI_CONN_CMD
  | FEI_CONN_RETX
  | FEI_CONN_BADDB
  | JOB_CFG
  | JOB_COUNT
  | JOB_CMD
  | JOB_SLOT_A
  | JOB_SLOT_B
  | INT_MODE
  | INT_STATUS
  | INT_BUDGET
  | INT_SAMPLE
  | INT_RATE
  | INT_LAMBDA
  | INT_LAMBDA_OBS
  | INT_UNDET
  | INT_TEST
  | INT_LIB
  | INT_SVC_PEND
  | INT_SVC_COND
  | INT_FLD_TEST
  | INT_FLD_LAST
  | INT_FLD_PASS
  | INT_FLD_FAIL
  | INT_FLD_REC_FAIL
  | INT_FLD_REC_SRC
  | PWR_BUDGET
  | PWR_CONV
  | PWR_IDLE
  | PWR_STATUS
  | PWR_FRAME
  | PWR_CLOCK
  | PWR_TEMP
  | PWR_AUDIT
  | PWR_FEED_LOSS
  | PWR_THROTTLE
  | PWR_OVERDRAW
  | PWR_SLOT_LIMIT
  | PWR_SLOT_IDLE
  | PWR_SLOT_STATE
  | CAL_CTRL
  | CAL_STATUS
  | CAL_MREF
  | CAL_GROUP
  | CAL_CMD
  | CAL_FUSE
  | CAL_UNTRACED_H
  | CAL_FAIL_CNT
  | CAL_TRIM
  | MET_STATUS
  | MET_SWID
  | MET_VERSION
  | MET_EVT_CNT
  | MET_FEED_A
  | MET_FEED_B
  | MET_UNASSIGNED
  | MET_LOG_PTR
  | MET_LOG_CURSOR
  | MET_LOG_GAP
  | MET_REJECT
  | MET_SLOT_E
  | MET_LOG_WIN
  | FWU_STATUS
  | FWU_SECVER
  | FWU_VERSION
  | FWU_SETTINGS
  | FWU_CFG
  | FWU_CMD
  | FWU_IMG
  | FWU_BUF
  | FWU_ATT_NONCE
  | FWU_ATT_CMD
  | FWU_ATT_WIN
  | FWU_MET_CERT
  | FWU_REVERTS
  | FWU_FLASH_ERR
  | EVR_NEXT
  | EVR_OLDEST
  | EVR_PERM_FIRST
  | EVR_PERM_CNT
  | EVR_CURSOR
  | EVR_WIN_INFO
  | EVR_RATE
  | EVR_CLEAR
  | EVR_NOTE_DATA
  | EVR_NOTE_CMD
  | EVR_SUPPR_CNT
  | EVR_NOTE_REFUSED
  | EVR_AUDIT
  | EVR_WIN
  | MGT_STATUS
  | MGT_LOCK
  | MGT_CFG
  | MGT_NET
  | MGT_KEY
  | MGT_LINE_ADDR
  | MGT_LINE_CMD
  | MGT_LINE_DATA
  | MGT_BADTAG
  | MGT_STALE
  | MGT_DROP
deriving DecidableEq, Repr

/-- A field of a register: lowest bit, width, access code and reset value. -/
structure Fld where
  reg : Reg
  lo : Nat
  w : Nat
  acc : Acc
  rst : Nat
deriving DecidableEq, Repr

/-! The fields, named register_field. -/
namespace F
def SEQ_SLOT_CFG_SLICE_ID : Fld := ⟨.SEQ_SLOT_CFG, 0, 12, .rw, 0⟩
def SEQ_SLOT_CFG_ACTIVE : Fld := ⟨.SEQ_SLOT_CFG, 12, 1, .rw, 0⟩
def SEQ_NEXT_INDEX : Fld := ⟨.SEQ_NEXT, 0, 8, .rw, 0⟩
def SEQ_NEXT_VALID : Fld := ⟨.SEQ_NEXT, 8, 1, .rw, 0⟩
def SEQ_FRAME_FRAME : Fld := ⟨.SEQ_FRAME, 0, 32, .ro, 0⟩
def SEQ_STATUS_HOLD : Fld := ⟨.SEQ_STATUS, 0, 4, .ro, 0⟩
def SEQ_STATUS_REPLAY : Fld := ⟨.SEQ_STATUS, 4, 2, .ro, 0⟩
def SEQ_STATUS_INDEX : Fld := ⟨.SEQ_STATUS, 6, 8, .ro, 0⟩
def SEQ_STATUS_RUNNING : Fld := ⟨.SEQ_STATUS, 14, 1, .ro, 0⟩
def SEQ_STATUS_FAULTED : Fld := ⟨.SEQ_STATUS, 15, 1, .ro, 0⟩
def SEQ_STATUS_PROGRAM : Fld := ⟨.SEQ_STATUS, 16, 1, .ro, 0⟩
def SEQ_SET_BASE_BASE : Fld := ⟨.SEQ_SET_BASE, 0, 64, .rw, 0⟩
def SEQ_LIVE_LIVE : Fld := ⟨.SEQ_LIVE, 0, 48, .rw, 0⟩
def SEQ_FAULT_CLASS : Fld := ⟨.SEQ_FAULT, 0, 4, .ro, 0⟩
def SEQ_FAULT_FIELD : Fld := ⟨.SEQ_FAULT, 8, 6, .ro, 0⟩
def SEQ_FAULT_CORE : Fld := ⟨.SEQ_FAULT, 14, 9, .ro, 0⟩
def SEQ_FAULT_STEP : Fld := ⟨.SEQ_FAULT, 24, 14, .ro, 0⟩
def SEQ_FAULT_REPLAY : Fld := ⟨.SEQ_FAULT, 38, 2, .ro, 0⟩
def SEQ_FAULT_COUNT : Fld := ⟨.SEQ_FAULT, 40, 8, .ro, 0⟩
def SEQ_FAULT_ADDR_ADDR : Fld := ⟨.SEQ_FAULT_ADDR, 0, 64, .ro, 0⟩
def SEQ_FLD_LOAD_START : Fld := ⟨.SEQ_FLD_LOAD, 0, 1, .wo, 0⟩
def SEQ_FLD_LOAD_BUSY : Fld := ⟨.SEQ_FLD_LOAD, 1, 1, .ro, 0⟩
def SEQ_FLD_LOAD_ERROR : Fld := ⟨.SEQ_FLD_LOAD, 2, 4, .ro, 0⟩
def SEQ_FLD_LOAD_SLOT : Fld := ⟨.SEQ_FLD_LOAD, 6, 6, .rw, 0⟩
def SEQ_FLD_LOAD_CORE : Fld := ⟨.SEQ_FLD_LOAD, 12, 10, .ro, 0x3ff⟩
def SEQ_FLD_XDROP_COUNT : Fld := ⟨.SEQ_FLD_XDROP, 0, 48, .ro, 0⟩
def SEQ_FLD_XDROP_OVF : Fld := ⟨.SEQ_FLD_XDROP, 48, 1, .w1c, 0⟩
def SEQ_FLD_XSUPER_COUNT : Fld := ⟨.SEQ_FLD_XSUPER, 0, 48, .ro, 0⟩
def SEQ_FLD_XSUPER_OVF : Fld := ⟨.SEQ_FLD_XSUPER, 48, 1, .w1c, 0⟩
def SEQ_FLD_ECC_COUNT : Fld := ⟨.SEQ_FLD_ECC, 0, 48, .ro, 0⟩
def SEQ_FLD_ECC_OVF : Fld := ⟨.SEQ_FLD_ECC, 48, 1, .w1c, 0⟩
def TEN_FLD_CTRL_SR_FIXED : Fld := ⟨.TEN_FLD_CTRL, 0, 1, .rw, 0⟩
def TEN_FLD_CTRL_INJ_EN : Fld := ⟨.TEN_FLD_CTRL, 1, 1, .rwl, 0⟩
def TEN_FLD_SR_SEED_SEED : Fld := ⟨.TEN_FLD_SR_SEED, 0, 64, .rw, 0⟩
def TEN_FLD_INJECT_CORE : Fld := ⟨.TEN_FLD_INJECT, 0, 9, .wo, 0⟩
def TEN_FLD_INJECT_KIND : Fld := ⟨.TEN_FLD_INJECT, 9, 1, .wo, 0⟩
def TEN_FLD_INJECT_ARM : Fld := ⟨.TEN_FLD_INJECT, 10, 1, .wo, 0⟩
def TEN_FLD_LAST_CORE : Fld := ⟨.TEN_FLD_LAST, 0, 9, .ro, 0⟩
def TEN_FLD_LAST_STEP : Fld := ⟨.TEN_FLD_LAST, 9, 14, .ro, 0⟩
def TEN_FLD_LAST_COLUMN : Fld := ⟨.TEN_FLD_LAST, 23, 5, .ro, 0⟩
def TEN_FLD_LAST_KIND : Fld := ⟨.TEN_FLD_LAST, 28, 1, .ro, 0⟩
def TEN_FLD_LAST_VALID : Fld := ⟨.TEN_FLD_LAST, 29, 1, .w1c, 0⟩
def TEN_FLD_LAST_FRAME : Fld := ⟨.TEN_FLD_LAST, 30, 32, .ro, 0⟩
def TEN_FLD_MMA_MISS_COUNT : Fld := ⟨.TEN_FLD_MMA_MISS, 0, 48, .ro, 0⟩
def TEN_FLD_MMA_MISS_OVF : Fld := ⟨.TEN_FLD_MMA_MISS, 48, 1, .w1c, 0⟩
def TEN_FLD_VEC_MISS_COUNT : Fld := ⟨.TEN_FLD_VEC_MISS, 0, 48, .ro, 0⟩
def TEN_FLD_VEC_MISS_OVF : Fld := ⟨.TEN_FLD_VEC_MISS, 48, 1, .w1c, 0⟩
def TEN_FLD_NONFINITE_COUNT : Fld := ⟨.TEN_FLD_NONFINITE, 0, 48, .ro, 0⟩
def TEN_FLD_NONFINITE_OVF : Fld := ⟨.TEN_FLD_NONFINITE, 48, 1, .w1c, 0⟩
def TEN_FLD_ACC_ECC_COUNT : Fld := ⟨.TEN_FLD_ACC_ECC, 0, 48, .ro, 0⟩
def TEN_FLD_ACC_ECC_OVF : Fld := ⟨.TEN_FLD_ACC_ECC, 48, 1, .w1c, 0⟩
def SRM_FLD_CTRL_SCRUB_EN : Fld := ⟨.SRM_FLD_CTRL, 0, 1, .rw, 1⟩
def SRM_FLD_CTRL_SCRUB_HOURS : Fld := ⟨.SRM_FLD_CTRL, 1, 7, .rw, 1⟩
def SRM_FLD_CLEAR_START : Fld := ⟨.SRM_FLD_CLEAR, 0, 1, .wo, 0⟩
def SRM_FLD_CLEAR_BUSY : Fld := ⟨.SRM_FLD_CLEAR, 1, 1, .ro, 0⟩
def SRM_FLD_ERR_WINDOW : Fld := ⟨.SRM_FLD_ERR, 0, 9, .ro, 0⟩
def SRM_FLD_ERR_LINE : Fld := ⟨.SRM_FLD_ERR, 9, 16, .ro, 0⟩
def SRM_FLD_ERR_KIND : Fld := ⟨.SRM_FLD_ERR, 25, 1, .ro, 0⟩
def SRM_FLD_ERR_VALID : Fld := ⟨.SRM_FLD_ERR, 26, 1, .w1c, 0⟩
def SRM_FLD_ERR_FRAME : Fld := ⟨.SRM_FLD_ERR, 27, 32, .ro, 0⟩
def SRM_FLD_CE_COUNT : Fld := ⟨.SRM_FLD_CE, 0, 48, .ro, 0⟩
def SRM_FLD_CE_OVF : Fld := ⟨.SRM_FLD_CE, 48, 1, .w1c, 0⟩
def SRM_FLD_UE_COUNT : Fld := ⟨.SRM_FLD_UE, 0, 48, .ro, 0⟩
def SRM_FLD_UE_OVF : Fld := ⟨.SRM_FLD_UE, 48, 1, .w1c, 0⟩
def LPD_DEV_STATUS_TRAINED : Fld := ⟨.LPD_DEV_STATUS, 0, 1, .ro, 0⟩
def LPD_DEV_STATUS_FAILED : Fld := ⟨.LPD_DEV_STATUS, 1, 1, .ro, 0⟩
def LPD_DEV_CE_COUNT : Fld := ⟨.LPD_DEV_CE, 0, 48, .ro, 0⟩
def LPD_DEV_CE_OVF : Fld := ⟨.LPD_DEV_CE, 48, 1, .w1c, 0⟩
def LPD_DEV_UE_COUNT : Fld := ⟨.LPD_DEV_UE, 0, 48, .ro, 0⟩
def LPD_DEV_UE_OVF : Fld := ⟨.LPD_DEV_UE, 48, 1, .w1c, 0⟩
def LPD_DEV_ERR_LINE : Fld := ⟨.LPD_DEV_ERR, 0, 44, .ro, 0⟩
def LPD_DEV_ERR_VALID : Fld := ⟨.LPD_DEV_ERR, 44, 1, .w1c, 0⟩
def LPD_DEV_ERR_KIND : Fld := ⟨.LPD_DEV_ERR, 45, 1, .ro, 0⟩
def LPD_SCRUB_EN : Fld := ⟨.LPD_SCRUB, 0, 1, .rw, 1⟩
def LPD_SCRUB_HOURS : Fld := ⟨.LPD_SCRUB, 1, 7, .rw, 0x18⟩
def LPD_QUOTA_SLICE_ID : Fld := ⟨.LPD_QUOTA, 0, 12, .rw, 0⟩
def LPD_QUOTA_ACTIVE : Fld := ⟨.LPD_QUOTA, 12, 1, .rw, 0⟩
def LPD_QUOTA_LIMIT : Fld := ⟨.LPD_QUOTA, 16, 21, .rw, 0⟩
def LPD_QUOTA_HELD : Fld := ⟨.LPD_QUOTA, 40, 21, .ro, 0⟩
def LPD_ALLOC_START : Fld := ⟨.LPD_ALLOC, 0, 1, .wo, 0⟩
def LPD_ALLOC_OP : Fld := ⟨.LPD_ALLOC, 1, 1, .rw, 0⟩
def LPD_ALLOC_BUSY : Fld := ⟨.LPD_ALLOC, 2, 1, .ro, 0⟩
def LPD_ALLOC_RESULT : Fld := ⟨.LPD_ALLOC, 3, 3, .ro, 0⟩
def LPD_ALLOC_SLICE_ID : Fld := ⟨.LPD_ALLOC, 6, 12, .rw, 0⟩
def LPD_ALLOC_FRAME : Fld := ⟨.LPD_ALLOC, 18, 21, .rw, 0⟩
def MMU_SLOT_ROOT_ROOT : Fld := ⟨.MMU_SLOT_ROOT, 0, 64, .rw, 0⟩
def MMU_SLOT_INVAL_START : Fld := ⟨.MMU_SLOT_INVAL, 0, 1, .wo, 0⟩
def MMU_SLOT_INVAL_BUSY : Fld := ⟨.MMU_SLOT_INVAL, 1, 1, .ro, 0⟩
def MMU_SLOT_INVAL_ALL : Fld := ⟨.MMU_SLOT_INVAL, 2, 1, .rw, 0⟩
def MMU_SLOT_INVAL_VA : Fld := ⟨.MMU_SLOT_INVAL, 21, 27, .rw, 0⟩
def MMU_FLD_FAULT_CODE : Fld := ⟨.MMU_FLD_FAULT, 0, 5, .ro, 0⟩
def MMU_FLD_FAULT_VALID : Fld := ⟨.MMU_FLD_FAULT, 5, 1, .w1c, 0⟩
def MMU_FLD_FAULT_WRITE : Fld := ⟨.MMU_FLD_FAULT, 6, 1, .ro, 0⟩
def MMU_FLD_FAULT_MOVER : Fld := ⟨.MMU_FLD_FAULT, 7, 1, .ro, 0⟩
def MMU_FLD_FAULT_SLICE : Fld := ⟨.MMU_FLD_FAULT, 8, 12, .ro, 0⟩
def MMU_FLD_FAULT_SOURCE : Fld := ⟨.MMU_FLD_FAULT, 20, 9, .ro, 0⟩
def MMU_FLD_FAULT_FRAME : Fld := ⟨.MMU_FLD_FAULT, 29, 32, .ro, 0⟩
def MMU_FLD_FAULT_VA_VA : Fld := ⟨.MMU_FLD_FAULT_VA, 0, 48, .ro, 0⟩
def MMU_FLD_MISS_COUNT : Fld := ⟨.MMU_FLD_MISS, 0, 48, .ro, 0⟩
def MMU_FLD_MISS_OVF : Fld := ⟨.MMU_FLD_MISS, 48, 1, .w1c, 0⟩
def MMU_FLD_LATE_COUNT : Fld := ⟨.MMU_FLD_LATE, 0, 48, .ro, 0⟩
def MMU_FLD_LATE_OVF : Fld := ⟨.MMU_FLD_LATE, 48, 1, .w1c, 0⟩
def MMU_FLD_FAULTS_COUNT : Fld := ⟨.MMU_FLD_FAULTS, 0, 48, .ro, 0⟩
def MMU_FLD_FAULTS_OVF : Fld := ⟨.MMU_FLD_FAULTS, 48, 1, .w1c, 0⟩
def MMU_TIMEOUT_LIMIT : Fld := ⟨.MMU_TIMEOUT, 0, 16, .rwl, 0xc8⟩
def MOV_MV_STATUS_STATE : Fld := ⟨.MOV_MV_STATUS, 0, 3, .ro, 0⟩
def MOV_MV_STATUS_CODE : Fld := ⟨.MOV_MV_STATUS, 8, 8, .ro, 0⟩
def MOV_MV_STATUS_DEPTH : Fld := ⟨.MOV_MV_STATUS, 16, 6, .ro, 0⟩
def MOV_MV_STATUS_SEGMENT : Fld := ⟨.MOV_MV_STATUS, 22, 8, .ro, 0⟩
def MOV_MV_DONE_COUNT : Fld := ⟨.MOV_MV_DONE, 0, 64, .ro, 0⟩
def MOV_MV_HEAD_DESC : Fld := ⟨.MOV_MV_HEAD, 0, 512, .ro, 0⟩
def MOV_FLD_STAGE_DESC : Fld := ⟨.MOV_FLD_STAGE, 0, 512, .rw, 0⟩
def MOV_FLD_CMD_START : Fld := ⟨.MOV_FLD_CMD, 0, 1, .wo, 0⟩
def MOV_FLD_CMD_BUSY : Fld := ⟨.MOV_FLD_CMD, 1, 1, .ro, 0⟩
def MOV_FLD_CMD_OP : Fld := ⟨.MOV_FLD_CMD, 2, 2, .rw, 0⟩
def MOV_FLD_CMD_MOVER : Fld := ⟨.MOV_FLD_CMD, 4, 4, .rw, 0⟩
def MOV_FLD_CMD_RESULT : Fld := ⟨.MOV_FLD_CMD, 8, 3, .ro, 0⟩
def MOV_FLD_CMD_ID : Fld := ⟨.MOV_FLD_CMD, 11, 21, .rw, 0⟩
def MOV_FLD_CRING_BASE_BASE : Fld := ⟨.MOV_FLD_CRING_BASE, 0, 64, .rw, 0⟩
def MOV_FLD_CRING_PTR_HEAD : Fld := ⟨.MOV_FLD_CRING_PTR, 0, 12, .rw, 0⟩
def MOV_FLD_CRING_PTR_TAIL : Fld := ⟨.MOV_FLD_CRING_PTR, 16, 12, .ro, 0⟩
def MOV_FLD_BYTES_COUNT : Fld := ⟨.MOV_FLD_BYTES, 0, 48, .ro, 0⟩
def MOV_FLD_BYTES_OVF : Fld := ⟨.MOV_FLD_BYTES, 48, 1, .w1c, 0⟩
def MOV_FLD_LATE_COUNT : Fld := ⟨.MOV_FLD_LATE, 0, 48, .ro, 0⟩
def MOV_FLD_LATE_OVF : Fld := ⟨.MOV_FLD_LATE, 48, 1, .w1c, 0⟩
def MOV_FLD_AUDIT_COUNT : Fld := ⟨.MOV_FLD_AUDIT, 0, 48, .ro, 0⟩
def MOV_FLD_AUDIT_OVF : Fld := ⟨.MOV_FLD_AUDIT, 48, 1, .w1c, 0⟩
def MOV_FLD_REJECT_COUNT : Fld := ⟨.MOV_FLD_REJECT, 0, 48, .ro, 0⟩
def MOV_FLD_REJECT_OVF : Fld := ⟨.MOV_FLD_REJECT, 48, 1, .w1c, 0⟩
def MSH_ROT_INTERVAL : Fld := ⟨.MSH_ROT, 0, 11, .rw, 0xa⟩
def MSH_MOD_REPAIR_NOSPARE : Fld := ⟨.MSH_MOD_REPAIR, 0, 11, .ro, 0⟩
def MSH_MOD_REPAIR_RETIRED : Fld := ⟨.MSH_MOD_REPAIR, 11, 6, .ro, 0⟩
def MSH_MOD_REPAIR_FENCED : Fld := ⟨.MSH_MOD_REPAIR, 17, 6, .ro, 0⟩
def MSH_MOD_REPAIR_LINKS : Fld := ⟨.MSH_MOD_REPAIR, 23, 12, .ro, 0⟩
def MSH_MOD_SHIP_NOSPARE : Fld := ⟨.MSH_MOD_SHIP, 0, 11, .ro, 0⟩
def MSH_FLD_STATE_STATE : Fld := ⟨.MSH_FLD_STATE, 0, 2, .ro, 0⟩
def MSH_FLD_STATE_CAUSE : Fld := ⟨.MSH_FLD_STATE, 2, 4, .ro, 0⟩
def MSH_FLD_STATE_NOSPARE : Fld := ⟨.MSH_FLD_STATE, 6, 5, .ro, 0⟩
def MSH_FLD_CMD_START : Fld := ⟨.MSH_FLD_CMD, 0, 1, .wo, 0⟩
def MSH_FLD_CMD_BUSY : Fld := ⟨.MSH_FLD_CMD, 1, 1, .ro, 0⟩
def MSH_FLD_CMD_OP : Fld := ⟨.MSH_FLD_CMD, 2, 3, .rw, 0⟩
def MSH_FLD_CMD_COLUMN : Fld := ⟨.MSH_FLD_CMD, 5, 5, .rw, 0⟩
def MSH_FLD_CMD_PROW : Fld := ⟨.MSH_FLD_CMD, 10, 4, .rw, 0⟩
def MSH_FLD_CMD_RESULT : Fld := ⟨.MSH_FLD_CMD, 14, 3, .ro, 0⟩
def MSH_FLD_STALE_COUNT : Fld := ⟨.MSH_FLD_STALE, 0, 48, .ro, 0⟩
def MSH_FLD_STALE_OVF : Fld := ⟨.MSH_FLD_STALE, 48, 1, .w1c, 0⟩
def MSH_FLD_FLIT_ERR_COUNT : Fld := ⟨.MSH_FLD_FLIT_ERR, 0, 48, .ro, 0⟩
def MSH_FLD_FLIT_ERR_OVF : Fld := ⟨.MSH_FLD_FLIT_ERR, 48, 1, .w1c, 0⟩
def MSH_COL_MAP_SPARE : Fld := ⟨.MSH_COL_MAP, 0, 4, .ro, 0xf⟩
def MSH_COL_MAP_BASE : Fld := ⟨.MSH_COL_MAP, 4, 4, .ro, 0⟩
def MSH_COL_MAP_FENCE : Fld := ⟨.MSH_COL_MAP, 8, 16, .ro, 0⟩
def MSH_COL_MAP_NOSPARE : Fld := ⟨.MSH_COL_MAP, 24, 1, .ro, 0⟩
def MSH_COL_MAP_STEPPING : Fld := ⟨.MSH_COL_MAP, 25, 1, .ro, 0⟩
def LNK_VERSION_OWN : Fld := ⟨.LNK_VERSION, 0, 8, .ro, 4⟩
def LNK_VERSION_LOW : Fld := ⟨.LNK_VERSION, 8, 8, .ro, 3⟩
def LNK_VERSION_HIGH : Fld := ⟨.LNK_VERSION, 16, 8, .ro, 5⟩
def LNK_LINK_CFG_ENABLE : Fld := ⟨.LNK_LINK_CFG, 0, 1, .rw, 0⟩
def LNK_LINK_CFG_GROUPS : Fld := ⟨.LNK_LINK_CFG, 1, 4, .rw, 0⟩
def LNK_LINK_CFG_RETRAIN : Fld := ⟨.LNK_LINK_CFG, 5, 1, .wo, 0⟩
def LNK_LINK_CFG_CLEAR : Fld := ⟨.LNK_LINK_CFG, 6, 1, .wo, 0⟩
def LNK_LINK_STATUS_STATE : Fld := ⟨.LNK_LINK_STATUS, 0, 3, .ro, 0⟩
def LNK_LINK_STATUS_LANES : Fld := ⟨.LNK_LINK_STATUS, 3, 32, .ro, 0⟩
def LNK_LINK_STATUS_RUN_VER : Fld := ⟨.LNK_LINK_STATUS, 35, 8, .ro, 0⟩
def LNK_LINK_STATUS_SWAPPED : Fld := ⟨.LNK_LINK_STATUS, 43, 1, .ro, 0⟩
def LNK_LINK_STATUS_PEER : Fld := ⟨.LNK_LINK_STATUS, 44, 14, .ro, 0⟩
def LNK_LINK_STATUS_PEER_PORT : Fld := ⟨.LNK_LINK_STATUS, 58, 3, .ro, 0⟩
def LNK_LINK_DELAY_PROP : Fld := ⟨.LNK_LINK_DELAY, 0, 16, .ro, 0⟩
def LNK_LINK_CAUSE_LAST : Fld := ⟨.LNK_LINK_CAUSE, 0, 4, .ro, 0⟩
def LNK_LINK_CAUSE_IDCHK : Fld := ⟨.LNK_LINK_CAUSE, 4, 4, .ro, 0⟩
def LNK_LINK_RETX_COUNT : Fld := ⟨.LNK_LINK_RETX, 0, 48, .ro, 0⟩
def LNK_LINK_RETX_OVF : Fld := ⟨.LNK_LINK_RETX, 48, 1, .w1c, 0⟩
def LNK_LINK_RETRAIN_COUNT : Fld := ⟨.LNK_LINK_RETRAIN, 0, 48, .ro, 0⟩
def LNK_LINK_RETRAIN_OVF : Fld := ⟨.LNK_LINK_RETRAIN, 48, 1, .w1c, 0⟩
def LNK_LINK_AUDIT_COUNT : Fld := ⟨.LNK_LINK_AUDIT, 0, 48, .ro, 0⟩
def LNK_LINK_AUDIT_OVF : Fld := ⟨.LNK_LINK_AUDIT, 48, 1, .w1c, 0⟩
def LNK_LINK_PDROP_COUNT : Fld := ⟨.LNK_LINK_PDROP, 0, 48, .ro, 0⟩
def LNK_LINK_PDROP_OVF : Fld := ⟨.LNK_LINK_PDROP, 48, 1, .w1c, 0⟩
def LNK_LINK_SWAP_COUNT : Fld := ⟨.LNK_LINK_SWAP, 0, 48, .ro, 0⟩
def LNK_LINK_SWAP_OVF : Fld := ⟨.LNK_LINK_SWAP, 48, 1, .w1c, 0⟩
def LNK_LANE_STATUS_STATE : Fld := ⟨.LNK_LANE_STATUS, 0, 3, .ro, 0⟩
def LNK_LANE_STATUS_DEGRADED : Fld := ⟨.LNK_LANE_STATUS, 3, 1, .ro, 0⟩
def LNK_LANE_STATUS_PEER_PAIR : Fld := ⟨.LNK_LANE_STATUS, 4, 6, .ro, 0⟩
def LNK_LANE_STATUS_PEER_FACE : Fld := ⟨.LNK_LANE_STATUS, 10, 3, .ro, 0⟩
def LNK_LANE_STATUS_RESTARTS : Fld := ⟨.LNK_LANE_STATUS, 13, 2, .ro, 0⟩
def LNK_LANE_FEC_CORR_COUNT : Fld := ⟨.LNK_LANE_FEC_CORR, 0, 48, .ro, 0⟩
def LNK_LANE_FEC_CORR_OVF : Fld := ⟨.LNK_LANE_FEC_CORR, 48, 1, .w1c, 0⟩
def LNK_LANE_FEC_UNC_COUNT : Fld := ⟨.LNK_LANE_FEC_UNC, 0, 48, .ro, 0⟩
def LNK_LANE_FEC_UNC_OVF : Fld := ⟨.LNK_LANE_FEC_UNC, 48, 1, .w1c, 0⟩
def DCK_CTRL_PARK : Fld := ⟨.DCK_CTRL, 0, 1, .rw, 0⟩
def DCK_CTRL_RESET_KEY : Fld := ⟨.DCK_CTRL, 8, 8, .wo, 0⟩
def DCK_STATUS_STATE : Fld := ⟨.DCK_STATUS, 0, 3, .ro, 0⟩
def DCK_STATUS_PATHS : Fld := ⟨.DCK_STATUS, 3, 9, .ro, 0⟩
def DCK_STATUS_DETACHED : Fld := ⟨.DCK_STATUS, 12, 1, .ro, 0⟩
def DCK_STATUS_HOLDUP : Fld := ⟨.DCK_STATUS, 13, 1, .ro, 0⟩
def DCK_STATUS_SERVO_FAULT : Fld := ⟨.DCK_STATUS, 14, 1, .ro, 0⟩
def DCK_CMD_CTRL_START : Fld := ⟨.DCK_CMD_CTRL, 0, 1, .wo, 0⟩
def DCK_CMD_CTRL_BUSY : Fld := ⟨.DCK_CMD_CTRL, 1, 1, .ro, 0⟩
def DCK_CMD_CTRL_COUNT : Fld := ⟨.DCK_CMD_CTRL, 2, 9, .rw, 0⟩
def DCK_CMD_CTRL_RESULT : Fld := ⟨.DCK_CMD_CTRL, 11, 4, .ro, 0⟩
def DCK_CMD_CTRL_ENTRY : Fld := ⟨.DCK_CMD_CTRL, 15, 9, .ro, 0⟩
def DCK_CMD_CTRL_DRAINED : Fld := ⟨.DCK_CMD_CTRL, 24, 1, .ro, 0⟩
def DCK_CMD_TIME_TICK : Fld := ⟨.DCK_CMD_TIME, 0, 64, .rw, 0⟩
def DCK_FW_RUN : Fld := ⟨.DCK_FW, 0, 16, .ro, 0⟩
def DCK_FW_STAGED : Fld := ⟨.DCK_FW, 16, 16, .ro, 0⟩
def DCK_SWAP_CNT_COUNT : Fld := ⟨.DCK_SWAP_CNT, 0, 48, .ro, 0⟩
def DCK_SWAP_CNT_OVF : Fld := ⟨.DCK_SWAP_CNT, 48, 1, .w1c, 0⟩
def DCK_LOSSY_CNT_COUNT : Fld := ⟨.DCK_LOSSY_CNT, 0, 48, .ro, 0⟩
def DCK_LOSSY_CNT_OVF : Fld := ⟨.DCK_LOSSY_CNT, 48, 1, .w1c, 0⟩
def DCK_REJECT_CNT_COUNT : Fld := ⟨.DCK_REJECT_CNT, 0, 48, .ro, 0⟩
def DCK_REJECT_CNT_OVF : Fld := ⟨.DCK_REJECT_CNT, 48, 1, .w1c, 0⟩
def DCK_FACE_PLAN_PEER : Fld := ⟨.DCK_FACE_PLAN, 0, 14, .rw, 0⟩
def DCK_FACE_PLAN_PEER_FACE : Fld := ⟨.DCK_FACE_PLAN, 14, 3, .rw, 0⟩
def DCK_FACE_PLAN_VALID : Fld := ⟨.DCK_FACE_PLAN, 17, 1, .rw, 0⟩
def DCK_CMD_BUF_ENTRY : Fld := ⟨.DCK_CMD_BUF, 0, 32, .rw, 0⟩
def DCK_PATH_INPUT : Fld := ⟨.DCK_PATH, 0, 9, .ro, 0⟩
def DCK_PATH_TYPE : Fld := ⟨.DCK_PATH, 9, 3, .ro, 0⟩
def DCK_PATH_STATE : Fld := ⟨.DCK_PATH, 12, 2, .ro, 0⟩
def DCK_PATH_LOSSY : Fld := ⟨.DCK_PATH, 14, 1, .ro, 0⟩
def DCK_PATH_LIGHT : Fld := ⟨.DCK_PATH, 15, 1, .ro, 0⟩
def DCK_TAP_IN_POWER : Fld := ⟨.DCK_TAP_IN, 0, 16, .ro, 0⟩
def DCK_TAP_IN_PRESENT : Fld := ⟨.DCK_TAP_IN, 16, 1, .ro, 0⟩
def DCK_TAP_OUT_POWER : Fld := ⟨.DCK_TAP_OUT, 0, 16, .ro, 0⟩
def DCK_TAP_OUT_PRESENT : Fld := ⟨.DCK_TAP_OUT, 16, 1, .ro, 0⟩
def DCK_FACE_MAP_PHYS : Fld := ⟨.DCK_FACE_MAP, 0, 6, .rw, 0⟩
def DCK_FACE_MAP_CORRECTED : Fld := ⟨.DCK_FACE_MAP, 6, 1, .ro, 0⟩
def SRV_STATUS_SET : Fld := ⟨.SRV_STATUS, 0, 4, .ro, 0⟩
def SRV_STATUS_READY : Fld := ⟨.SRV_STATUS, 4, 1, .ro, 0⟩
def SRV_STATUS_SUPPLY : Fld := ⟨.SRV_STATUS, 5, 2, .ro, 0⟩
def SRV_STATUS_ENGINE : Fld := ⟨.SRV_STATUS, 7, 1, .ro, 0⟩
def SRV_STATUS_FAULTED : Fld := ⟨.SRV_STATUS, 8, 11, .ro, 0⟩
def SRV_CFG_SETTLE_WIN : Fld := ⟨.SRV_CFG, 0, 8, .rw, 5⟩
def SRV_CFG_LOST_WIN : Fld := ⟨.SRV_CFG, 8, 8, .rw, 0x19⟩
def SRV_CFG_DWELL_US : Fld := ⟨.SRV_CFG, 16, 8, .rw, 0x14⟩
def SRV_HV_VOLTS : Fld := ⟨.SRV_HV, 0, 16, .ro, 0⟩
def SRV_AXIS_ANGLE : Fld := ⟨.SRV_AXIS, 0, 20, .ro, 0⟩
def SRV_AXIS_TARGET : Fld := ⟨.SRV_AXIS, 20, 20, .ro, 0⟩
def SRV_AXIS_STATE : Fld := ⟨.SRV_AXIS, 40, 3, .ro, 0⟩
def SRV_AXIS_FAULT : Fld := ⟨.SRV_AXIS, 43, 4, .ro, 0⟩
def SRV_AXIS_CLEAR : Fld := ⟨.SRV_AXIS, 47, 1, .wo, 0⟩
def SRV_AXIS_CLIPPED : Fld := ⟨.SRV_AXIS, 48, 1, .ro, 0⟩
def SRV_SAT_CNT_COUNT : Fld := ⟨.SRV_SAT_CNT, 0, 48, .ro, 0⟩
def SRV_SAT_CNT_OVF : Fld := ⟨.SRV_SAT_CNT, 48, 1, .w1c, 0⟩
def SRV_LOST_CNT_COUNT : Fld := ⟨.SRV_LOST_CNT, 0, 48, .ro, 0⟩
def SRV_LOST_CNT_OVF : Fld := ⟨.SRV_LOST_CNT, 48, 1, .w1c, 0⟩
def SRV_ENG_MISS_COUNT : Fld := ⟨.SRV_ENG_MISS, 0, 48, .ro, 0⟩
def SRV_ENG_MISS_OVF : Fld := ⟨.SRV_ENG_MISS, 48, 1, .w1c, 0⟩
def SRV_FAULT_CNT_COUNT : Fld := ⟨.SRV_FAULT_CNT, 0, 48, .ro, 0⟩
def SRV_FAULT_CNT_OVF : Fld := ⟨.SRV_FAULT_CNT, 48, 1, .w1c, 0⟩
def RTE_MACHINE_DIM_X : Fld := ⟨.RTE_MACHINE, 0, 5, .rwl, 0⟩
def RTE_MACHINE_DIM_Y : Fld := ⟨.RTE_MACHINE, 5, 5, .rwl, 0⟩
def RTE_MACHINE_DIM_Z : Fld := ⟨.RTE_MACHINE, 10, 4, .rwl, 0⟩
def RTE_COORD_X : Fld := ⟨.RTE_COORD, 0, 5, .rwl, 0⟩
def RTE_COORD_Y : Fld := ⟨.RTE_COORD, 5, 5, .rwl, 0⟩
def RTE_COORD_Z : Fld := ⟨.RTE_COORD, 10, 4, .rwl, 0⟩
def RTE_COORD_VALID : Fld := ⟨.RTE_COORD, 14, 1, .ro, 0⟩
def RTE_COORD_STRAPPED : Fld := ⟨.RTE_COORD, 15, 1, .ro, 1⟩
def RTE_COORD_ID : Fld := ⟨.RTE_COORD, 16, 14, .ro, 0⟩
def RTE_LINK_STATE : Fld := ⟨.RTE_LINK, 0, 2, .ro, 0⟩
def RTE_SLICE_SLICE_ID : Fld := ⟨.RTE_SLICE, 0, 12, .rw, 0⟩
def RTE_SLICE_ACTIVE : Fld := ⟨.RTE_SLICE, 12, 1, .rw, 0⟩
def RTE_SLICE_ROLE : Fld := ⟨.RTE_SLICE, 13, 1, .rw, 0⟩
def RTE_SLICE_SLOT : Fld := ⟨.RTE_SLICE, 14, 6, .rw, 0⟩
def RTE_SLICE_EPOCH : Fld := ⟨.RTE_SLICE, 20, 16, .rw, 0⟩
def RTE_SLICE_SHARE : Fld := ⟨.RTE_SLICE, 36, 7, .rw, 0x40⟩
def RTE_SLICE_HOME : Fld := ⟨.RTE_SLICE, 43, 14, .rw, 0⟩
def RTE_SLICE_ARMED : Fld := ⟨.RTE_SLICE, 57, 1, .ro, 0⟩
def RTE_SLICE_CRESULT : Fld := ⟨.RTE_SLICE, 58, 2, .ro, 0⟩
def RTE_SLICE_BOX_ORIGIN : Fld := ⟨.RTE_SLICE_BOX, 0, 14, .rw, 0⟩
def RTE_SLICE_BOX_EXTENT : Fld := ⟨.RTE_SLICE_BOX, 14, 14, .rw, 0⟩
def RTE_SLICE_BOX_WRAP : Fld := ⟨.RTE_SLICE_BOX, 28, 3, .rw, 0⟩
def RTE_SLICE_HOP_HOP : Fld := ⟨.RTE_SLICE_HOP, 0, 36, .rw, 0⟩
def RTE_SLICE_COMMIT_TICK : Fld := ⟨.RTE_SLICE_COMMIT, 0, 64, .rw, 0⟩
def RTE_SLICE_SUBST_LOGICAL : Fld := ⟨.RTE_SLICE_SUBST, 0, 14, .rw, 0⟩
def RTE_SLICE_SUBST_PHYSICAL : Fld := ⟨.RTE_SLICE_SUBST, 14, 14, .rw, 0⟩
def RTE_SLICE_SUBST_VALID : Fld := ⟨.RTE_SLICE_SUBST, 28, 1, .rw, 0⟩
def RTE_SLICE_PEER_MODULE : Fld := ⟨.RTE_SLICE_PEER, 0, 14, .rw, 0⟩
def RTE_SLICE_PEER_VIA : Fld := ⟨.RTE_SLICE_PEER, 14, 1, .rw, 0⟩
def RTE_SLICE_PEER_LINK : Fld := ⟨.RTE_SLICE_PEER, 15, 5, .rw, 0⟩
def RTE_SLICE_PEER_GATEWAY : Fld := ⟨.RTE_SLICE_PEER, 20, 14, .rw, 0⟩
def RTE_SLICE_PEER_VALID : Fld := ⟨.RTE_SLICE_PEER, 34, 1, .rw, 0⟩
def RTE_FLD_OWNER_SLICE_ID : Fld := ⟨.RTE_FLD_OWNER, 0, 12, .rw, 0⟩
def RTE_FLD_OWNER_VALID : Fld := ⟨.RTE_FLD_OWNER, 12, 1, .rw, 0⟩
def RTE_TRANSIT_DROP_COUNT : Fld := ⟨.RTE_TRANSIT_DROP, 0, 48, .ro, 0⟩
def RTE_TRANSIT_DROP_OVF : Fld := ⟨.RTE_TRANSIT_DROP, 48, 1, .w1c, 0⟩
def RTE_FILTER_DROP_COUNT : Fld := ⟨.RTE_FILTER_DROP, 0, 48, .ro, 0⟩
def RTE_FILTER_DROP_OVF : Fld := ⟨.RTE_FILTER_DROP, 48, 1, .w1c, 0⟩
def RTE_NOSLICE_DROP_COUNT : Fld := ⟨.RTE_NOSLICE_DROP, 0, 48, .ro, 0⟩
def RTE_NOSLICE_DROP_OVF : Fld := ⟨.RTE_NOSLICE_DROP, 48, 1, .w1c, 0⟩
def RTE_NOROUTE_COUNT : Fld := ⟨.RTE_NOROUTE, 0, 48, .ro, 0⟩
def RTE_NOROUTE_OVF : Fld := ⟨.RTE_NOROUTE, 48, 1, .w1c, 0⟩
def FTK_PERIOD_PERIOD : Fld := ⟨.FTK_PERIOD, 0, 16, .ro, 0x1f40⟩
def FTK_NEXT_PERIOD : Fld := ⟨.FTK_NEXT, 0, 16, .rw, 0⟩
def FTK_NEXT_ARM : Fld := ⟨.FTK_NEXT, 16, 1, .wo, 0⟩
def FTK_NEXT_CANCEL : Fld := ⟨.FTK_NEXT, 17, 1, .wo, 0⟩
def FTK_NEXT_PENDING : Fld := ⟨.FTK_NEXT, 18, 1, .ro, 0⟩
def FTK_NEXT_RESULT : Fld := ⟨.FTK_NEXT, 19, 3, .ro, 0⟩
def FTK_CHANGE_AT_VALUE : Fld := ⟨.FTK_CHANGE_AT, 0, 64, .rw, 0⟩
def FTK_ANCHOR_VALUE : Fld := ⟨.FTK_ANCHOR, 0, 64, .ro, 0⟩
def FTK_TICKS_VALUE : Fld := ⟨.FTK_TICKS, 0, 64, .ro, 0⟩
def FTK_LAST_VALUE : Fld := ⟨.FTK_LAST, 0, 64, .ro, 0⟩
def TIM_NOW_TIME : Fld := ⟨.TIM_NOW, 0, 64, .ro, 0⟩
def TIM_CTRL_SOURCE : Fld := ⟨.TIM_CTRL, 0, 2, .rwl, 2⟩
def TIM_CTRL_MASTER : Fld := ⟨.TIM_CTRL, 2, 1, .rwl, 0⟩
def TIM_STATUS_STATE : Fld := ⟨.TIM_STATUS, 0, 2, .ro, 0⟩
def TIM_STATUS_REFCLK : Fld := ⟨.TIM_STATUS, 2, 1, .ro, 0⟩
def TIM_STATUS_DEPTH : Fld := ⟨.TIM_STATUS, 3, 5, .ro, 0⟩
def TIM_STATUS_PARENT : Fld := ⟨.TIM_STATUS, 8, 5, .ro, 0⟩
def TIM_STATUS_PARENT_VALID : Fld := ⟨.TIM_STATUS, 13, 1, .ro, 0⟩
def TIM_OFFSET_OFFSET : Fld := ⟨.TIM_OFFSET, 0, 64, .ro, 0⟩
def TIM_RATE_RATE : Fld := ⟨.TIM_RATE, 0, 32, .ro, 0⟩
def TIM_HRN_CFG_DELAY : Fld := ⟨.TIM_HRN_CFG, 0, 16, .rw, 0⟩
def TIM_HRN_TIME_VALUE : Fld := ⟨.TIM_HRN_TIME, 0, 64, .rw, 0⟩
def TIM_HRN_TICK_VALUE : Fld := ⟨.TIM_HRN_TICK, 0, 64, .rw, 0⟩
def TIM_HRN_ARM_ARM : Fld := ⟨.TIM_HRN_ARM, 0, 1, .wo, 0⟩
def TIM_HRN_ARM_ARMED : Fld := ⟨.TIM_HRN_ARM, 1, 1, .ro, 0⟩
def TIM_HRN_ARM_BAD : Fld := ⟨.TIM_HRN_ARM, 2, 1, .ro, 0⟩
def TIM_PTP_CTRL_EN0 : Fld := ⟨.TIM_PTP_CTRL, 0, 1, .rw, 0⟩
def TIM_PTP_CTRL_EN1 : Fld := ⟨.TIM_PTP_CTRL, 1, 1, .rw, 0⟩
def TIM_TSQ_TIME_TIME : Fld := ⟨.TIM_TSQ_TIME, 0, 64, .ro, 0⟩
def TIM_TSQ_INFO_ID : Fld := ⟨.TIM_TSQ_INFO, 0, 16, .ro, 0⟩
def TIM_TSQ_INFO_SOURCE : Fld := ⟨.TIM_TSQ_INFO, 16, 8, .ro, 0⟩
def TIM_TSQ_INFO_VALID : Fld := ⟨.TIM_TSQ_INFO, 24, 1, .ro, 0⟩
def TIM_TSQ_INFO_DEPTH : Fld := ⟨.TIM_TSQ_INFO, 25, 7, .ro, 0⟩
def TIM_TSQ_POP_POP : Fld := ⟨.TIM_TSQ_POP, 0, 1, .wo, 0⟩
def TIM_TSQ_DROP_COUNT : Fld := ⟨.TIM_TSQ_DROP, 0, 48, .ro, 0⟩
def TIM_TSQ_DROP_OVF : Fld := ⟨.TIM_TSQ_DROP, 48, 1, .w1c, 0⟩
def TIM_SYNC_LOSS_COUNT : Fld := ⟨.TIM_SYNC_LOSS, 0, 48, .ro, 0⟩
def TIM_SYNC_LOSS_OVF : Fld := ⟨.TIM_SYNC_LOSS, 48, 1, .w1c, 0⟩
def TIM_TICKIN_ERR_COUNT : Fld := ⟨.TIM_TICKIN_ERR, 0, 48, .ro, 0⟩
def TIM_TICKIN_ERR_OVF : Fld := ⟨.TIM_TICKIN_ERR, 48, 1, .w1c, 0⟩
def TIM_STEPS_COUNT : Fld := ⟨.TIM_STEPS, 0, 48, .ro, 0⟩
def TIM_STEPS_OVF : Fld := ⟨.TIM_STEPS, 48, 1, .w1c, 0⟩
def FEI_PORT_STATUS_UP : Fld := ⟨.FEI_PORT_STATUS, 0, 1, .ro, 0⟩
def FEI_PORT_STATUS_LANES : Fld := ⟨.FEI_PORT_STATUS, 1, 4, .ro, 0⟩
def FEI_PORT_ADDR_MAC : Fld := ⟨.FEI_PORT_ADDR, 0, 48, .rwl, 0⟩
def FEI_PORT_IP_IPV4 : Fld := ⟨.FEI_PORT_IP, 0, 32, .rw, 0⟩
def FEI_PORT_IP_V4_EN : Fld := ⟨.FEI_PORT_IP, 32, 1, .rw, 0⟩
def FEI_PORT_IP_V6_EN : Fld := ⟨.FEI_PORT_IP, 33, 1, .rw, 0⟩
def FEI_PORT_IP_IPV6 : Fld := ⟨.FEI_PORT_IP, 64, 128, .rw, 0⟩
def FEI_PORT_DROP_COUNT : Fld := ⟨.FEI_PORT_DROP, 0, 48, .ro, 0⟩
def FEI_PORT_DROP_OVF : Fld := ⟨.FEI_PORT_DROP, 48, 1, .w1c, 0⟩
def FEI_PORT_REFUSED_COUNT : Fld := ⟨.FEI_PORT_REFUSED, 0, 48, .ro, 0⟩
def FEI_PORT_REFUSED_OVF : Fld := ⟨.FEI_PORT_REFUSED, 48, 1, .w1c, 0⟩
def FEI_CONN_CFG_PORT : Fld := ⟨.FEI_CONN_CFG, 0, 1, .rw, 0⟩
def FEI_CONN_CFG_IPV6 : Fld := ⟨.FEI_CONN_CFG, 1, 1, .rw, 0⟩
def FEI_CONN_CFG_MTU : Fld := ⟨.FEI_CONN_CFG, 2, 2, .rw, 0⟩
def FEI_CONN_CFG_NOTIFY : Fld := ⟨.FEI_CONN_CFG, 4, 1, .rw, 0⟩
def FEI_CONN_CFG_RETRY : Fld := ⟨.FEI_CONN_CFG, 5, 3, .rw, 0⟩
def FEI_CONN_CFG_TIMEOUT : Fld := ⟨.FEI_CONN_CFG, 8, 5, .rw, 0⟩
def FEI_CONN_CFG_STATE : Fld := ⟨.FEI_CONN_CFG, 13, 3, .ro, 0⟩
def FEI_CONN_CFG_REMOTE_QPN : Fld := ⟨.FEI_CONN_CFG, 16, 24, .rw, 0⟩
def FEI_CONN_CFG_LOCAL_QPN : Fld := ⟨.FEI_CONN_CFG, 40, 24, .ro, 0⟩
def FEI_CONN_PSN_SQ_PSN : Fld := ⟨.FEI_CONN_PSN, 0, 24, .rw, 0⟩
def FEI_CONN_PSN_RQ_PSN : Fld := ⟨.FEI_CONN_PSN, 24, 24, .rw, 0⟩
def FEI_CONN_PEER_ADDR : Fld := ⟨.FEI_CONN_PEER, 0, 128, .rw, 0⟩
def FEI_CONN_DMAC_MAC : Fld := ⟨.FEI_CONN_DMAC, 0, 48, .rw, 0⟩
def FEI_CONN_SQ_ADDR : Fld := ⟨.FEI_CONN_SQ, 0, 64, .rw, 0⟩
def FEI_CONN_SQ_RKEY : Fld := ⟨.FEI_CONN_SQ, 64, 32, .rw, 0⟩
def FEI_CONN_SQ_LOG2N : Fld := ⟨.FEI_CONN_SQ, 96, 4, .rw, 0⟩
def FEI_CONN_CQ_ADDR : Fld := ⟨.FEI_CONN_CQ, 0, 64, .rw, 0⟩
def FEI_CONN_CQ_RKEY : Fld := ⟨.FEI_CONN_CQ, 64, 32, .rw, 0⟩
def FEI_CONN_CQ_LOG2N : Fld := ⟨.FEI_CONN_CQ, 96, 4, .rw, 0⟩
def FEI_CONN_IDX_SQ_PROD : Fld := ⟨.FEI_CONN_IDX, 0, 16, .ro, 0⟩
def FEI_CONN_IDX_SQ_CONS : Fld := ⟨.FEI_CONN_IDX, 16, 16, .ro, 0⟩
def FEI_CONN_IDX_CQ_PROD : Fld := ⟨.FEI_CONN_IDX, 32, 16, .ro, 0⟩
def FEI_CONN_IDX_CQ_CONS : Fld := ⟨.FEI_CONN_IDX, 48, 16, .ro, 0⟩
def FEI_CONN_CMD_START : Fld := ⟨.FEI_CONN_CMD, 0, 1, .wo, 0⟩
def FEI_CONN_CMD_BUSY : Fld := ⟨.FEI_CONN_CMD, 1, 1, .ro, 0⟩
def FEI_CONN_CMD_OP : Fld := ⟨.FEI_CONN_CMD, 2, 2, .rw, 0⟩
def FEI_CONN_CMD_RESULT : Fld := ⟨.FEI_CONN_CMD, 4, 3, .ro, 0⟩
def FEI_CONN_RETX_COUNT : Fld := ⟨.FEI_CONN_RETX, 0, 48, .ro, 0⟩
def FEI_CONN_RETX_OVF : Fld := ⟨.FEI_CONN_RETX, 48, 1, .w1c, 0⟩
def FEI_CONN_BADDB_COUNT : Fld := ⟨.FEI_CONN_BADDB, 0, 48, .ro, 0⟩
def FEI_CONN_BADDB_OVF : Fld := ⟨.FEI_CONN_BADDB, 48, 1, .w1c, 0⟩
def JOB_CFG_LINGER_S : Fld := ⟨.JOB_CFG, 0, 16, .rw, 0x258⟩
def JOB_CFG_MIN_RUN_MS : Fld := ⟨.JOB_CFG, 16, 16, .rw, 0x3e8⟩
def JOB_COUNT_JOBS : Fld := ⟨.JOB_COUNT, 0, 9, .ro, 0⟩
def JOB_COUNT_QUEUED : Fld := ⟨.JOB_COUNT, 9, 9, .ro, 0⟩
def JOB_CMD_START : Fld := ⟨.JOB_CMD, 0, 1, .wo, 0⟩
def JOB_CMD_BUSY : Fld := ⟨.JOB_CMD, 1, 1, .ro, 0⟩
def JOB_CMD_OP : Fld := ⟨.JOB_CMD, 2, 2, .rw, 0⟩
def JOB_CMD_JOB : Fld := ⟨.JOB_CMD, 4, 16, .rw, 0⟩
def JOB_CMD_RESULT : Fld := ⟨.JOB_CMD, 20, 3, .ro, 0⟩
def JOB_SLOT_A_FRAME : Fld := ⟨.JOB_SLOT_A, 0, 32, .ro, 0⟩
def JOB_SLOT_A_HOLD : Fld := ⟨.JOB_SLOT_A, 32, 4, .ro, 0⟩
def JOB_SLOT_A_REPLAY : Fld := ⟨.JOB_SLOT_A, 36, 2, .ro, 0⟩
def JOB_SLOT_A_STATE : Fld := ⟨.JOB_SLOT_A, 38, 3, .ro, 0⟩
def JOB_SLOT_A_JOB : Fld := ⟨.JOB_SLOT_A, 41, 16, .ro, 0⟩
def JOB_SLOT_A_VALID : Fld := ⟨.JOB_SLOT_A, 57, 1, .ro, 0⟩
def JOB_SLOT_B_OVERRUN : Fld := ⟨.JOB_SLOT_B, 0, 7, .ro, 0⟩
def JOB_SLOT_B_EXCHANGE : Fld := ⟨.JOB_SLOT_B, 7, 7, .ro, 0⟩
def JOB_SLOT_B_POWER : Fld := ⟨.JOB_SLOT_B, 14, 7, .ro, 0⟩
def INT_MODE_GOAL : Fld := ⟨.INT_MODE, 0, 1, .rw, 0⟩
def INT_MODE_SWEEP_LOG2 : Fld := ⟨.INT_MODE, 1, 4, .rw, 8⟩
def INT_STATUS_S : Fld := ⟨.INT_STATUS, 0, 17, .ro, 0x10000⟩
def INT_STATUS_K_LOG2 : Fld := ⟨.INT_STATUS, 17, 4, .ro, 0⟩
def INT_STATUS_GOAL : Fld := ⟨.INT_STATUS, 21, 1, .ro, 0⟩
def INT_STATUS_CAPPED : Fld := ⟨.INT_STATUS, 22, 1, .ro, 0⟩
def INT_STATUS_EXCEEDED : Fld := ⟨.INT_STATUS, 23, 1, .ro, 0⟩
def INT_BUDGET_LIMIT : Fld := ⟨.INT_BUDGET, 0, 32, .rw, 0x989680⟩
def INT_SAMPLE_S_MIN : Fld := ⟨.INT_SAMPLE, 0, 17, .rw, 0x400⟩
def INT_SAMPLE_S_MAX : Fld := ⟨.INT_SAMPLE, 32, 17, .rw, 0x10000⟩
def INT_RATE_BASE : Fld := ⟨.INT_RATE, 0, 32, .rw, 0x3e8⟩
def INT_RATE_PESS : Fld := ⟨.INT_RATE, 32, 32, .rw, 0xf4240⟩
def INT_LAMBDA_RATE : Fld := ⟨.INT_LAMBDA, 0, 48, .ro, 0⟩
def INT_LAMBDA_OBS_RATE : Fld := ⟨.INT_LAMBDA_OBS, 0, 48, .ro, 0⟩
def INT_UNDET_RATE : Fld := ⟨.INT_UNDET, 0, 48, .ro, 0⟩
def INT_TEST_DUE_MIN : Fld := ⟨.INT_TEST, 0, 11, .rw, 0xb4⟩
def INT_TEST_DEFER_H : Fld := ⟨.INT_TEST, 11, 8, .rw, 0x18⟩
def INT_TEST_SUSPECT_MIN : Fld := ⟨.INT_TEST, 19, 10, .rw, 0x3c⟩
def INT_LIB_VERSION : Fld := ⟨.INT_LIB, 0, 16, .ro, 0⟩
def INT_LIB_STATE : Fld := ⟨.INT_LIB, 16, 2, .ro, 0⟩
def INT_LIB_DEVICE : Fld := ⟨.INT_LIB, 18, 1, .ro, 0⟩
def INT_SVC_PEND_CAUSE : Fld := ⟨.INT_SVC_PEND, 0, 8, .w1c, 0⟩
def INT_SVC_COND_CAUSE : Fld := ⟨.INT_SVC_COND, 0, 8, .ro, 0⟩
def INT_FLD_TEST_RUNNING : Fld := ⟨.INT_FLD_TEST, 0, 5, .ro, 0⟩
def INT_FLD_TEST_DUE : Fld := ⟨.INT_FLD_TEST, 5, 9, .ro, 0⟩
def INT_FLD_TEST_MARKED : Fld := ⟨.INT_FLD_TEST, 14, 5, .ro, 0⟩
def INT_FLD_TEST_HELD : Fld := ⟨.INT_FLD_TEST, 19, 1, .ro, 0⟩
def INT_FLD_LAST_COLUMN : Fld := ⟨.INT_FLD_LAST, 0, 5, .ro, 0⟩
def INT_FLD_LAST_PROW : Fld := ⟨.INT_FLD_LAST, 5, 4, .ro, 0⟩
def INT_FLD_LAST_PART : Fld := ⟨.INT_FLD_LAST, 9, 3, .ro, 0⟩
def INT_FLD_LAST_VALID : Fld := ⟨.INT_FLD_LAST, 12, 1, .w1c, 0⟩
def INT_FLD_LAST_INPLACE : Fld := ⟨.INT_FLD_LAST, 13, 1, .ro, 0⟩
def INT_FLD_LAST_TIME : Fld := ⟨.INT_FLD_LAST, 16, 48, .ro, 0⟩
def INT_FLD_PASS_COUNT : Fld := ⟨.INT_FLD_PASS, 0, 48, .ro, 0⟩
def INT_FLD_PASS_OVF : Fld := ⟨.INT_FLD_PASS, 48, 1, .w1c, 0⟩
def INT_FLD_FAIL_COUNT : Fld := ⟨.INT_FLD_FAIL, 0, 48, .ro, 0⟩
def INT_FLD_FAIL_OVF : Fld := ⟨.INT_FLD_FAIL, 48, 1, .w1c, 0⟩
def INT_FLD_REC_FAIL_COUNT : Fld := ⟨.INT_FLD_REC_FAIL, 0, 48, .ro, 0⟩
def INT_FLD_REC_FAIL_OVF : Fld := ⟨.INT_FLD_REC_FAIL, 48, 1, .w1c, 0⟩
def INT_FLD_REC_SRC_COUNT : Fld := ⟨.INT_FLD_REC_SRC, 0, 48, .ro, 0⟩
def INT_FLD_REC_SRC_OVF : Fld := ⟨.INT_FLD_REC_SRC, 48, 1, .w1c, 0⟩
def PWR_BUDGET_WATTS : Fld := ⟨.PWR_BUDGET, 0, 16, .rw, 0x4650⟩
def PWR_CONV_ETA : Fld := ⟨.PWR_CONV, 0, 10, .rwl, 0x36e⟩
def PWR_CONV_RESERVE : Fld := ⟨.PWR_CONV, 10, 16, .rwl, 0x3e8⟩
def PWR_IDLE_CORE_MW : Fld := ⟨.PWR_IDLE, 0, 8, .ro, 0x5a⟩
def PWR_IDLE_MODULE : Fld := ⟨.PWR_IDLE, 8, 24, .ro, 0⟩
def PWR_STATUS_FEED_A : Fld := ⟨.PWR_STATUS, 0, 1, .ro, 0⟩
def PWR_STATUS_FEED_B : Fld := ⟨.PWR_STATUS, 1, 1, .ro, 0⟩
def PWR_STATUS_STEP : Fld := ⟨.PWR_STATUS, 2, 2, .ro, 0⟩
def PWR_STATUS_CAUSE : Fld := ⟨.PWR_STATUS, 4, 2, .ro, 0⟩
def PWR_STATUS_B_W : Fld := ⟨.PWR_STATUS, 6, 16, .ro, 0⟩
def PWR_FRAME_T : Fld := ⟨.PWR_FRAME, 0, 24, .ro, 0⟩
def PWR_FRAME_POOL : Fld := ⟨.PWR_FRAME, 24, 24, .ro, 0⟩
def PWR_CLOCK_CEILING : Fld := ⟨.PWR_CLOCK, 0, 2, .rw, 0⟩
def PWR_TEMP_HOT_C : Fld := ⟨.PWR_TEMP, 0, 8, .rw, 0x5f⟩
def PWR_TEMP_COOL_C : Fld := ⟨.PWR_TEMP, 8, 8, .rw, 0x55⟩
def PWR_TEMP_DIE_MAX : Fld := ⟨.PWR_TEMP, 16, 8, .ro, 0⟩
def PWR_AUDIT_COUNT : Fld := ⟨.PWR_AUDIT, 0, 48, .ro, 0⟩
def PWR_AUDIT_OVF : Fld := ⟨.PWR_AUDIT, 48, 1, .w1c, 0⟩
def PWR_FEED_LOSS_COUNT : Fld := ⟨.PWR_FEED_LOSS, 0, 48, .ro, 0⟩
def PWR_FEED_LOSS_OVF : Fld := ⟨.PWR_FEED_LOSS, 48, 1, .w1c, 0⟩
def PWR_THROTTLE_COUNT : Fld := ⟨.PWR_THROTTLE, 0, 48, .ro, 0⟩
def PWR_THROTTLE_OVF : Fld := ⟨.PWR_THROTTLE, 48, 1, .w1c, 0⟩
def PWR_OVERDRAW_COUNT : Fld := ⟨.PWR_OVERDRAW, 0, 48, .ro, 0⟩
def PWR_OVERDRAW_OVF : Fld := ⟨.PWR_OVERDRAW, 48, 1, .w1c, 0⟩
def PWR_SLOT_LIMIT_LIMIT : Fld := ⟨.PWR_SLOT_LIMIT, 0, 24, .rw, 0xffffff⟩
def PWR_SLOT_IDLE_IDLE : Fld := ⟨.PWR_SLOT_IDLE, 0, 24, .ro, 0⟩
def PWR_SLOT_STATE_BUCKET : Fld := ⟨.PWR_SLOT_STATE, 0, 24, .ro, 0⟩
def PWR_SLOT_STATE_DEMAND : Fld := ⟨.PWR_SLOT_STATE, 24, 24, .ro, 0⟩
def CAL_CTRL_APPLY_MODE : Fld := ⟨.CAL_CTRL, 0, 1, .rwl, 0⟩
def CAL_STATUS_MREF_OK : Fld := ⟨.CAL_STATUS, 0, 1, .ro, 0⟩
def CAL_STATUS_UNTRACED : Fld := ⟨.CAL_STATUS, 1, 1, .ro, 0⟩
def CAL_STATUS_PENDING : Fld := ⟨.CAL_STATUS, 2, 1, .ro, 0⟩
def CAL_STATUS_BUSY : Fld := ⟨.CAL_STATUS, 3, 1, .ro, 0⟩
def CAL_MREF_VOLTS : Fld := ⟨.CAL_MREF, 0, 24, .ro, 0⟩
def CAL_MREF_VALID : Fld := ⟨.CAL_MREF, 24, 1, .ro, 0⟩
def CAL_GROUP_STATE : Fld := ⟨.CAL_GROUP, 0, 2, .ro, 0⟩
def CAL_GROUP_CAUSE : Fld := ⟨.CAL_GROUP, 2, 3, .ro, 0⟩
def CAL_GROUP_FAILED : Fld := ⟨.CAL_GROUP, 5, 11, .ro, 0⟩
def CAL_GROUP_SOURCE : Fld := ⟨.CAL_GROUP, 16, 4, .ro, 0⟩
def CAL_CMD_START : Fld := ⟨.CAL_CMD, 0, 1, .wo, 0⟩
def CAL_CMD_BUSY : Fld := ⟨.CAL_CMD, 1, 1, .ro, 0⟩
def CAL_CMD_OP : Fld := ⟨.CAL_CMD, 2, 2, .rw, 0⟩
def CAL_CMD_MASK : Fld := ⟨.CAL_CMD, 4, 4, .rw, 0⟩
def CAL_CMD_KEY : Fld := ⟨.CAL_CMD, 8, 8, .wo, 0⟩
def CAL_CMD_RESULT : Fld := ⟨.CAL_CMD, 16, 3, .ro, 0⟩
def CAL_FUSE_USED : Fld := ⟨.CAL_FUSE, 0, 4, .ro, 0⟩
def CAL_FUSE_NEWEST : Fld := ⟨.CAL_FUSE, 4, 4, .ro, 0⟩
def CAL_FUSE_INVALID : Fld := ⟨.CAL_FUSE, 8, 8, .ro, 0⟩
def CAL_UNTRACED_H_HOURS : Fld := ⟨.CAL_UNTRACED_H, 0, 16, .ro, 0⟩
def CAL_FAIL_CNT_COUNT : Fld := ⟨.CAL_FAIL_CNT, 0, 48, .ro, 0⟩
def CAL_FAIL_CNT_OVF : Fld := ⟨.CAL_FAIL_CNT, 48, 1, .w1c, 0⟩
def CAL_TRIM_VALUE : Fld := ⟨.CAL_TRIM, 0, 20, .ro, 0⟩
def CAL_TRIM_NEW : Fld := ⟨.CAL_TRIM, 20, 1, .ro, 0⟩
def MET_STATUS_STATE : Fld := ⟨.MET_STATUS, 0, 3, .ro, 0⟩
def MET_STATUS_UNTRACED : Fld := ⟨.MET_STATUS, 3, 1, .ro, 0⟩
def MET_STATUS_TAMPER : Fld := ⟨.MET_STATUS, 4, 1, .ro, 0⟩
def MET_STATUS_PENDING : Fld := ⟨.MET_STATUS, 5, 9, .ro, 0⟩
def MET_SWID_SWID : Fld := ⟨.MET_SWID, 0, 64, .ro, 0⟩
def MET_VERSION_FW : Fld := ⟨.MET_VERSION, 0, 16, .ro, 0⟩
def MET_VERSION_SEC_VER : Fld := ⟨.MET_VERSION, 16, 6, .ro, 0⟩
def MET_EVT_CNT_COUNT : Fld := ⟨.MET_EVT_CNT, 0, 32, .ro, 0⟩
def MET_FEED_A_ENERGY : Fld := ⟨.MET_FEED_A, 0, 64, .ro, 0⟩
def MET_FEED_B_ENERGY : Fld := ⟨.MET_FEED_B, 0, 64, .ro, 0⟩
def MET_UNASSIGNED_ENERGY : Fld := ⟨.MET_UNASSIGNED, 0, 64, .ro, 0⟩
def MET_LOG_PTR_OLDEST : Fld := ⟨.MET_LOG_PTR, 0, 64, .ro, 0⟩
def MET_LOG_PTR_NEWEST : Fld := ⟨.MET_LOG_PTR, 64, 64, .ro, 0⟩
def MET_LOG_CURSOR_LSEQ : Fld := ⟨.MET_LOG_CURSOR, 0, 64, .rw, 0⟩
def MET_LOG_GAP_COUNT : Fld := ⟨.MET_LOG_GAP, 0, 48, .ro, 0⟩
def MET_LOG_GAP_OVF : Fld := ⟨.MET_LOG_GAP, 48, 1, .w1c, 0⟩
def MET_REJECT_COUNT : Fld := ⟨.MET_REJECT, 0, 48, .ro, 0⟩
def MET_REJECT_OVF : Fld := ⟨.MET_REJECT, 48, 1, .w1c, 0⟩
def MET_SLOT_E_ENERGY : Fld := ⟨.MET_SLOT_E, 0, 64, .ro, 0⟩
def MET_SLOT_E_SLICE : Fld := ⟨.MET_SLOT_E, 64, 12, .ro, 0⟩
def MET_SLOT_E_ACTIVE : Fld := ⟨.MET_SLOT_E, 76, 1, .ro, 0⟩
def MET_LOG_WIN_ENTRY : Fld := ⟨.MET_LOG_WIN, 0, 1792, .ro, 0⟩
def FWU_STATUS_ACTIVE : Fld := ⟨.FWU_STATUS, 0, 1, .ro, 0⟩
def FWU_STATUS_STATE : Fld := ⟨.FWU_STATUS, 1, 2, .ro, 0⟩
def FWU_STATUS_ATTEMPTS : Fld := ⟨.FWU_STATUS, 3, 2, .ro, 0⟩
def FWU_STATUS_LAST : Fld := ⟨.FWU_STATUS, 5, 3, .ro, 0⟩
def FWU_STATUS_DEVICE : Fld := ⟨.FWU_STATUS, 8, 1, .ro, 0⟩
def FWU_STATUS_FINISHED : Fld := ⟨.FWU_STATUS, 9, 1, .ro, 0⟩
def FWU_SECVER_FUSED : Fld := ⟨.FWU_SECVER, 0, 7, .ro, 0⟩
def FWU_SECVER_IMAGE : Fld := ⟨.FWU_SECVER, 7, 7, .ro, 0⟩
def FWU_SECVER_REVOKED0 : Fld := ⟨.FWU_SECVER, 14, 1, .ro, 0⟩
def FWU_VERSION_RUN : Fld := ⟨.FWU_VERSION, 0, 32, .ro, 0⟩
def FWU_VERSION_OTHER : Fld := ⟨.FWU_VERSION, 32, 32, .ro, 0⟩
def FWU_SETTINGS_VERSION : Fld := ⟨.FWU_SETTINGS, 0, 16, .ro, 0⟩
def FWU_SETTINGS_COPY : Fld := ⟨.FWU_SETTINGS, 16, 1, .ro, 0⟩
def FWU_SETTINGS_DEFAULTS : Fld := ⟨.FWU_SETTINGS, 17, 1, .ro, 0⟩
def FWU_CFG_AUTO : Fld := ⟨.FWU_CFG, 0, 1, .rw, 1⟩
def FWU_CFG_TRIAL_S : Fld := ⟨.FWU_CFG, 1, 16, .rw, 0x384⟩
def FWU_CMD_START : Fld := ⟨.FWU_CMD, 0, 1, .wo, 0⟩
def FWU_CMD_BUSY : Fld := ⟨.FWU_CMD, 1, 1, .ro, 0⟩
def FWU_CMD_OP : Fld := ⟨.FWU_CMD, 2, 3, .rw, 0⟩
def FWU_CMD_RESULT : Fld := ⟨.FWU_CMD, 5, 4, .ro, 0⟩
def FWU_CMD_PHASE : Fld := ⟨.FWU_CMD, 9, 3, .ro, 0⟩
def FWU_IMG_OFFSET : Fld := ⟨.FWU_IMG, 0, 40, .rw, 0⟩
def FWU_IMG_LEN : Fld := ⟨.FWU_IMG, 40, 21, .rw, 0⟩
def FWU_BUF_DATA : Fld := ⟨.FWU_BUF, 0, 8388608, .rw, 0⟩
def FWU_ATT_NONCE_NONCE : Fld := ⟨.FWU_ATT_NONCE, 0, 256, .rw, 0⟩
def FWU_ATT_CMD_START : Fld := ⟨.FWU_ATT_CMD, 0, 1, .wo, 0⟩
def FWU_ATT_CMD_BUSY : Fld := ⟨.FWU_ATT_CMD, 1, 1, .ro, 0⟩
def FWU_ATT_WIN_DATA : Fld := ⟨.FWU_ATT_WIN, 0, 8704, .ro, 0⟩
def FWU_MET_CERT_DATA : Fld := ⟨.FWU_MET_CERT, 0, 2048, .ro, 0⟩
def FWU_REVERTS_COUNT : Fld := ⟨.FWU_REVERTS, 0, 48, .ro, 0⟩
def FWU_REVERTS_OVF : Fld := ⟨.FWU_REVERTS, 48, 1, .w1c, 0⟩
def FWU_FLASH_ERR_COUNT : Fld := ⟨.FWU_FLASH_ERR, 0, 48, .ro, 0⟩
def FWU_FLASH_ERR_OVF : Fld := ⟨.FWU_FLASH_ERR, 48, 1, .w1c, 0⟩
def EVR_NEXT_SEQ : Fld := ⟨.EVR_NEXT, 0, 64, .ro, 0⟩
def EVR_OLDEST_SEQ : Fld := ⟨.EVR_OLDEST, 0, 64, .ro, 0⟩
def EVR_PERM_FIRST_SEQ : Fld := ⟨.EVR_PERM_FIRST, 0, 64, .ro, 0⟩
def EVR_PERM_CNT_COUNT : Fld := ⟨.EVR_PERM_CNT, 0, 11, .ro, 0⟩
def EVR_CURSOR_SEQ : Fld := ⟨.EVR_CURSOR, 0, 64, .rw, 0⟩
def EVR_WIN_INFO_PRESENT : Fld := ⟨.EVR_WIN_INFO, 0, 8, .ro, 0⟩
def EVR_WIN_INFO_GONE : Fld := ⟨.EVR_WIN_INFO, 8, 8, .ro, 0⟩
def EVR_WIN_INFO_AHEAD : Fld := ⟨.EVR_WIN_INFO, 16, 8, .ro, 0⟩
def EVR_RATE_LIMIT : Fld := ⟨.EVR_RATE, 0, 16, .rw, 0x100⟩
def EVR_RATE_NOTE_LIMIT : Fld := ⟨.EVR_RATE, 16, 8, .rw, 0x10⟩
def EVR_CLEAR_START : Fld := ⟨.EVR_CLEAR, 0, 1, .wo, 0⟩
def EVR_CLEAR_KEY : Fld := ⟨.EVR_CLEAR, 8, 8, .wo, 0⟩
def EVR_CLEAR_RESULT : Fld := ⟨.EVR_CLEAR, 16, 2, .ro, 0⟩
def EVR_NOTE_DATA_DATA : Fld := ⟨.EVR_NOTE_DATA, 0, 64, .rw, 0⟩
def EVR_NOTE_CMD_CODE : Fld := ⟨.EVR_NOTE_CMD, 0, 12, .rw, 0⟩
def EVR_NOTE_CMD_START : Fld := ⟨.EVR_NOTE_CMD, 12, 1, .wo, 0⟩
def EVR_NOTE_CMD_RESULT : Fld := ⟨.EVR_NOTE_CMD, 13, 2, .ro, 0⟩
def EVR_SUPPR_CNT_COUNT : Fld := ⟨.EVR_SUPPR_CNT, 0, 48, .ro, 0⟩
def EVR_SUPPR_CNT_OVF : Fld := ⟨.EVR_SUPPR_CNT, 48, 1, .w1c, 0⟩
def EVR_NOTE_REFUSED_COUNT : Fld := ⟨.EVR_NOTE_REFUSED, 0, 48, .ro, 0⟩
def EVR_NOTE_REFUSED_OVF : Fld := ⟨.EVR_NOTE_REFUSED, 48, 1, .w1c, 0⟩
def EVR_AUDIT_COUNT : Fld := ⟨.EVR_AUDIT, 0, 48, .ro, 0⟩
def EVR_AUDIT_OVF : Fld := ⟨.EVR_AUDIT, 48, 1, .w1c, 0⟩
def EVR_WIN_RECORDS : Fld := ⟨.EVR_WIN, 0, 2048, .ro, 0⟩
def MGT_STATUS_ETH_UP : Fld := ⟨.MGT_STATUS, 0, 1, .ro, 0⟩
def MGT_STATUS_I3C_DA : Fld := ⟨.MGT_STATUS, 1, 7, .ro, 0⟩
def MGT_STATUS_LOCKED : Fld := ⟨.MGT_STATUS, 8, 1, .ro, 0⟩
def MGT_LOCK_SET : Fld := ⟨.MGT_LOCK, 0, 1, .wo, 0⟩
def MGT_LOCK_KEY : Fld := ⟨.MGT_LOCK, 8, 8, .wo, 0⟩
def MGT_CFG_AUTOLOCK_S : Fld := ⟨.MGT_CFG, 0, 16, .rwl, 0x12c⟩
def MGT_NET_IPV4 : Fld := ⟨.MGT_NET, 0, 32, .rwl, 0⟩
def MGT_NET_V4_EN : Fld := ⟨.MGT_NET, 32, 1, .rwl, 0⟩
def MGT_NET_V6_EN : Fld := ⟨.MGT_NET, 33, 1, .rwl, 0⟩
def MGT_NET_PORT : Fld := ⟨.MGT_NET, 34, 16, .rwl, 0x1400⟩
def MGT_NET_IPV6 : Fld := ⟨.MGT_NET, 64, 128, .rwl, 0⟩
def MGT_KEY_KEY : Fld := ⟨.MGT_KEY, 0, 256, .rwl, 0⟩
def MGT_LINE_ADDR_LINE : Fld := ⟨.MGT_LINE_ADDR, 6, 44, .rw, 0⟩
def MGT_LINE_CMD_START : Fld := ⟨.MGT_LINE_CMD, 0, 1, .wo, 0⟩
def MGT_LINE_CMD_BUSY : Fld := ⟨.MGT_LINE_CMD, 1, 1, .ro, 0⟩
def MGT_LINE_CMD_RESULT : Fld := ⟨.MGT_LINE_CMD, 2, 2, .ro, 0⟩
def MGT_LINE_DATA_DATA : Fld := ⟨.MGT_LINE_DATA, 0, 512, .ro, 0⟩
def MGT_BADTAG_COUNT : Fld := ⟨.MGT_BADTAG, 0, 48, .ro, 0⟩
def MGT_BADTAG_OVF : Fld := ⟨.MGT_BADTAG, 48, 1, .w1c, 0⟩
def MGT_STALE_COUNT : Fld := ⟨.MGT_STALE, 0, 48, .ro, 0⟩
def MGT_STALE_OVF : Fld := ⟨.MGT_STALE, 48, 1, .w1c, 0⟩
def MGT_DROP_COUNT : Fld := ⟨.MGT_DROP, 0, 48, .ro, 0⟩
def MGT_DROP_OVF : Fld := ⟨.MGT_DROP, 48, 1, .w1c, 0⟩
end F

/-- The fields of a register, lowest first; every other bit is reserved and reads as zero (R7). -/
def Reg.fields : Reg → List Fld
  | .SEQ_SLOT_CFG => [F.SEQ_SLOT_CFG_SLICE_ID, F.SEQ_SLOT_CFG_ACTIVE]
  | .SEQ_NEXT => [F.SEQ_NEXT_INDEX, F.SEQ_NEXT_VALID]
  | .SEQ_FRAME => [F.SEQ_FRAME_FRAME]
  | .SEQ_STATUS => [F.SEQ_STATUS_HOLD, F.SEQ_STATUS_REPLAY, F.SEQ_STATUS_INDEX, F.SEQ_STATUS_RUNNING, F.SEQ_STATUS_FAULTED, F.SEQ_STATUS_PROGRAM]
  | .SEQ_SET_BASE => [F.SEQ_SET_BASE_BASE]
  | .SEQ_LIVE => [F.SEQ_LIVE_LIVE]
  | .SEQ_FAULT => [F.SEQ_FAULT_CLASS, F.SEQ_FAULT_FIELD, F.SEQ_FAULT_CORE, F.SEQ_FAULT_STEP, F.SEQ_FAULT_REPLAY, F.SEQ_FAULT_COUNT]
  | .SEQ_FAULT_ADDR => [F.SEQ_FAULT_ADDR_ADDR]
  | .SEQ_FLD_LOAD => [F.SEQ_FLD_LOAD_START, F.SEQ_FLD_LOAD_BUSY, F.SEQ_FLD_LOAD_ERROR, F.SEQ_FLD_LOAD_SLOT, F.SEQ_FLD_LOAD_CORE]
  | .SEQ_FLD_XDROP => [F.SEQ_FLD_XDROP_COUNT, F.SEQ_FLD_XDROP_OVF]
  | .SEQ_FLD_XSUPER => [F.SEQ_FLD_XSUPER_COUNT, F.SEQ_FLD_XSUPER_OVF]
  | .SEQ_FLD_ECC => [F.SEQ_FLD_ECC_COUNT, F.SEQ_FLD_ECC_OVF]
  | .TEN_FLD_CTRL => [F.TEN_FLD_CTRL_SR_FIXED, F.TEN_FLD_CTRL_INJ_EN]
  | .TEN_FLD_SR_SEED => [F.TEN_FLD_SR_SEED_SEED]
  | .TEN_FLD_INJECT => [F.TEN_FLD_INJECT_CORE, F.TEN_FLD_INJECT_KIND, F.TEN_FLD_INJECT_ARM]
  | .TEN_FLD_LAST => [F.TEN_FLD_LAST_CORE, F.TEN_FLD_LAST_STEP, F.TEN_FLD_LAST_COLUMN, F.TEN_FLD_LAST_KIND, F.TEN_FLD_LAST_VALID, F.TEN_FLD_LAST_FRAME]
  | .TEN_FLD_MMA_MISS => [F.TEN_FLD_MMA_MISS_COUNT, F.TEN_FLD_MMA_MISS_OVF]
  | .TEN_FLD_VEC_MISS => [F.TEN_FLD_VEC_MISS_COUNT, F.TEN_FLD_VEC_MISS_OVF]
  | .TEN_FLD_NONFINITE => [F.TEN_FLD_NONFINITE_COUNT, F.TEN_FLD_NONFINITE_OVF]
  | .TEN_FLD_ACC_ECC => [F.TEN_FLD_ACC_ECC_COUNT, F.TEN_FLD_ACC_ECC_OVF]
  | .SRM_FLD_CTRL => [F.SRM_FLD_CTRL_SCRUB_EN, F.SRM_FLD_CTRL_SCRUB_HOURS]
  | .SRM_FLD_CLEAR => [F.SRM_FLD_CLEAR_START, F.SRM_FLD_CLEAR_BUSY]
  | .SRM_FLD_ERR => [F.SRM_FLD_ERR_WINDOW, F.SRM_FLD_ERR_LINE, F.SRM_FLD_ERR_KIND, F.SRM_FLD_ERR_VALID, F.SRM_FLD_ERR_FRAME]
  | .SRM_FLD_CE => [F.SRM_FLD_CE_COUNT, F.SRM_FLD_CE_OVF]
  | .SRM_FLD_UE => [F.SRM_FLD_UE_COUNT, F.SRM_FLD_UE_OVF]
  | .LPD_DEV_STATUS => [F.LPD_DEV_STATUS_TRAINED, F.LPD_DEV_STATUS_FAILED]
  | .LPD_DEV_CE => [F.LPD_DEV_CE_COUNT, F.LPD_DEV_CE_OVF]
  | .LPD_DEV_UE => [F.LPD_DEV_UE_COUNT, F.LPD_DEV_UE_OVF]
  | .LPD_DEV_ERR => [F.LPD_DEV_ERR_LINE, F.LPD_DEV_ERR_VALID, F.LPD_DEV_ERR_KIND]
  | .LPD_SCRUB => [F.LPD_SCRUB_EN, F.LPD_SCRUB_HOURS]
  | .LPD_QUOTA => [F.LPD_QUOTA_SLICE_ID, F.LPD_QUOTA_ACTIVE, F.LPD_QUOTA_LIMIT, F.LPD_QUOTA_HELD]
  | .LPD_ALLOC => [F.LPD_ALLOC_START, F.LPD_ALLOC_OP, F.LPD_ALLOC_BUSY, F.LPD_ALLOC_RESULT, F.LPD_ALLOC_SLICE_ID, F.LPD_ALLOC_FRAME]
  | .MMU_SLOT_ROOT => [F.MMU_SLOT_ROOT_ROOT]
  | .MMU_SLOT_INVAL => [F.MMU_SLOT_INVAL_START, F.MMU_SLOT_INVAL_BUSY, F.MMU_SLOT_INVAL_ALL, F.MMU_SLOT_INVAL_VA]
  | .MMU_FLD_FAULT => [F.MMU_FLD_FAULT_CODE, F.MMU_FLD_FAULT_VALID, F.MMU_FLD_FAULT_WRITE, F.MMU_FLD_FAULT_MOVER, F.MMU_FLD_FAULT_SLICE, F.MMU_FLD_FAULT_SOURCE, F.MMU_FLD_FAULT_FRAME]
  | .MMU_FLD_FAULT_VA => [F.MMU_FLD_FAULT_VA_VA]
  | .MMU_FLD_MISS => [F.MMU_FLD_MISS_COUNT, F.MMU_FLD_MISS_OVF]
  | .MMU_FLD_LATE => [F.MMU_FLD_LATE_COUNT, F.MMU_FLD_LATE_OVF]
  | .MMU_FLD_FAULTS => [F.MMU_FLD_FAULTS_COUNT, F.MMU_FLD_FAULTS_OVF]
  | .MMU_TIMEOUT => [F.MMU_TIMEOUT_LIMIT]
  | .MOV_MV_STATUS => [F.MOV_MV_STATUS_STATE, F.MOV_MV_STATUS_CODE, F.MOV_MV_STATUS_DEPTH, F.MOV_MV_STATUS_SEGMENT]
  | .MOV_MV_DONE => [F.MOV_MV_DONE_COUNT]
  | .MOV_MV_HEAD => [F.MOV_MV_HEAD_DESC]
  | .MOV_FLD_STAGE => [F.MOV_FLD_STAGE_DESC]
  | .MOV_FLD_CMD => [F.MOV_FLD_CMD_START, F.MOV_FLD_CMD_BUSY, F.MOV_FLD_CMD_OP, F.MOV_FLD_CMD_MOVER, F.MOV_FLD_CMD_RESULT, F.MOV_FLD_CMD_ID]
  | .MOV_FLD_CRING_BASE => [F.MOV_FLD_CRING_BASE_BASE]
  | .MOV_FLD_CRING_PTR => [F.MOV_FLD_CRING_PTR_HEAD, F.MOV_FLD_CRING_PTR_TAIL]
  | .MOV_FLD_BYTES => [F.MOV_FLD_BYTES_COUNT, F.MOV_FLD_BYTES_OVF]
  | .MOV_FLD_LATE => [F.MOV_FLD_LATE_COUNT, F.MOV_FLD_LATE_OVF]
  | .MOV_FLD_AUDIT => [F.MOV_FLD_AUDIT_COUNT, F.MOV_FLD_AUDIT_OVF]
  | .MOV_FLD_REJECT => [F.MOV_FLD_REJECT_COUNT, F.MOV_FLD_REJECT_OVF]
  | .MSH_ROT => [F.MSH_ROT_INTERVAL]
  | .MSH_MOD_REPAIR => [F.MSH_MOD_REPAIR_NOSPARE, F.MSH_MOD_REPAIR_RETIRED, F.MSH_MOD_REPAIR_FENCED, F.MSH_MOD_REPAIR_LINKS]
  | .MSH_MOD_SHIP => [F.MSH_MOD_SHIP_NOSPARE]
  | .MSH_FLD_STATE => [F.MSH_FLD_STATE_STATE, F.MSH_FLD_STATE_CAUSE, F.MSH_FLD_STATE_NOSPARE]
  | .MSH_FLD_CMD => [F.MSH_FLD_CMD_START, F.MSH_FLD_CMD_BUSY, F.MSH_FLD_CMD_OP, F.MSH_FLD_CMD_COLUMN, F.MSH_FLD_CMD_PROW, F.MSH_FLD_CMD_RESULT]
  | .MSH_FLD_STALE => [F.MSH_FLD_STALE_COUNT, F.MSH_FLD_STALE_OVF]
  | .MSH_FLD_FLIT_ERR => [F.MSH_FLD_FLIT_ERR_COUNT, F.MSH_FLD_FLIT_ERR_OVF]
  | .MSH_COL_MAP => [F.MSH_COL_MAP_SPARE, F.MSH_COL_MAP_BASE, F.MSH_COL_MAP_FENCE, F.MSH_COL_MAP_NOSPARE, F.MSH_COL_MAP_STEPPING]
  | .LNK_VERSION => [F.LNK_VERSION_OWN, F.LNK_VERSION_LOW, F.LNK_VERSION_HIGH]
  | .LNK_LINK_CFG => [F.LNK_LINK_CFG_ENABLE, F.LNK_LINK_CFG_GROUPS, F.LNK_LINK_CFG_RETRAIN, F.LNK_LINK_CFG_CLEAR]
  | .LNK_LINK_STATUS => [F.LNK_LINK_STATUS_STATE, F.LNK_LINK_STATUS_LANES, F.LNK_LINK_STATUS_RUN_VER, F.LNK_LINK_STATUS_SWAPPED, F.LNK_LINK_STATUS_PEER, F.LNK_LINK_STATUS_PEER_PORT]
  | .LNK_LINK_DELAY => [F.LNK_LINK_DELAY_PROP]
  | .LNK_LINK_CAUSE => [F.LNK_LINK_CAUSE_LAST, F.LNK_LINK_CAUSE_IDCHK]
  | .LNK_LINK_RETX => [F.LNK_LINK_RETX_COUNT, F.LNK_LINK_RETX_OVF]
  | .LNK_LINK_RETRAIN => [F.LNK_LINK_RETRAIN_COUNT, F.LNK_LINK_RETRAIN_OVF]
  | .LNK_LINK_AUDIT => [F.LNK_LINK_AUDIT_COUNT, F.LNK_LINK_AUDIT_OVF]
  | .LNK_LINK_PDROP => [F.LNK_LINK_PDROP_COUNT, F.LNK_LINK_PDROP_OVF]
  | .LNK_LINK_SWAP => [F.LNK_LINK_SWAP_COUNT, F.LNK_LINK_SWAP_OVF]
  | .LNK_LANE_STATUS => [F.LNK_LANE_STATUS_STATE, F.LNK_LANE_STATUS_DEGRADED, F.LNK_LANE_STATUS_PEER_PAIR, F.LNK_LANE_STATUS_PEER_FACE, F.LNK_LANE_STATUS_RESTARTS]
  | .LNK_LANE_FEC_CORR => [F.LNK_LANE_FEC_CORR_COUNT, F.LNK_LANE_FEC_CORR_OVF]
  | .LNK_LANE_FEC_UNC => [F.LNK_LANE_FEC_UNC_COUNT, F.LNK_LANE_FEC_UNC_OVF]
  | .DCK_CTRL => [F.DCK_CTRL_PARK, F.DCK_CTRL_RESET_KEY]
  | .DCK_STATUS => [F.DCK_STATUS_STATE, F.DCK_STATUS_PATHS, F.DCK_STATUS_DETACHED, F.DCK_STATUS_HOLDUP, F.DCK_STATUS_SERVO_FAULT]
  | .DCK_CMD_CTRL => [F.DCK_CMD_CTRL_START, F.DCK_CMD_CTRL_BUSY, F.DCK_CMD_CTRL_COUNT, F.DCK_CMD_CTRL_RESULT, F.DCK_CMD_CTRL_ENTRY, F.DCK_CMD_CTRL_DRAINED]
  | .DCK_CMD_TIME => [F.DCK_CMD_TIME_TICK]
  | .DCK_FW => [F.DCK_FW_RUN, F.DCK_FW_STAGED]
  | .DCK_SWAP_CNT => [F.DCK_SWAP_CNT_COUNT, F.DCK_SWAP_CNT_OVF]
  | .DCK_LOSSY_CNT => [F.DCK_LOSSY_CNT_COUNT, F.DCK_LOSSY_CNT_OVF]
  | .DCK_REJECT_CNT => [F.DCK_REJECT_CNT_COUNT, F.DCK_REJECT_CNT_OVF]
  | .DCK_FACE_PLAN => [F.DCK_FACE_PLAN_PEER, F.DCK_FACE_PLAN_PEER_FACE, F.DCK_FACE_PLAN_VALID]
  | .DCK_CMD_BUF => [F.DCK_CMD_BUF_ENTRY]
  | .DCK_PATH => [F.DCK_PATH_INPUT, F.DCK_PATH_TYPE, F.DCK_PATH_STATE, F.DCK_PATH_LOSSY, F.DCK_PATH_LIGHT]
  | .DCK_TAP_IN => [F.DCK_TAP_IN_POWER, F.DCK_TAP_IN_PRESENT]
  | .DCK_TAP_OUT => [F.DCK_TAP_OUT_POWER, F.DCK_TAP_OUT_PRESENT]
  | .DCK_FACE_MAP => [F.DCK_FACE_MAP_PHYS, F.DCK_FACE_MAP_CORRECTED]
  | .SRV_STATUS => [F.SRV_STATUS_SET, F.SRV_STATUS_READY, F.SRV_STATUS_SUPPLY, F.SRV_STATUS_ENGINE, F.SRV_STATUS_FAULTED]
  | .SRV_CFG => [F.SRV_CFG_SETTLE_WIN, F.SRV_CFG_LOST_WIN, F.SRV_CFG_DWELL_US]
  | .SRV_HV => [F.SRV_HV_VOLTS]
  | .SRV_AXIS => [F.SRV_AXIS_ANGLE, F.SRV_AXIS_TARGET, F.SRV_AXIS_STATE, F.SRV_AXIS_FAULT, F.SRV_AXIS_CLEAR, F.SRV_AXIS_CLIPPED]
  | .SRV_SAT_CNT => [F.SRV_SAT_CNT_COUNT, F.SRV_SAT_CNT_OVF]
  | .SRV_LOST_CNT => [F.SRV_LOST_CNT_COUNT, F.SRV_LOST_CNT_OVF]
  | .SRV_ENG_MISS => [F.SRV_ENG_MISS_COUNT, F.SRV_ENG_MISS_OVF]
  | .SRV_FAULT_CNT => [F.SRV_FAULT_CNT_COUNT, F.SRV_FAULT_CNT_OVF]
  | .RTE_MACHINE => [F.RTE_MACHINE_DIM_X, F.RTE_MACHINE_DIM_Y, F.RTE_MACHINE_DIM_Z]
  | .RTE_COORD => [F.RTE_COORD_X, F.RTE_COORD_Y, F.RTE_COORD_Z, F.RTE_COORD_VALID, F.RTE_COORD_STRAPPED, F.RTE_COORD_ID]
  | .RTE_LINK => [F.RTE_LINK_STATE]
  | .RTE_SLICE => [F.RTE_SLICE_SLICE_ID, F.RTE_SLICE_ACTIVE, F.RTE_SLICE_ROLE, F.RTE_SLICE_SLOT, F.RTE_SLICE_EPOCH, F.RTE_SLICE_SHARE, F.RTE_SLICE_HOME, F.RTE_SLICE_ARMED, F.RTE_SLICE_CRESULT]
  | .RTE_SLICE_BOX => [F.RTE_SLICE_BOX_ORIGIN, F.RTE_SLICE_BOX_EXTENT, F.RTE_SLICE_BOX_WRAP]
  | .RTE_SLICE_HOP => [F.RTE_SLICE_HOP_HOP]
  | .RTE_SLICE_COMMIT => [F.RTE_SLICE_COMMIT_TICK]
  | .RTE_SLICE_SUBST => [F.RTE_SLICE_SUBST_LOGICAL, F.RTE_SLICE_SUBST_PHYSICAL, F.RTE_SLICE_SUBST_VALID]
  | .RTE_SLICE_PEER => [F.RTE_SLICE_PEER_MODULE, F.RTE_SLICE_PEER_VIA, F.RTE_SLICE_PEER_LINK, F.RTE_SLICE_PEER_GATEWAY, F.RTE_SLICE_PEER_VALID]
  | .RTE_FLD_OWNER => [F.RTE_FLD_OWNER_SLICE_ID, F.RTE_FLD_OWNER_VALID]
  | .RTE_TRANSIT_DROP => [F.RTE_TRANSIT_DROP_COUNT, F.RTE_TRANSIT_DROP_OVF]
  | .RTE_FILTER_DROP => [F.RTE_FILTER_DROP_COUNT, F.RTE_FILTER_DROP_OVF]
  | .RTE_NOSLICE_DROP => [F.RTE_NOSLICE_DROP_COUNT, F.RTE_NOSLICE_DROP_OVF]
  | .RTE_NOROUTE => [F.RTE_NOROUTE_COUNT, F.RTE_NOROUTE_OVF]
  | .FTK_PERIOD => [F.FTK_PERIOD_PERIOD]
  | .FTK_NEXT => [F.FTK_NEXT_PERIOD, F.FTK_NEXT_ARM, F.FTK_NEXT_CANCEL, F.FTK_NEXT_PENDING, F.FTK_NEXT_RESULT]
  | .FTK_CHANGE_AT => [F.FTK_CHANGE_AT_VALUE]
  | .FTK_ANCHOR => [F.FTK_ANCHOR_VALUE]
  | .FTK_TICKS => [F.FTK_TICKS_VALUE]
  | .FTK_LAST => [F.FTK_LAST_VALUE]
  | .TIM_NOW => [F.TIM_NOW_TIME]
  | .TIM_CTRL => [F.TIM_CTRL_SOURCE, F.TIM_CTRL_MASTER]
  | .TIM_STATUS => [F.TIM_STATUS_STATE, F.TIM_STATUS_REFCLK, F.TIM_STATUS_DEPTH, F.TIM_STATUS_PARENT, F.TIM_STATUS_PARENT_VALID]
  | .TIM_OFFSET => [F.TIM_OFFSET_OFFSET]
  | .TIM_RATE => [F.TIM_RATE_RATE]
  | .TIM_HRN_CFG => [F.TIM_HRN_CFG_DELAY]
  | .TIM_HRN_TIME => [F.TIM_HRN_TIME_VALUE]
  | .TIM_HRN_TICK => [F.TIM_HRN_TICK_VALUE]
  | .TIM_HRN_ARM => [F.TIM_HRN_ARM_ARM, F.TIM_HRN_ARM_ARMED, F.TIM_HRN_ARM_BAD]
  | .TIM_PTP_CTRL => [F.TIM_PTP_CTRL_EN0, F.TIM_PTP_CTRL_EN1]
  | .TIM_TSQ_TIME => [F.TIM_TSQ_TIME_TIME]
  | .TIM_TSQ_INFO => [F.TIM_TSQ_INFO_ID, F.TIM_TSQ_INFO_SOURCE, F.TIM_TSQ_INFO_VALID, F.TIM_TSQ_INFO_DEPTH]
  | .TIM_TSQ_POP => [F.TIM_TSQ_POP_POP]
  | .TIM_TSQ_DROP => [F.TIM_TSQ_DROP_COUNT, F.TIM_TSQ_DROP_OVF]
  | .TIM_SYNC_LOSS => [F.TIM_SYNC_LOSS_COUNT, F.TIM_SYNC_LOSS_OVF]
  | .TIM_TICKIN_ERR => [F.TIM_TICKIN_ERR_COUNT, F.TIM_TICKIN_ERR_OVF]
  | .TIM_STEPS => [F.TIM_STEPS_COUNT, F.TIM_STEPS_OVF]
  | .FEI_PORT_STATUS => [F.FEI_PORT_STATUS_UP, F.FEI_PORT_STATUS_LANES]
  | .FEI_PORT_ADDR => [F.FEI_PORT_ADDR_MAC]
  | .FEI_PORT_IP => [F.FEI_PORT_IP_IPV4, F.FEI_PORT_IP_V4_EN, F.FEI_PORT_IP_V6_EN, F.FEI_PORT_IP_IPV6]
  | .FEI_PORT_DROP => [F.FEI_PORT_DROP_COUNT, F.FEI_PORT_DROP_OVF]
  | .FEI_PORT_REFUSED => [F.FEI_PORT_REFUSED_COUNT, F.FEI_PORT_REFUSED_OVF]
  | .FEI_CONN_CFG => [F.FEI_CONN_CFG_PORT, F.FEI_CONN_CFG_IPV6, F.FEI_CONN_CFG_MTU, F.FEI_CONN_CFG_NOTIFY, F.FEI_CONN_CFG_RETRY, F.FEI_CONN_CFG_TIMEOUT, F.FEI_CONN_CFG_STATE, F.FEI_CONN_CFG_REMOTE_QPN, F.FEI_CONN_CFG_LOCAL_QPN]
  | .FEI_CONN_PSN => [F.FEI_CONN_PSN_SQ_PSN, F.FEI_CONN_PSN_RQ_PSN]
  | .FEI_CONN_PEER => [F.FEI_CONN_PEER_ADDR]
  | .FEI_CONN_DMAC => [F.FEI_CONN_DMAC_MAC]
  | .FEI_CONN_SQ => [F.FEI_CONN_SQ_ADDR, F.FEI_CONN_SQ_RKEY, F.FEI_CONN_SQ_LOG2N]
  | .FEI_CONN_CQ => [F.FEI_CONN_CQ_ADDR, F.FEI_CONN_CQ_RKEY, F.FEI_CONN_CQ_LOG2N]
  | .FEI_CONN_IDX => [F.FEI_CONN_IDX_SQ_PROD, F.FEI_CONN_IDX_SQ_CONS, F.FEI_CONN_IDX_CQ_PROD, F.FEI_CONN_IDX_CQ_CONS]
  | .FEI_CONN_CMD => [F.FEI_CONN_CMD_START, F.FEI_CONN_CMD_BUSY, F.FEI_CONN_CMD_OP, F.FEI_CONN_CMD_RESULT]
  | .FEI_CONN_RETX => [F.FEI_CONN_RETX_COUNT, F.FEI_CONN_RETX_OVF]
  | .FEI_CONN_BADDB => [F.FEI_CONN_BADDB_COUNT, F.FEI_CONN_BADDB_OVF]
  | .JOB_CFG => [F.JOB_CFG_LINGER_S, F.JOB_CFG_MIN_RUN_MS]
  | .JOB_COUNT => [F.JOB_COUNT_JOBS, F.JOB_COUNT_QUEUED]
  | .JOB_CMD => [F.JOB_CMD_START, F.JOB_CMD_BUSY, F.JOB_CMD_OP, F.JOB_CMD_JOB, F.JOB_CMD_RESULT]
  | .JOB_SLOT_A => [F.JOB_SLOT_A_FRAME, F.JOB_SLOT_A_HOLD, F.JOB_SLOT_A_REPLAY, F.JOB_SLOT_A_STATE, F.JOB_SLOT_A_JOB, F.JOB_SLOT_A_VALID]
  | .JOB_SLOT_B => [F.JOB_SLOT_B_OVERRUN, F.JOB_SLOT_B_EXCHANGE, F.JOB_SLOT_B_POWER]
  | .INT_MODE => [F.INT_MODE_GOAL, F.INT_MODE_SWEEP_LOG2]
  | .INT_STATUS => [F.INT_STATUS_S, F.INT_STATUS_K_LOG2, F.INT_STATUS_GOAL, F.INT_STATUS_CAPPED, F.INT_STATUS_EXCEEDED]
  | .INT_BUDGET => [F.INT_BUDGET_LIMIT]
  | .INT_SAMPLE => [F.INT_SAMPLE_S_MIN, F.INT_SAMPLE_S_MAX]
  | .INT_RATE => [F.INT_RATE_BASE, F.INT_RATE_PESS]
  | .INT_LAMBDA => [F.INT_LAMBDA_RATE]
  | .INT_LAMBDA_OBS => [F.INT_LAMBDA_OBS_RATE]
  | .INT_UNDET => [F.INT_UNDET_RATE]
  | .INT_TEST => [F.INT_TEST_DUE_MIN, F.INT_TEST_DEFER_H, F.INT_TEST_SUSPECT_MIN]
  | .INT_LIB => [F.INT_LIB_VERSION, F.INT_LIB_STATE, F.INT_LIB_DEVICE]
  | .INT_SVC_PEND => [F.INT_SVC_PEND_CAUSE]
  | .INT_SVC_COND => [F.INT_SVC_COND_CAUSE]
  | .INT_FLD_TEST => [F.INT_FLD_TEST_RUNNING, F.INT_FLD_TEST_DUE, F.INT_FLD_TEST_MARKED, F.INT_FLD_TEST_HELD]
  | .INT_FLD_LAST => [F.INT_FLD_LAST_COLUMN, F.INT_FLD_LAST_PROW, F.INT_FLD_LAST_PART, F.INT_FLD_LAST_VALID, F.INT_FLD_LAST_INPLACE, F.INT_FLD_LAST_TIME]
  | .INT_FLD_PASS => [F.INT_FLD_PASS_COUNT, F.INT_FLD_PASS_OVF]
  | .INT_FLD_FAIL => [F.INT_FLD_FAIL_COUNT, F.INT_FLD_FAIL_OVF]
  | .INT_FLD_REC_FAIL => [F.INT_FLD_REC_FAIL_COUNT, F.INT_FLD_REC_FAIL_OVF]
  | .INT_FLD_REC_SRC => [F.INT_FLD_REC_SRC_COUNT, F.INT_FLD_REC_SRC_OVF]
  | .PWR_BUDGET => [F.PWR_BUDGET_WATTS]
  | .PWR_CONV => [F.PWR_CONV_ETA, F.PWR_CONV_RESERVE]
  | .PWR_IDLE => [F.PWR_IDLE_CORE_MW, F.PWR_IDLE_MODULE]
  | .PWR_STATUS => [F.PWR_STATUS_FEED_A, F.PWR_STATUS_FEED_B, F.PWR_STATUS_STEP, F.PWR_STATUS_CAUSE, F.PWR_STATUS_B_W]
  | .PWR_FRAME => [F.PWR_FRAME_T, F.PWR_FRAME_POOL]
  | .PWR_CLOCK => [F.PWR_CLOCK_CEILING]
  | .PWR_TEMP => [F.PWR_TEMP_HOT_C, F.PWR_TEMP_COOL_C, F.PWR_TEMP_DIE_MAX]
  | .PWR_AUDIT => [F.PWR_AUDIT_COUNT, F.PWR_AUDIT_OVF]
  | .PWR_FEED_LOSS => [F.PWR_FEED_LOSS_COUNT, F.PWR_FEED_LOSS_OVF]
  | .PWR_THROTTLE => [F.PWR_THROTTLE_COUNT, F.PWR_THROTTLE_OVF]
  | .PWR_OVERDRAW => [F.PWR_OVERDRAW_COUNT, F.PWR_OVERDRAW_OVF]
  | .PWR_SLOT_LIMIT => [F.PWR_SLOT_LIMIT_LIMIT]
  | .PWR_SLOT_IDLE => [F.PWR_SLOT_IDLE_IDLE]
  | .PWR_SLOT_STATE => [F.PWR_SLOT_STATE_BUCKET, F.PWR_SLOT_STATE_DEMAND]
  | .CAL_CTRL => [F.CAL_CTRL_APPLY_MODE]
  | .CAL_STATUS => [F.CAL_STATUS_MREF_OK, F.CAL_STATUS_UNTRACED, F.CAL_STATUS_PENDING, F.CAL_STATUS_BUSY]
  | .CAL_MREF => [F.CAL_MREF_VOLTS, F.CAL_MREF_VALID]
  | .CAL_GROUP => [F.CAL_GROUP_STATE, F.CAL_GROUP_CAUSE, F.CAL_GROUP_FAILED, F.CAL_GROUP_SOURCE]
  | .CAL_CMD => [F.CAL_CMD_START, F.CAL_CMD_BUSY, F.CAL_CMD_OP, F.CAL_CMD_MASK, F.CAL_CMD_KEY, F.CAL_CMD_RESULT]
  | .CAL_FUSE => [F.CAL_FUSE_USED, F.CAL_FUSE_NEWEST, F.CAL_FUSE_INVALID]
  | .CAL_UNTRACED_H => [F.CAL_UNTRACED_H_HOURS]
  | .CAL_FAIL_CNT => [F.CAL_FAIL_CNT_COUNT, F.CAL_FAIL_CNT_OVF]
  | .CAL_TRIM => [F.CAL_TRIM_VALUE, F.CAL_TRIM_NEW]
  | .MET_STATUS => [F.MET_STATUS_STATE, F.MET_STATUS_UNTRACED, F.MET_STATUS_TAMPER, F.MET_STATUS_PENDING]
  | .MET_SWID => [F.MET_SWID_SWID]
  | .MET_VERSION => [F.MET_VERSION_FW, F.MET_VERSION_SEC_VER]
  | .MET_EVT_CNT => [F.MET_EVT_CNT_COUNT]
  | .MET_FEED_A => [F.MET_FEED_A_ENERGY]
  | .MET_FEED_B => [F.MET_FEED_B_ENERGY]
  | .MET_UNASSIGNED => [F.MET_UNASSIGNED_ENERGY]
  | .MET_LOG_PTR => [F.MET_LOG_PTR_OLDEST, F.MET_LOG_PTR_NEWEST]
  | .MET_LOG_CURSOR => [F.MET_LOG_CURSOR_LSEQ]
  | .MET_LOG_GAP => [F.MET_LOG_GAP_COUNT, F.MET_LOG_GAP_OVF]
  | .MET_REJECT => [F.MET_REJECT_COUNT, F.MET_REJECT_OVF]
  | .MET_SLOT_E => [F.MET_SLOT_E_ENERGY, F.MET_SLOT_E_SLICE, F.MET_SLOT_E_ACTIVE]
  | .MET_LOG_WIN => [F.MET_LOG_WIN_ENTRY]
  | .FWU_STATUS => [F.FWU_STATUS_ACTIVE, F.FWU_STATUS_STATE, F.FWU_STATUS_ATTEMPTS, F.FWU_STATUS_LAST, F.FWU_STATUS_DEVICE, F.FWU_STATUS_FINISHED]
  | .FWU_SECVER => [F.FWU_SECVER_FUSED, F.FWU_SECVER_IMAGE, F.FWU_SECVER_REVOKED0]
  | .FWU_VERSION => [F.FWU_VERSION_RUN, F.FWU_VERSION_OTHER]
  | .FWU_SETTINGS => [F.FWU_SETTINGS_VERSION, F.FWU_SETTINGS_COPY, F.FWU_SETTINGS_DEFAULTS]
  | .FWU_CFG => [F.FWU_CFG_AUTO, F.FWU_CFG_TRIAL_S]
  | .FWU_CMD => [F.FWU_CMD_START, F.FWU_CMD_BUSY, F.FWU_CMD_OP, F.FWU_CMD_RESULT, F.FWU_CMD_PHASE]
  | .FWU_IMG => [F.FWU_IMG_OFFSET, F.FWU_IMG_LEN]
  | .FWU_BUF => [F.FWU_BUF_DATA]
  | .FWU_ATT_NONCE => [F.FWU_ATT_NONCE_NONCE]
  | .FWU_ATT_CMD => [F.FWU_ATT_CMD_START, F.FWU_ATT_CMD_BUSY]
  | .FWU_ATT_WIN => [F.FWU_ATT_WIN_DATA]
  | .FWU_MET_CERT => [F.FWU_MET_CERT_DATA]
  | .FWU_REVERTS => [F.FWU_REVERTS_COUNT, F.FWU_REVERTS_OVF]
  | .FWU_FLASH_ERR => [F.FWU_FLASH_ERR_COUNT, F.FWU_FLASH_ERR_OVF]
  | .EVR_NEXT => [F.EVR_NEXT_SEQ]
  | .EVR_OLDEST => [F.EVR_OLDEST_SEQ]
  | .EVR_PERM_FIRST => [F.EVR_PERM_FIRST_SEQ]
  | .EVR_PERM_CNT => [F.EVR_PERM_CNT_COUNT]
  | .EVR_CURSOR => [F.EVR_CURSOR_SEQ]
  | .EVR_WIN_INFO => [F.EVR_WIN_INFO_PRESENT, F.EVR_WIN_INFO_GONE, F.EVR_WIN_INFO_AHEAD]
  | .EVR_RATE => [F.EVR_RATE_LIMIT, F.EVR_RATE_NOTE_LIMIT]
  | .EVR_CLEAR => [F.EVR_CLEAR_START, F.EVR_CLEAR_KEY, F.EVR_CLEAR_RESULT]
  | .EVR_NOTE_DATA => [F.EVR_NOTE_DATA_DATA]
  | .EVR_NOTE_CMD => [F.EVR_NOTE_CMD_CODE, F.EVR_NOTE_CMD_START, F.EVR_NOTE_CMD_RESULT]
  | .EVR_SUPPR_CNT => [F.EVR_SUPPR_CNT_COUNT, F.EVR_SUPPR_CNT_OVF]
  | .EVR_NOTE_REFUSED => [F.EVR_NOTE_REFUSED_COUNT, F.EVR_NOTE_REFUSED_OVF]
  | .EVR_AUDIT => [F.EVR_AUDIT_COUNT, F.EVR_AUDIT_OVF]
  | .EVR_WIN => [F.EVR_WIN_RECORDS]
  | .MGT_STATUS => [F.MGT_STATUS_ETH_UP, F.MGT_STATUS_I3C_DA, F.MGT_STATUS_LOCKED]
  | .MGT_LOCK => [F.MGT_LOCK_SET, F.MGT_LOCK_KEY]
  | .MGT_CFG => [F.MGT_CFG_AUTOLOCK_S]
  | .MGT_NET => [F.MGT_NET_IPV4, F.MGT_NET_V4_EN, F.MGT_NET_V6_EN, F.MGT_NET_PORT, F.MGT_NET_IPV6]
  | .MGT_KEY => [F.MGT_KEY_KEY]
  | .MGT_LINE_ADDR => [F.MGT_LINE_ADDR_LINE]
  | .MGT_LINE_CMD => [F.MGT_LINE_CMD_START, F.MGT_LINE_CMD_BUSY, F.MGT_LINE_CMD_RESULT]
  | .MGT_LINE_DATA => [F.MGT_LINE_DATA_DATA]
  | .MGT_BADTAG => [F.MGT_BADTAG_COUNT, F.MGT_BADTAG_OVF]
  | .MGT_STALE => [F.MGT_STALE_COUNT, F.MGT_STALE_OVF]
  | .MGT_DROP => [F.MGT_DROP_COUNT, F.MGT_DROP_OVF]

/-- The block a register lies in. -/
def Reg.block : Reg → Block
  | .SEQ_SLOT_CFG => .SEQ
  | .SEQ_NEXT => .SEQ
  | .SEQ_FRAME => .SEQ
  | .SEQ_STATUS => .SEQ
  | .SEQ_SET_BASE => .SEQ
  | .SEQ_LIVE => .SEQ
  | .SEQ_FAULT => .SEQ
  | .SEQ_FAULT_ADDR => .SEQ
  | .SEQ_FLD_LOAD => .SEQ
  | .SEQ_FLD_XDROP => .SEQ
  | .SEQ_FLD_XSUPER => .SEQ
  | .SEQ_FLD_ECC => .SEQ
  | .TEN_FLD_CTRL => .TEN
  | .TEN_FLD_SR_SEED => .TEN
  | .TEN_FLD_INJECT => .TEN
  | .TEN_FLD_LAST => .TEN
  | .TEN_FLD_MMA_MISS => .TEN
  | .TEN_FLD_VEC_MISS => .TEN
  | .TEN_FLD_NONFINITE => .TEN
  | .TEN_FLD_ACC_ECC => .TEN
  | .SRM_FLD_CTRL => .SRM
  | .SRM_FLD_CLEAR => .SRM
  | .SRM_FLD_ERR => .SRM
  | .SRM_FLD_CE => .SRM
  | .SRM_FLD_UE => .SRM
  | .LPD_DEV_STATUS => .LPD
  | .LPD_DEV_CE => .LPD
  | .LPD_DEV_UE => .LPD
  | .LPD_DEV_ERR => .LPD
  | .LPD_SCRUB => .LPD
  | .LPD_QUOTA => .LPD
  | .LPD_ALLOC => .LPD
  | .MMU_SLOT_ROOT => .MMU
  | .MMU_SLOT_INVAL => .MMU
  | .MMU_FLD_FAULT => .MMU
  | .MMU_FLD_FAULT_VA => .MMU
  | .MMU_FLD_MISS => .MMU
  | .MMU_FLD_LATE => .MMU
  | .MMU_FLD_FAULTS => .MMU
  | .MMU_TIMEOUT => .MMU
  | .MOV_MV_STATUS => .MOV
  | .MOV_MV_DONE => .MOV
  | .MOV_MV_HEAD => .MOV
  | .MOV_FLD_STAGE => .MOV
  | .MOV_FLD_CMD => .MOV
  | .MOV_FLD_CRING_BASE => .MOV
  | .MOV_FLD_CRING_PTR => .MOV
  | .MOV_FLD_BYTES => .MOV
  | .MOV_FLD_LATE => .MOV
  | .MOV_FLD_AUDIT => .MOV
  | .MOV_FLD_REJECT => .MOV
  | .MSH_ROT => .MSH
  | .MSH_MOD_REPAIR => .MSH
  | .MSH_MOD_SHIP => .MSH
  | .MSH_FLD_STATE => .MSH
  | .MSH_FLD_CMD => .MSH
  | .MSH_FLD_STALE => .MSH
  | .MSH_FLD_FLIT_ERR => .MSH
  | .MSH_COL_MAP => .MSH
  | .LNK_VERSION => .LNK
  | .LNK_LINK_CFG => .LNK
  | .LNK_LINK_STATUS => .LNK
  | .LNK_LINK_DELAY => .LNK
  | .LNK_LINK_CAUSE => .LNK
  | .LNK_LINK_RETX => .LNK
  | .LNK_LINK_RETRAIN => .LNK
  | .LNK_LINK_AUDIT => .LNK
  | .LNK_LINK_PDROP => .LNK
  | .LNK_LINK_SWAP => .LNK
  | .LNK_LANE_STATUS => .LNK
  | .LNK_LANE_FEC_CORR => .LNK
  | .LNK_LANE_FEC_UNC => .LNK
  | .DCK_CTRL => .DCK
  | .DCK_STATUS => .DCK
  | .DCK_CMD_CTRL => .DCK
  | .DCK_CMD_TIME => .DCK
  | .DCK_FW => .DCK
  | .DCK_SWAP_CNT => .DCK
  | .DCK_LOSSY_CNT => .DCK
  | .DCK_REJECT_CNT => .DCK
  | .DCK_FACE_PLAN => .DCK
  | .DCK_CMD_BUF => .DCK
  | .DCK_PATH => .DCK
  | .DCK_TAP_IN => .DCK
  | .DCK_TAP_OUT => .DCK
  | .DCK_FACE_MAP => .DCK
  | .SRV_STATUS => .SRV
  | .SRV_CFG => .SRV
  | .SRV_HV => .SRV
  | .SRV_AXIS => .SRV
  | .SRV_SAT_CNT => .SRV
  | .SRV_LOST_CNT => .SRV
  | .SRV_ENG_MISS => .SRV
  | .SRV_FAULT_CNT => .SRV
  | .RTE_MACHINE => .RTE
  | .RTE_COORD => .RTE
  | .RTE_LINK => .RTE
  | .RTE_SLICE => .RTE
  | .RTE_SLICE_BOX => .RTE
  | .RTE_SLICE_HOP => .RTE
  | .RTE_SLICE_COMMIT => .RTE
  | .RTE_SLICE_SUBST => .RTE
  | .RTE_SLICE_PEER => .RTE
  | .RTE_FLD_OWNER => .RTE
  | .RTE_TRANSIT_DROP => .RTE
  | .RTE_FILTER_DROP => .RTE
  | .RTE_NOSLICE_DROP => .RTE
  | .RTE_NOROUTE => .RTE
  | .FTK_PERIOD => .FTK
  | .FTK_NEXT => .FTK
  | .FTK_CHANGE_AT => .FTK
  | .FTK_ANCHOR => .FTK
  | .FTK_TICKS => .FTK
  | .FTK_LAST => .FTK
  | .TIM_NOW => .TIM
  | .TIM_CTRL => .TIM
  | .TIM_STATUS => .TIM
  | .TIM_OFFSET => .TIM
  | .TIM_RATE => .TIM
  | .TIM_HRN_CFG => .TIM
  | .TIM_HRN_TIME => .TIM
  | .TIM_HRN_TICK => .TIM
  | .TIM_HRN_ARM => .TIM
  | .TIM_PTP_CTRL => .TIM
  | .TIM_TSQ_TIME => .TIM
  | .TIM_TSQ_INFO => .TIM
  | .TIM_TSQ_POP => .TIM
  | .TIM_TSQ_DROP => .TIM
  | .TIM_SYNC_LOSS => .TIM
  | .TIM_TICKIN_ERR => .TIM
  | .TIM_STEPS => .TIM
  | .FEI_PORT_STATUS => .FEI
  | .FEI_PORT_ADDR => .FEI
  | .FEI_PORT_IP => .FEI
  | .FEI_PORT_DROP => .FEI
  | .FEI_PORT_REFUSED => .FEI
  | .FEI_CONN_CFG => .FEI
  | .FEI_CONN_PSN => .FEI
  | .FEI_CONN_PEER => .FEI
  | .FEI_CONN_DMAC => .FEI
  | .FEI_CONN_SQ => .FEI
  | .FEI_CONN_CQ => .FEI
  | .FEI_CONN_IDX => .FEI
  | .FEI_CONN_CMD => .FEI
  | .FEI_CONN_RETX => .FEI
  | .FEI_CONN_BADDB => .FEI
  | .JOB_CFG => .JOB
  | .JOB_COUNT => .JOB
  | .JOB_CMD => .JOB
  | .JOB_SLOT_A => .JOB
  | .JOB_SLOT_B => .JOB
  | .INT_MODE => .INT
  | .INT_STATUS => .INT
  | .INT_BUDGET => .INT
  | .INT_SAMPLE => .INT
  | .INT_RATE => .INT
  | .INT_LAMBDA => .INT
  | .INT_LAMBDA_OBS => .INT
  | .INT_UNDET => .INT
  | .INT_TEST => .INT
  | .INT_LIB => .INT
  | .INT_SVC_PEND => .INT
  | .INT_SVC_COND => .INT
  | .INT_FLD_TEST => .INT
  | .INT_FLD_LAST => .INT
  | .INT_FLD_PASS => .INT
  | .INT_FLD_FAIL => .INT
  | .INT_FLD_REC_FAIL => .INT
  | .INT_FLD_REC_SRC => .INT
  | .PWR_BUDGET => .PWR
  | .PWR_CONV => .PWR
  | .PWR_IDLE => .PWR
  | .PWR_STATUS => .PWR
  | .PWR_FRAME => .PWR
  | .PWR_CLOCK => .PWR
  | .PWR_TEMP => .PWR
  | .PWR_AUDIT => .PWR
  | .PWR_FEED_LOSS => .PWR
  | .PWR_THROTTLE => .PWR
  | .PWR_OVERDRAW => .PWR
  | .PWR_SLOT_LIMIT => .PWR
  | .PWR_SLOT_IDLE => .PWR
  | .PWR_SLOT_STATE => .PWR
  | .CAL_CTRL => .CAL
  | .CAL_STATUS => .CAL
  | .CAL_MREF => .CAL
  | .CAL_GROUP => .CAL
  | .CAL_CMD => .CAL
  | .CAL_FUSE => .CAL
  | .CAL_UNTRACED_H => .CAL
  | .CAL_FAIL_CNT => .CAL
  | .CAL_TRIM => .CAL
  | .MET_STATUS => .MET
  | .MET_SWID => .MET
  | .MET_VERSION => .MET
  | .MET_EVT_CNT => .MET
  | .MET_FEED_A => .MET
  | .MET_FEED_B => .MET
  | .MET_UNASSIGNED => .MET
  | .MET_LOG_PTR => .MET
  | .MET_LOG_CURSOR => .MET
  | .MET_LOG_GAP => .MET
  | .MET_REJECT => .MET
  | .MET_SLOT_E => .MET
  | .MET_LOG_WIN => .MET
  | .FWU_STATUS => .FWU
  | .FWU_SECVER => .FWU
  | .FWU_VERSION => .FWU
  | .FWU_SETTINGS => .FWU
  | .FWU_CFG => .FWU
  | .FWU_CMD => .FWU
  | .FWU_IMG => .FWU
  | .FWU_BUF => .FWU
  | .FWU_ATT_NONCE => .FWU
  | .FWU_ATT_CMD => .FWU
  | .FWU_ATT_WIN => .FWU
  | .FWU_MET_CERT => .FWU
  | .FWU_REVERTS => .FWU
  | .FWU_FLASH_ERR => .FWU
  | .EVR_NEXT => .EVR
  | .EVR_OLDEST => .EVR
  | .EVR_PERM_FIRST => .EVR
  | .EVR_PERM_CNT => .EVR
  | .EVR_CURSOR => .EVR
  | .EVR_WIN_INFO => .EVR
  | .EVR_RATE => .EVR
  | .EVR_CLEAR => .EVR
  | .EVR_NOTE_DATA => .EVR
  | .EVR_NOTE_CMD => .EVR
  | .EVR_SUPPR_CNT => .EVR
  | .EVR_NOTE_REFUSED => .EVR
  | .EVR_AUDIT => .EVR
  | .EVR_WIN => .EVR
  | .MGT_STATUS => .MGT
  | .MGT_LOCK => .MGT
  | .MGT_CFG => .MGT
  | .MGT_NET => .MGT
  | .MGT_KEY => .MGT
  | .MGT_LINE_ADDR => .MGT
  | .MGT_LINE_CMD => .MGT
  | .MGT_LINE_DATA => .MGT
  | .MGT_BADTAG => .MGT
  | .MGT_STALE => .MGT
  | .MGT_DROP => .MGT

/-- Offset of the register (of its index 0) from its block base. -/
def Reg.off : Reg → Nat
  | .SEQ_SLOT_CFG => 0x0
  | .SEQ_NEXT => 0x4
  | .SEQ_FRAME => 0x8
  | .SEQ_STATUS => 0xC
  | .SEQ_SET_BASE => 0x10
  | .SEQ_LIVE => 0x18
  | .SEQ_FAULT => 0x20
  | .SEQ_FAULT_ADDR => 0x28
  | .SEQ_FLD_LOAD => 0x1000
  | .SEQ_FLD_XDROP => 0x1008
  | .SEQ_FLD_XSUPER => 0x1010
  | .SEQ_FLD_ECC => 0x1018
  | .TEN_FLD_CTRL => 0x0
  | .TEN_FLD_SR_SEED => 0x8
  | .TEN_FLD_INJECT => 0x10
  | .TEN_FLD_LAST => 0x18
  | .TEN_FLD_MMA_MISS => 0x20
  | .TEN_FLD_VEC_MISS => 0x28
  | .TEN_FLD_NONFINITE => 0x30
  | .TEN_FLD_ACC_ECC => 0x38
  | .SRM_FLD_CTRL => 0x0
  | .SRM_FLD_CLEAR => 0x4
  | .SRM_FLD_ERR => 0x8
  | .SRM_FLD_CE => 0x10
  | .SRM_FLD_UE => 0x18
  | .LPD_DEV_STATUS => 0x0
  | .LPD_DEV_CE => 0x8
  | .LPD_DEV_UE => 0x10
  | .LPD_DEV_ERR => 0x18
  | .LPD_SCRUB => 0x1000
  | .LPD_QUOTA => 0x2000
  | .LPD_ALLOC => 0x3000
  | .MMU_SLOT_ROOT => 0x0
  | .MMU_SLOT_INVAL => 0x8
  | .MMU_FLD_FAULT => 0x1000
  | .MMU_FLD_FAULT_VA => 0x1008
  | .MMU_FLD_MISS => 0x1010
  | .MMU_FLD_LATE => 0x1018
  | .MMU_FLD_FAULTS => 0x1020
  | .MMU_TIMEOUT => 0x2000
  | .MOV_MV_STATUS => 0x0
  | .MOV_MV_DONE => 0x8
  | .MOV_MV_HEAD => 0x40
  | .MOV_FLD_STAGE => 0x20000
  | .MOV_FLD_CMD => 0x20040
  | .MOV_FLD_CRING_BASE => 0x20048
  | .MOV_FLD_CRING_PTR => 0x20050
  | .MOV_FLD_BYTES => 0x20058
  | .MOV_FLD_LATE => 0x20060
  | .MOV_FLD_AUDIT => 0x20068
  | .MOV_FLD_REJECT => 0x20070
  | .MSH_ROT => 0x0
  | .MSH_MOD_REPAIR => 0x8
  | .MSH_MOD_SHIP => 0x10
  | .MSH_FLD_STATE => 0x1000
  | .MSH_FLD_CMD => 0x1008
  | .MSH_FLD_STALE => 0x1010
  | .MSH_FLD_FLIT_ERR => 0x1018
  | .MSH_COL_MAP => 0x1040
  | .LNK_VERSION => 0x0
  | .LNK_LINK_CFG => 0x1000
  | .LNK_LINK_STATUS => 0x1008
  | .LNK_LINK_DELAY => 0x1010
  | .LNK_LINK_CAUSE => 0x1018
  | .LNK_LINK_RETX => 0x1020
  | .LNK_LINK_RETRAIN => 0x1028
  | .LNK_LINK_AUDIT => 0x1030
  | .LNK_LINK_PDROP => 0x1038
  | .LNK_LINK_SWAP => 0x1040
  | .LNK_LANE_STATUS => 0x4000
  | .LNK_LANE_FEC_CORR => 0x4008
  | .LNK_LANE_FEC_UNC => 0x4010
  | .DCK_CTRL => 0x0
  | .DCK_STATUS => 0x4
  | .DCK_CMD_CTRL => 0x8
  | .DCK_CMD_TIME => 0x10
  | .DCK_FW => 0x18
  | .DCK_SWAP_CNT => 0x20
  | .DCK_LOSSY_CNT => 0x28
  | .DCK_REJECT_CNT => 0x30
  | .DCK_FACE_PLAN => 0x100
  | .DCK_CMD_BUF => 0x1000
  | .DCK_PATH => 0x2000
  | .DCK_TAP_IN => 0x3000
  | .DCK_TAP_OUT => 0x4000
  | .DCK_FACE_MAP => 0x5000
  | .SRV_STATUS => 0x0
  | .SRV_CFG => 0x4
  | .SRV_HV => 0x8
  | .SRV_AXIS => 0x1000
  | .SRV_SAT_CNT => 0x100
  | .SRV_LOST_CNT => 0x108
  | .SRV_ENG_MISS => 0x110
  | .SRV_FAULT_CNT => 0x118
  | .RTE_MACHINE => 0x0
  | .RTE_COORD => 0x8
  | .RTE_LINK => 0x100
  | .RTE_SLICE => 0x1000
  | .RTE_SLICE_BOX => 0x1008
  | .RTE_SLICE_HOP => 0x1010
  | .RTE_SLICE_COMMIT => 0x1018
  | .RTE_SLICE_SUBST => 0x1020
  | .RTE_SLICE_PEER => 0x1040
  | .RTE_FLD_OWNER => 0x4000
  | .RTE_TRANSIT_DROP => 0x3000
  | .RTE_FILTER_DROP => 0x3008
  | .RTE_NOSLICE_DROP => 0x3010
  | .RTE_NOROUTE => 0x3018
  | .FTK_PERIOD => 0x0
  | .FTK_NEXT => 0x4
  | .FTK_CHANGE_AT => 0x8
  | .FTK_ANCHOR => 0x10
  | .FTK_TICKS => 0x18
  | .FTK_LAST => 0x20
  | .TIM_NOW => 0x0
  | .TIM_CTRL => 0x8
  | .TIM_STATUS => 0xC
  | .TIM_OFFSET => 0x10
  | .TIM_RATE => 0x18
  | .TIM_HRN_CFG => 0x20
  | .TIM_HRN_TIME => 0x28
  | .TIM_HRN_TICK => 0x30
  | .TIM_HRN_ARM => 0x38
  | .TIM_PTP_CTRL => 0x40
  | .TIM_TSQ_TIME => 0x100
  | .TIM_TSQ_INFO => 0x108
  | .TIM_TSQ_POP => 0x110
  | .TIM_TSQ_DROP => 0x200
  | .TIM_SYNC_LOSS => 0x220
  | .TIM_TICKIN_ERR => 0x228
  | .TIM_STEPS => 0x230
  | .FEI_PORT_STATUS => 0x0
  | .FEI_PORT_ADDR => 0x8
  | .FEI_PORT_IP => 0x10
  | .FEI_PORT_DROP => 0x30
  | .FEI_PORT_REFUSED => 0x38
  | .FEI_CONN_CFG => 0x1000
  | .FEI_CONN_PSN => 0x1008
  | .FEI_CONN_PEER => 0x1010
  | .FEI_CONN_DMAC => 0x1020
  | .FEI_CONN_SQ => 0x1028
  | .FEI_CONN_CQ => 0x1038
  | .FEI_CONN_IDX => 0x1048
  | .FEI_CONN_CMD => 0x1050
  | .FEI_CONN_RETX => 0x1058
  | .FEI_CONN_BADDB => 0x1060
  | .JOB_CFG => 0x0
  | .JOB_COUNT => 0x4
  | .JOB_CMD => 0x8
  | .JOB_SLOT_A => 0x1000
  | .JOB_SLOT_B => 0x1008
  | .INT_MODE => 0x0
  | .INT_STATUS => 0x4
  | .INT_BUDGET => 0x8
  | .INT_SAMPLE => 0x10
  | .INT_RATE => 0x18
  | .INT_LAMBDA => 0x20
  | .INT_LAMBDA_OBS => 0x28
  | .INT_UNDET => 0x30
  | .INT_TEST => 0x38
  | .INT_LIB => 0x40
  | .INT_SVC_PEND => 0x48
  | .INT_SVC_COND => 0x4C
  | .INT_FLD_TEST => 0x1000
  | .INT_FLD_LAST => 0x1008
  | .INT_FLD_PASS => 0x1010
  | .INT_FLD_FAIL => 0x1018
  | .INT_FLD_REC_FAIL => 0x1020
  | .INT_FLD_REC_SRC => 0x1028
  | .PWR_BUDGET => 0x0
  | .PWR_CONV => 0x4
  | .PWR_IDLE => 0x8
  | .PWR_STATUS => 0xC
  | .PWR_FRAME => 0x10
  | .PWR_CLOCK => 0x18
  | .PWR_TEMP => 0x1C
  | .PWR_AUDIT => 0x100
  | .PWR_FEED_LOSS => 0x108
  | .PWR_THROTTLE => 0x110
  | .PWR_OVERDRAW => 0x118
  | .PWR_SLOT_LIMIT => 0x1000
  | .PWR_SLOT_IDLE => 0x1004
  | .PWR_SLOT_STATE => 0x1008
  | .CAL_CTRL => 0x0
  | .CAL_STATUS => 0x4
  | .CAL_MREF => 0x8
  | .CAL_GROUP => 0x10
  | .CAL_CMD => 0x40
  | .CAL_FUSE => 0x48
  | .CAL_UNTRACED_H => 0x50
  | .CAL_FAIL_CNT => 0x58
  | .CAL_TRIM => 0x1000
  | .MET_STATUS => 0x0
  | .MET_SWID => 0x8
  | .MET_VERSION => 0x10
  | .MET_EVT_CNT => 0x14
  | .MET_FEED_A => 0x18
  | .MET_FEED_B => 0x20
  | .MET_UNASSIGNED => 0x28
  | .MET_LOG_PTR => 0x30
  | .MET_LOG_CURSOR => 0x40
  | .MET_LOG_GAP => 0x48
  | .MET_REJECT => 0x50
  | .MET_SLOT_E => 0x100
  | .MET_LOG_WIN => 0x800
  | .FWU_STATUS => 0x0
  | .FWU_SECVER => 0x4
  | .FWU_VERSION => 0x8
  | .FWU_SETTINGS => 0x10
  | .FWU_CFG => 0x14
  | .FWU_CMD => 0x20
  | .FWU_IMG => 0x28
  | .FWU_BUF => 0x100000
  | .FWU_ATT_NONCE => 0x40
  | .FWU_ATT_CMD => 0x60
  | .FWU_ATT_WIN => 0x1000
  | .FWU_MET_CERT => 0x2000
  | .FWU_REVERTS => 0x100
  | .FWU_FLASH_ERR => 0x108
  | .EVR_NEXT => 0x0
  | .EVR_OLDEST => 0x8
  | .EVR_PERM_FIRST => 0x10
  | .EVR_PERM_CNT => 0x18
  | .EVR_CURSOR => 0x20
  | .EVR_WIN_INFO => 0x28
  | .EVR_RATE => 0x30
  | .EVR_CLEAR => 0x38
  | .EVR_NOTE_DATA => 0x40
  | .EVR_NOTE_CMD => 0x48
  | .EVR_SUPPR_CNT => 0x80
  | .EVR_NOTE_REFUSED => 0x88
  | .EVR_AUDIT => 0x90
  | .EVR_WIN => 0x1000
  | .MGT_STATUS => 0x0
  | .MGT_LOCK => 0x4
  | .MGT_CFG => 0x8
  | .MGT_NET => 0x10
  | .MGT_KEY => 0x40
  | .MGT_LINE_ADDR => 0x100
  | .MGT_LINE_CMD => 0x108
  | .MGT_LINE_DATA => 0x140
  | .MGT_BADTAG => 0x200
  | .MGT_STALE => 0x208
  | .MGT_DROP => 0x210

/-- Width of the register in bytes. -/
def Reg.bytes : Reg → Nat
  | .SEQ_SLOT_CFG => 4
  | .SEQ_NEXT => 4
  | .SEQ_FRAME => 4
  | .SEQ_STATUS => 4
  | .SEQ_SET_BASE => 8
  | .SEQ_LIVE => 8
  | .SEQ_FAULT => 8
  | .SEQ_FAULT_ADDR => 8
  | .SEQ_FLD_LOAD => 4
  | .SEQ_FLD_XDROP => 8
  | .SEQ_FLD_XSUPER => 8
  | .SEQ_FLD_ECC => 8
  | .TEN_FLD_CTRL => 4
  | .TEN_FLD_SR_SEED => 8
  | .TEN_FLD_INJECT => 4
  | .TEN_FLD_LAST => 8
  | .TEN_FLD_MMA_MISS => 8
  | .TEN_FLD_VEC_MISS => 8
  | .TEN_FLD_NONFINITE => 8
  | .TEN_FLD_ACC_ECC => 8
  | .SRM_FLD_CTRL => 4
  | .SRM_FLD_CLEAR => 4
  | .SRM_FLD_ERR => 8
  | .SRM_FLD_CE => 8
  | .SRM_FLD_UE => 8
  | .LPD_DEV_STATUS => 4
  | .LPD_DEV_CE => 8
  | .LPD_DEV_UE => 8
  | .LPD_DEV_ERR => 8
  | .LPD_SCRUB => 4
  | .LPD_QUOTA => 8
  | .LPD_ALLOC => 8
  | .MMU_SLOT_ROOT => 8
  | .MMU_SLOT_INVAL => 8
  | .MMU_FLD_FAULT => 8
  | .MMU_FLD_FAULT_VA => 8
  | .MMU_FLD_MISS => 8
  | .MMU_FLD_LATE => 8
  | .MMU_FLD_FAULTS => 8
  | .MMU_TIMEOUT => 4
  | .MOV_MV_STATUS => 4
  | .MOV_MV_DONE => 8
  | .MOV_MV_HEAD => 64
  | .MOV_FLD_STAGE => 64
  | .MOV_FLD_CMD => 4
  | .MOV_FLD_CRING_BASE => 8
  | .MOV_FLD_CRING_PTR => 4
  | .MOV_FLD_BYTES => 8
  | .MOV_FLD_LATE => 8
  | .MOV_FLD_AUDIT => 8
  | .MOV_FLD_REJECT => 8
  | .MSH_ROT => 4
  | .MSH_MOD_REPAIR => 8
  | .MSH_MOD_SHIP => 4
  | .MSH_FLD_STATE => 4
  | .MSH_FLD_CMD => 4
  | .MSH_FLD_STALE => 8
  | .MSH_FLD_FLIT_ERR => 8
  | .MSH_COL_MAP => 4
  | .LNK_VERSION => 4
  | .LNK_LINK_CFG => 4
  | .LNK_LINK_STATUS => 8
  | .LNK_LINK_DELAY => 4
  | .LNK_LINK_CAUSE => 4
  | .LNK_LINK_RETX => 8
  | .LNK_LINK_RETRAIN => 8
  | .LNK_LINK_AUDIT => 8
  | .LNK_LINK_PDROP => 8
  | .LNK_LINK_SWAP => 8
  | .LNK_LANE_STATUS => 4
  | .LNK_LANE_FEC_CORR => 8
  | .LNK_LANE_FEC_UNC => 8
  | .DCK_CTRL => 4
  | .DCK_STATUS => 4
  | .DCK_CMD_CTRL => 4
  | .DCK_CMD_TIME => 8
  | .DCK_FW => 4
  | .DCK_SWAP_CNT => 8
  | .DCK_LOSSY_CNT => 8
  | .DCK_REJECT_CNT => 8
  | .DCK_FACE_PLAN => 4
  | .DCK_CMD_BUF => 4
  | .DCK_PATH => 4
  | .DCK_TAP_IN => 4
  | .DCK_TAP_OUT => 4
  | .DCK_FACE_MAP => 4
  | .SRV_STATUS => 4
  | .SRV_CFG => 4
  | .SRV_HV => 4
  | .SRV_AXIS => 8
  | .SRV_SAT_CNT => 8
  | .SRV_LOST_CNT => 8
  | .SRV_ENG_MISS => 8
  | .SRV_FAULT_CNT => 8
  | .RTE_MACHINE => 4
  | .RTE_COORD => 4
  | .RTE_LINK => 4
  | .RTE_SLICE => 8
  | .RTE_SLICE_BOX => 4
  | .RTE_SLICE_HOP => 8
  | .RTE_SLICE_COMMIT => 8
  | .RTE_SLICE_SUBST => 4
  | .RTE_SLICE_PEER => 8
  | .RTE_FLD_OWNER => 4
  | .RTE_TRANSIT_DROP => 8
  | .RTE_FILTER_DROP => 8
  | .RTE_NOSLICE_DROP => 8
  | .RTE_NOROUTE => 8
  | .FTK_PERIOD => 4
  | .FTK_NEXT => 4
  | .FTK_CHANGE_AT => 8
  | .FTK_ANCHOR => 8
  | .FTK_TICKS => 8
  | .FTK_LAST => 8
  | .TIM_NOW => 8
  | .TIM_CTRL => 4
  | .TIM_STATUS => 4
  | .TIM_OFFSET => 8
  | .TIM_RATE => 4
  | .TIM_HRN_CFG => 4
  | .TIM_HRN_TIME => 8
  | .TIM_HRN_TICK => 8
  | .TIM_HRN_ARM => 4
  | .TIM_PTP_CTRL => 4
  | .TIM_TSQ_TIME => 8
  | .TIM_TSQ_INFO => 4
  | .TIM_TSQ_POP => 4
  | .TIM_TSQ_DROP => 8
  | .TIM_SYNC_LOSS => 8
  | .TIM_TICKIN_ERR => 8
  | .TIM_STEPS => 8
  | .FEI_PORT_STATUS => 4
  | .FEI_PORT_ADDR => 8
  | .FEI_PORT_IP => 24
  | .FEI_PORT_DROP => 8
  | .FEI_PORT_REFUSED => 8
  | .FEI_CONN_CFG => 8
  | .FEI_CONN_PSN => 8
  | .FEI_CONN_PEER => 16
  | .FEI_CONN_DMAC => 8
  | .FEI_CONN_SQ => 16
  | .FEI_CONN_CQ => 16
  | .FEI_CONN_IDX => 8
  | .FEI_CONN_CMD => 4
  | .FEI_CONN_RETX => 8
  | .FEI_CONN_BADDB => 8
  | .JOB_CFG => 4
  | .JOB_COUNT => 4
  | .JOB_CMD => 4
  | .JOB_SLOT_A => 8
  | .JOB_SLOT_B => 4
  | .INT_MODE => 4
  | .INT_STATUS => 4
  | .INT_BUDGET => 4
  | .INT_SAMPLE => 8
  | .INT_RATE => 8
  | .INT_LAMBDA => 8
  | .INT_LAMBDA_OBS => 8
  | .INT_UNDET => 8
  | .INT_TEST => 4
  | .INT_LIB => 4
  | .INT_SVC_PEND => 4
  | .INT_SVC_COND => 4
  | .INT_FLD_TEST => 4
  | .INT_FLD_LAST => 8
  | .INT_FLD_PASS => 8
  | .INT_FLD_FAIL => 8
  | .INT_FLD_REC_FAIL => 8
  | .INT_FLD_REC_SRC => 8
  | .PWR_BUDGET => 4
  | .PWR_CONV => 4
  | .PWR_IDLE => 4
  | .PWR_STATUS => 4
  | .PWR_FRAME => 8
  | .PWR_CLOCK => 4
  | .PWR_TEMP => 4
  | .PWR_AUDIT => 8
  | .PWR_FEED_LOSS => 8
  | .PWR_THROTTLE => 8
  | .PWR_OVERDRAW => 8
  | .PWR_SLOT_LIMIT => 4
  | .PWR_SLOT_IDLE => 4
  | .PWR_SLOT_STATE => 8
  | .CAL_CTRL => 4
  | .CAL_STATUS => 4
  | .CAL_MREF => 4
  | .CAL_GROUP => 4
  | .CAL_CMD => 4
  | .CAL_FUSE => 4
  | .CAL_UNTRACED_H => 4
  | .CAL_FAIL_CNT => 8
  | .CAL_TRIM => 4
  | .MET_STATUS => 4
  | .MET_SWID => 8
  | .MET_VERSION => 4
  | .MET_EVT_CNT => 4
  | .MET_FEED_A => 8
  | .MET_FEED_B => 8
  | .MET_UNASSIGNED => 8
  | .MET_LOG_PTR => 16
  | .MET_LOG_CURSOR => 8
  | .MET_LOG_GAP => 8
  | .MET_REJECT => 8
  | .MET_SLOT_E => 16
  | .MET_LOG_WIN => 224
  | .FWU_STATUS => 4
  | .FWU_SECVER => 4
  | .FWU_VERSION => 8
  | .FWU_SETTINGS => 4
  | .FWU_CFG => 4
  | .FWU_CMD => 4
  | .FWU_IMG => 8
  | .FWU_BUF => 1048576
  | .FWU_ATT_NONCE => 32
  | .FWU_ATT_CMD => 4
  | .FWU_ATT_WIN => 1088
  | .FWU_MET_CERT => 256
  | .FWU_REVERTS => 8
  | .FWU_FLASH_ERR => 8
  | .EVR_NEXT => 8
  | .EVR_OLDEST => 8
  | .EVR_PERM_FIRST => 8
  | .EVR_PERM_CNT => 4
  | .EVR_CURSOR => 8
  | .EVR_WIN_INFO => 4
  | .EVR_RATE => 4
  | .EVR_CLEAR => 4
  | .EVR_NOTE_DATA => 8
  | .EVR_NOTE_CMD => 4
  | .EVR_SUPPR_CNT => 8
  | .EVR_NOTE_REFUSED => 8
  | .EVR_AUDIT => 8
  | .EVR_WIN => 256
  | .MGT_STATUS => 4
  | .MGT_LOCK => 4
  | .MGT_CFG => 4
  | .MGT_NET => 24
  | .MGT_KEY => 32
  | .MGT_LINE_ADDR => 8
  | .MGT_LINE_CMD => 4
  | .MGT_LINE_DATA => 64
  | .MGT_BADTAG => 8
  | .MGT_STALE => 8
  | .MGT_DROP => 8

/-- Repetitions of the register, outermost first: (count, stride in bytes). -/
def Reg.dims : Reg → List (Nat × Nat)
  | .SEQ_SLOT_CFG => [(56, 0x40)]
  | .SEQ_NEXT => [(56, 0x40)]
  | .SEQ_FRAME => [(56, 0x40)]
  | .SEQ_STATUS => [(56, 0x40)]
  | .SEQ_SET_BASE => [(56, 0x40)]
  | .SEQ_LIVE => [(56, 0x40)]
  | .SEQ_FAULT => [(56, 0x40)]
  | .SEQ_FAULT_ADDR => [(56, 0x40)]
  | .SEQ_FLD_LOAD => [(56, 0x40)]
  | .SEQ_FLD_XDROP => [(56, 0x40)]
  | .SEQ_FLD_XSUPER => [(56, 0x40)]
  | .SEQ_FLD_ECC => [(56, 0x40)]
  | .TEN_FLD_CTRL => [(56, 0x40)]
  | .TEN_FLD_SR_SEED => [(56, 0x40)]
  | .TEN_FLD_INJECT => [(56, 0x40)]
  | .TEN_FLD_LAST => [(56, 0x40)]
  | .TEN_FLD_MMA_MISS => [(56, 0x40)]
  | .TEN_FLD_VEC_MISS => [(56, 0x40)]
  | .TEN_FLD_NONFINITE => [(56, 0x40)]
  | .TEN_FLD_ACC_ECC => [(56, 0x40)]
  | .SRM_FLD_CTRL => [(56, 0x40)]
  | .SRM_FLD_CLEAR => [(56, 0x40)]
  | .SRM_FLD_ERR => [(56, 0x40)]
  | .SRM_FLD_CE => [(56, 0x40)]
  | .SRM_FLD_UE => [(56, 0x40)]
  | .LPD_DEV_STATUS => [(32, 0x40)]
  | .LPD_DEV_CE => [(32, 0x40)]
  | .LPD_DEV_UE => [(32, 0x40)]
  | .LPD_DEV_ERR => [(32, 0x40)]
  | .LPD_SCRUB => []
  | .LPD_QUOTA => [(64, 0x10)]
  | .LPD_ALLOC => []
  | .MMU_SLOT_ROOT => [(56, 0x40)]
  | .MMU_SLOT_INVAL => [(56, 0x40)]
  | .MMU_FLD_FAULT => [(56, 0x40)]
  | .MMU_FLD_FAULT_VA => [(56, 0x40)]
  | .MMU_FLD_MISS => [(56, 0x40)]
  | .MMU_FLD_LATE => [(56, 0x40)]
  | .MMU_FLD_FAULTS => [(56, 0x40)]
  | .MMU_TIMEOUT => []
  | .MOV_MV_STATUS => [(56, 0x800), (16, 0x80)]
  | .MOV_MV_DONE => [(56, 0x800), (16, 0x80)]
  | .MOV_MV_HEAD => [(56, 0x800), (16, 0x80)]
  | .MOV_FLD_STAGE => [(56, 0x100)]
  | .MOV_FLD_CMD => [(56, 0x100)]
  | .MOV_FLD_CRING_BASE => [(56, 0x100)]
  | .MOV_FLD_CRING_PTR => [(56, 0x100)]
  | .MOV_FLD_BYTES => [(56, 0x100)]
  | .MOV_FLD_LATE => [(56, 0x100)]
  | .MOV_FLD_AUDIT => [(56, 0x100)]
  | .MOV_FLD_REJECT => [(56, 0x100)]
  | .MSH_ROT => []
  | .MSH_MOD_REPAIR => []
  | .MSH_MOD_SHIP => []
  | .MSH_FLD_STATE => [(56, 0x100)]
  | .MSH_FLD_CMD => [(56, 0x100)]
  | .MSH_FLD_STALE => [(56, 0x100)]
  | .MSH_FLD_FLIT_ERR => [(56, 0x100)]
  | .MSH_COL_MAP => [(56, 0x100), (30, 0x4)]
  | .LNK_VERSION => []
  | .LNK_LINK_CFG => [(24, 0x80)]
  | .LNK_LINK_STATUS => [(24, 0x80)]
  | .LNK_LINK_DELAY => [(24, 0x80)]
  | .LNK_LINK_CAUSE => [(24, 0x80)]
  | .LNK_LINK_RETX => [(24, 0x80)]
  | .LNK_LINK_RETRAIN => [(24, 0x80)]
  | .LNK_LINK_AUDIT => [(24, 0x80)]
  | .LNK_LINK_PDROP => [(24, 0x80)]
  | .LNK_LINK_SWAP => [(24, 0x80)]
  | .LNK_LANE_STATUS => [(192, 0x20)]
  | .LNK_LANE_FEC_CORR => [(192, 0x20)]
  | .LNK_LANE_FEC_UNC => [(192, 0x20)]
  | .DCK_CTRL => []
  | .DCK_STATUS => []
  | .DCK_CMD_CTRL => []
  | .DCK_CMD_TIME => []
  | .DCK_FW => []
  | .DCK_SWAP_CNT => []
  | .DCK_LOSSY_CNT => []
  | .DCK_REJECT_CNT => []
  | .DCK_FACE_PLAN => [(6, 0x10)]
  | .DCK_CMD_BUF => [(480, 0x4)]
  | .DCK_PATH => [(480, 0x4)]
  | .DCK_TAP_IN => [(480, 0x4)]
  | .DCK_TAP_OUT => [(480, 0x4)]
  | .DCK_FACE_MAP => [(6, 0x100), (48, 0x4)]
  | .SRV_STATUS => []
  | .SRV_CFG => []
  | .SRV_HV => []
  | .SRV_AXIS => [(1920, 0x8)]
  | .SRV_SAT_CNT => []
  | .SRV_LOST_CNT => []
  | .SRV_ENG_MISS => []
  | .SRV_FAULT_CNT => []
  | .RTE_MACHINE => []
  | .RTE_COORD => []
  | .RTE_LINK => [(24, 0x8)]
  | .RTE_SLICE => [(64, 0x80)]
  | .RTE_SLICE_BOX => [(64, 0x80)]
  | .RTE_SLICE_HOP => [(64, 0x80)]
  | .RTE_SLICE_COMMIT => [(64, 0x80)]
  | .RTE_SLICE_SUBST => [(64, 0x80), (4, 0x8)]
  | .RTE_SLICE_PEER => [(64, 0x80), (8, 0x8)]
  | .RTE_FLD_OWNER => [(56, 0x8)]
  | .RTE_TRANSIT_DROP => []
  | .RTE_FILTER_DROP => []
  | .RTE_NOSLICE_DROP => []
  | .RTE_NOROUTE => []
  | .FTK_PERIOD => []
  | .FTK_NEXT => []
  | .FTK_CHANGE_AT => []
  | .FTK_ANCHOR => []
  | .FTK_TICKS => []
  | .FTK_LAST => []
  | .TIM_NOW => []
  | .TIM_CTRL => []
  | .TIM_STATUS => []
  | .TIM_OFFSET => []
  | .TIM_RATE => []
  | .TIM_HRN_CFG => []
  | .TIM_HRN_TIME => []
  | .TIM_HRN_TICK => []
  | .TIM_HRN_ARM => []
  | .TIM_PTP_CTRL => []
  | .TIM_TSQ_TIME => [(3, 0x20)]
  | .TIM_TSQ_INFO => [(3, 0x20)]
  | .TIM_TSQ_POP => [(3, 0x20)]
  | .TIM_TSQ_DROP => [(3, 0x8)]
  | .TIM_SYNC_LOSS => []
  | .TIM_TICKIN_ERR => []
  | .TIM_STEPS => []
  | .FEI_PORT_STATUS => [(2, 0x100)]
  | .FEI_PORT_ADDR => [(2, 0x100)]
  | .FEI_PORT_IP => [(2, 0x100)]
  | .FEI_PORT_DROP => [(2, 0x100)]
  | .FEI_PORT_REFUSED => [(2, 0x100)]
  | .FEI_CONN_CFG => [(1024, 0x80)]
  | .FEI_CONN_PSN => [(1024, 0x80)]
  | .FEI_CONN_PEER => [(1024, 0x80)]
  | .FEI_CONN_DMAC => [(1024, 0x80)]
  | .FEI_CONN_SQ => [(1024, 0x80)]
  | .FEI_CONN_CQ => [(1024, 0x80)]
  | .FEI_CONN_IDX => [(1024, 0x80)]
  | .FEI_CONN_CMD => [(1024, 0x80)]
  | .FEI_CONN_RETX => [(1024, 0x80)]
  | .FEI_CONN_BADDB => [(1024, 0x80)]
  | .JOB_CFG => []
  | .JOB_COUNT => []
  | .JOB_CMD => []
  | .JOB_SLOT_A => [(56, 0x10)]
  | .JOB_SLOT_B => [(56, 0x10)]
  | .INT_MODE => []
  | .INT_STATUS => []
  | .INT_BUDGET => []
  | .INT_SAMPLE => []
  | .INT_RATE => []
  | .INT_LAMBDA => []
  | .INT_LAMBDA_OBS => []
  | .INT_UNDET => []
  | .INT_TEST => []
  | .INT_LIB => []
  | .INT_SVC_PEND => []
  | .INT_SVC_COND => []
  | .INT_FLD_TEST => [(56, 0x40)]
  | .INT_FLD_LAST => [(56, 0x40)]
  | .INT_FLD_PASS => [(56, 0x40)]
  | .INT_FLD_FAIL => [(56, 0x40)]
  | .INT_FLD_REC_FAIL => [(56, 0x40)]
  | .INT_FLD_REC_SRC => [(56, 0x40)]
  | .PWR_BUDGET => []
  | .PWR_CONV => []
  | .PWR_IDLE => []
  | .PWR_STATUS => []
  | .PWR_FRAME => []
  | .PWR_CLOCK => []
  | .PWR_TEMP => []
  | .PWR_AUDIT => []
  | .PWR_FEED_LOSS => []
  | .PWR_THROTTLE => []
  | .PWR_OVERDRAW => []
  | .PWR_SLOT_LIMIT => [(56, 0x20)]
  | .PWR_SLOT_IDLE => [(56, 0x20)]
  | .PWR_SLOT_STATE => [(56, 0x20)]
  | .CAL_CTRL => []
  | .CAL_STATUS => []
  | .CAL_MREF => []
  | .CAL_GROUP => [(4, 0x4)]
  | .CAL_CMD => []
  | .CAL_FUSE => []
  | .CAL_UNTRACED_H => []
  | .CAL_FAIL_CNT => []
  | .CAL_TRIM => [(3073, 0x4)]
  | .MET_STATUS => []
  | .MET_SWID => []
  | .MET_VERSION => []
  | .MET_EVT_CNT => []
  | .MET_FEED_A => []
  | .MET_FEED_B => []
  | .MET_UNASSIGNED => []
  | .MET_LOG_PTR => []
  | .MET_LOG_CURSOR => []
  | .MET_LOG_GAP => []
  | .MET_REJECT => []
  | .MET_SLOT_E => [(64, 0x10)]
  | .MET_LOG_WIN => []
  | .FWU_STATUS => []
  | .FWU_SECVER => []
  | .FWU_VERSION => []
  | .FWU_SETTINGS => []
  | .FWU_CFG => []
  | .FWU_CMD => []
  | .FWU_IMG => []
  | .FWU_BUF => []
  | .FWU_ATT_NONCE => []
  | .FWU_ATT_CMD => []
  | .FWU_ATT_WIN => []
  | .FWU_MET_CERT => []
  | .FWU_REVERTS => []
  | .FWU_FLASH_ERR => []
  | .EVR_NEXT => []
  | .EVR_OLDEST => []
  | .EVR_PERM_FIRST => []
  | .EVR_PERM_CNT => []
  | .EVR_CURSOR => []
  | .EVR_WIN_INFO => []
  | .EVR_RATE => []
  | .EVR_CLEAR => []
  | .EVR_NOTE_DATA => []
  | .EVR_NOTE_CMD => []
  | .EVR_SUPPR_CNT => []
  | .EVR_NOTE_REFUSED => []
  | .EVR_AUDIT => []
  | .EVR_WIN => []
  | .MGT_STATUS => []
  | .MGT_LOCK => []
  | .MGT_CFG => []
  | .MGT_NET => []
  | .MGT_KEY => []
  | .MGT_LINE_ADDR => []
  | .MGT_LINE_CMD => []
  | .MGT_LINE_DATA => []
  | .MGT_BADTAG => []
  | .MGT_STALE => []
  | .MGT_DROP => []

/-- Number of the register in the order of the manual; half of the key under which its value is kept. -/
def Reg.code : Reg → Nat
  | .SEQ_SLOT_CFG => 0
  | .SEQ_NEXT => 1
  | .SEQ_FRAME => 2
  | .SEQ_STATUS => 3
  | .SEQ_SET_BASE => 4
  | .SEQ_LIVE => 5
  | .SEQ_FAULT => 6
  | .SEQ_FAULT_ADDR => 7
  | .SEQ_FLD_LOAD => 8
  | .SEQ_FLD_XDROP => 9
  | .SEQ_FLD_XSUPER => 10
  | .SEQ_FLD_ECC => 11
  | .TEN_FLD_CTRL => 12
  | .TEN_FLD_SR_SEED => 13
  | .TEN_FLD_INJECT => 14
  | .TEN_FLD_LAST => 15
  | .TEN_FLD_MMA_MISS => 16
  | .TEN_FLD_VEC_MISS => 17
  | .TEN_FLD_NONFINITE => 18
  | .TEN_FLD_ACC_ECC => 19
  | .SRM_FLD_CTRL => 20
  | .SRM_FLD_CLEAR => 21
  | .SRM_FLD_ERR => 22
  | .SRM_FLD_CE => 23
  | .SRM_FLD_UE => 24
  | .LPD_DEV_STATUS => 25
  | .LPD_DEV_CE => 26
  | .LPD_DEV_UE => 27
  | .LPD_DEV_ERR => 28
  | .LPD_SCRUB => 29
  | .LPD_QUOTA => 30
  | .LPD_ALLOC => 31
  | .MMU_SLOT_ROOT => 32
  | .MMU_SLOT_INVAL => 33
  | .MMU_FLD_FAULT => 34
  | .MMU_FLD_FAULT_VA => 35
  | .MMU_FLD_MISS => 36
  | .MMU_FLD_LATE => 37
  | .MMU_FLD_FAULTS => 38
  | .MMU_TIMEOUT => 39
  | .MOV_MV_STATUS => 40
  | .MOV_MV_DONE => 41
  | .MOV_MV_HEAD => 42
  | .MOV_FLD_STAGE => 43
  | .MOV_FLD_CMD => 44
  | .MOV_FLD_CRING_BASE => 45
  | .MOV_FLD_CRING_PTR => 46
  | .MOV_FLD_BYTES => 47
  | .MOV_FLD_LATE => 48
  | .MOV_FLD_AUDIT => 49
  | .MOV_FLD_REJECT => 50
  | .MSH_ROT => 51
  | .MSH_MOD_REPAIR => 52
  | .MSH_MOD_SHIP => 53
  | .MSH_FLD_STATE => 54
  | .MSH_FLD_CMD => 55
  | .MSH_FLD_STALE => 56
  | .MSH_FLD_FLIT_ERR => 57
  | .MSH_COL_MAP => 58
  | .LNK_VERSION => 59
  | .LNK_LINK_CFG => 60
  | .LNK_LINK_STATUS => 61
  | .LNK_LINK_DELAY => 62
  | .LNK_LINK_CAUSE => 63
  | .LNK_LINK_RETX => 64
  | .LNK_LINK_RETRAIN => 65
  | .LNK_LINK_AUDIT => 66
  | .LNK_LINK_PDROP => 67
  | .LNK_LINK_SWAP => 68
  | .LNK_LANE_STATUS => 69
  | .LNK_LANE_FEC_CORR => 70
  | .LNK_LANE_FEC_UNC => 71
  | .DCK_CTRL => 72
  | .DCK_STATUS => 73
  | .DCK_CMD_CTRL => 74
  | .DCK_CMD_TIME => 75
  | .DCK_FW => 76
  | .DCK_SWAP_CNT => 77
  | .DCK_LOSSY_CNT => 78
  | .DCK_REJECT_CNT => 79
  | .DCK_FACE_PLAN => 80
  | .DCK_CMD_BUF => 81
  | .DCK_PATH => 82
  | .DCK_TAP_IN => 83
  | .DCK_TAP_OUT => 84
  | .DCK_FACE_MAP => 85
  | .SRV_STATUS => 86
  | .SRV_CFG => 87
  | .SRV_HV => 88
  | .SRV_AXIS => 89
  | .SRV_SAT_CNT => 90
  | .SRV_LOST_CNT => 91
  | .SRV_ENG_MISS => 92
  | .SRV_FAULT_CNT => 93
  | .RTE_MACHINE => 94
  | .RTE_COORD => 95
  | .RTE_LINK => 96
  | .RTE_SLICE => 97
  | .RTE_SLICE_BOX => 98
  | .RTE_SLICE_HOP => 99
  | .RTE_SLICE_COMMIT => 100
  | .RTE_SLICE_SUBST => 101
  | .RTE_SLICE_PEER => 102
  | .RTE_FLD_OWNER => 103
  | .RTE_TRANSIT_DROP => 104
  | .RTE_FILTER_DROP => 105
  | .RTE_NOSLICE_DROP => 106
  | .RTE_NOROUTE => 107
  | .FTK_PERIOD => 108
  | .FTK_NEXT => 109
  | .FTK_CHANGE_AT => 110
  | .FTK_ANCHOR => 111
  | .FTK_TICKS => 112
  | .FTK_LAST => 113
  | .TIM_NOW => 114
  | .TIM_CTRL => 115
  | .TIM_STATUS => 116
  | .TIM_OFFSET => 117
  | .TIM_RATE => 118
  | .TIM_HRN_CFG => 119
  | .TIM_HRN_TIME => 120
  | .TIM_HRN_TICK => 121
  | .TIM_HRN_ARM => 122
  | .TIM_PTP_CTRL => 123
  | .TIM_TSQ_TIME => 124
  | .TIM_TSQ_INFO => 125
  | .TIM_TSQ_POP => 126
  | .TIM_TSQ_DROP => 127
  | .TIM_SYNC_LOSS => 128
  | .TIM_TICKIN_ERR => 129
  | .TIM_STEPS => 130
  | .FEI_PORT_STATUS => 131
  | .FEI_PORT_ADDR => 132
  | .FEI_PORT_IP => 133
  | .FEI_PORT_DROP => 134
  | .FEI_PORT_REFUSED => 135
  | .FEI_CONN_CFG => 136
  | .FEI_CONN_PSN => 137
  | .FEI_CONN_PEER => 138
  | .FEI_CONN_DMAC => 139
  | .FEI_CONN_SQ => 140
  | .FEI_CONN_CQ => 141
  | .FEI_CONN_IDX => 142
  | .FEI_CONN_CMD => 143
  | .FEI_CONN_RETX => 144
  | .FEI_CONN_BADDB => 145
  | .JOB_CFG => 146
  | .JOB_COUNT => 147
  | .JOB_CMD => 148
  | .JOB_SLOT_A => 149
  | .JOB_SLOT_B => 150
  | .INT_MODE => 151
  | .INT_STATUS => 152
  | .INT_BUDGET => 153
  | .INT_SAMPLE => 154
  | .INT_RATE => 155
  | .INT_LAMBDA => 156
  | .INT_LAMBDA_OBS => 157
  | .INT_UNDET => 158
  | .INT_TEST => 159
  | .INT_LIB => 160
  | .INT_SVC_PEND => 161
  | .INT_SVC_COND => 162
  | .INT_FLD_TEST => 163
  | .INT_FLD_LAST => 164
  | .INT_FLD_PASS => 165
  | .INT_FLD_FAIL => 166
  | .INT_FLD_REC_FAIL => 167
  | .INT_FLD_REC_SRC => 168
  | .PWR_BUDGET => 169
  | .PWR_CONV => 170
  | .PWR_IDLE => 171
  | .PWR_STATUS => 172
  | .PWR_FRAME => 173
  | .PWR_CLOCK => 174
  | .PWR_TEMP => 175
  | .PWR_AUDIT => 176
  | .PWR_FEED_LOSS => 177
  | .PWR_THROTTLE => 178
  | .PWR_OVERDRAW => 179
  | .PWR_SLOT_LIMIT => 180
  | .PWR_SLOT_IDLE => 181
  | .PWR_SLOT_STATE => 182
  | .CAL_CTRL => 183
  | .CAL_STATUS => 184
  | .CAL_MREF => 185
  | .CAL_GROUP => 186
  | .CAL_CMD => 187
  | .CAL_FUSE => 188
  | .CAL_UNTRACED_H => 189
  | .CAL_FAIL_CNT => 190
  | .CAL_TRIM => 191
  | .MET_STATUS => 192
  | .MET_SWID => 193
  | .MET_VERSION => 194
  | .MET_EVT_CNT => 195
  | .MET_FEED_A => 196
  | .MET_FEED_B => 197
  | .MET_UNASSIGNED => 198
  | .MET_LOG_PTR => 199
  | .MET_LOG_CURSOR => 200
  | .MET_LOG_GAP => 201
  | .MET_REJECT => 202
  | .MET_SLOT_E => 203
  | .MET_LOG_WIN => 204
  | .FWU_STATUS => 205
  | .FWU_SECVER => 206
  | .FWU_VERSION => 207
  | .FWU_SETTINGS => 208
  | .FWU_CFG => 209
  | .FWU_CMD => 210
  | .FWU_IMG => 211
  | .FWU_BUF => 212
  | .FWU_ATT_NONCE => 213
  | .FWU_ATT_CMD => 214
  | .FWU_ATT_WIN => 215
  | .FWU_MET_CERT => 216
  | .FWU_REVERTS => 217
  | .FWU_FLASH_ERR => 218
  | .EVR_NEXT => 219
  | .EVR_OLDEST => 220
  | .EVR_PERM_FIRST => 221
  | .EVR_PERM_CNT => 222
  | .EVR_CURSOR => 223
  | .EVR_WIN_INFO => 224
  | .EVR_RATE => 225
  | .EVR_CLEAR => 226
  | .EVR_NOTE_DATA => 227
  | .EVR_NOTE_CMD => 228
  | .EVR_SUPPR_CNT => 229
  | .EVR_NOTE_REFUSED => 230
  | .EVR_AUDIT => 231
  | .EVR_WIN => 232
  | .MGT_STATUS => 233
  | .MGT_LOCK => 234
  | .MGT_CFG => 235
  | .MGT_NET => 236
  | .MGT_KEY => 237
  | .MGT_LINE_ADDR => 238
  | .MGT_LINE_CMD => 239
  | .MGT_LINE_DATA => 240
  | .MGT_BADTAG => 241
  | .MGT_STALE => 242
  | .MGT_DROP => 243

/-- Registers, part 1. -/
def Reg.part1 : List Reg :=
  [.SEQ_SLOT_CFG, .SEQ_NEXT, .SEQ_FRAME, .SEQ_STATUS, .SEQ_SET_BASE, .SEQ_LIVE, .SEQ_FAULT, .SEQ_FAULT_ADDR, .SEQ_FLD_LOAD, .SEQ_FLD_XDROP, .SEQ_FLD_XSUPER, .SEQ_FLD_ECC, .TEN_FLD_CTRL, .TEN_FLD_SR_SEED, .TEN_FLD_INJECT, .TEN_FLD_LAST, .TEN_FLD_MMA_MISS, .TEN_FLD_VEC_MISS, .TEN_FLD_NONFINITE, .TEN_FLD_ACC_ECC, .SRM_FLD_CTRL, .SRM_FLD_CLEAR, .SRM_FLD_ERR, .SRM_FLD_CE, .SRM_FLD_UE, .LPD_DEV_STATUS, .LPD_DEV_CE, .LPD_DEV_UE, .LPD_DEV_ERR, .LPD_SCRUB, .LPD_QUOTA, .LPD_ALLOC, .MMU_SLOT_ROOT, .MMU_SLOT_INVAL, .MMU_FLD_FAULT, .MMU_FLD_FAULT_VA, .MMU_FLD_MISS, .MMU_FLD_LATE, .MMU_FLD_FAULTS, .MMU_TIMEOUT, .MOV_MV_STATUS, .MOV_MV_DONE, .MOV_MV_HEAD, .MOV_FLD_STAGE, .MOV_FLD_CMD, .MOV_FLD_CRING_BASE, .MOV_FLD_CRING_PTR, .MOV_FLD_BYTES, .MOV_FLD_LATE, .MOV_FLD_AUDIT]

/-- Registers, part 2. -/
def Reg.part2 : List Reg :=
  [.MOV_FLD_REJECT, .MSH_ROT, .MSH_MOD_REPAIR, .MSH_MOD_SHIP, .MSH_FLD_STATE, .MSH_FLD_CMD, .MSH_FLD_STALE, .MSH_FLD_FLIT_ERR, .MSH_COL_MAP, .LNK_VERSION, .LNK_LINK_CFG, .LNK_LINK_STATUS, .LNK_LINK_DELAY, .LNK_LINK_CAUSE, .LNK_LINK_RETX, .LNK_LINK_RETRAIN, .LNK_LINK_AUDIT, .LNK_LINK_PDROP, .LNK_LINK_SWAP, .LNK_LANE_STATUS, .LNK_LANE_FEC_CORR, .LNK_LANE_FEC_UNC, .DCK_CTRL, .DCK_STATUS, .DCK_CMD_CTRL, .DCK_CMD_TIME, .DCK_FW, .DCK_SWAP_CNT, .DCK_LOSSY_CNT, .DCK_REJECT_CNT, .DCK_FACE_PLAN, .DCK_CMD_BUF, .DCK_PATH, .DCK_TAP_IN, .DCK_TAP_OUT, .DCK_FACE_MAP, .SRV_STATUS, .SRV_CFG, .SRV_HV, .SRV_AXIS, .SRV_SAT_CNT, .SRV_LOST_CNT, .SRV_ENG_MISS, .SRV_FAULT_CNT, .RTE_MACHINE, .RTE_COORD, .RTE_LINK, .RTE_SLICE, .RTE_SLICE_BOX, .RTE_SLICE_HOP]

/-- Registers, part 3. -/
def Reg.part3 : List Reg :=
  [.RTE_SLICE_COMMIT, .RTE_SLICE_SUBST, .RTE_SLICE_PEER, .RTE_FLD_OWNER, .RTE_TRANSIT_DROP, .RTE_FILTER_DROP, .RTE_NOSLICE_DROP, .RTE_NOROUTE, .FTK_PERIOD, .FTK_NEXT, .FTK_CHANGE_AT, .FTK_ANCHOR, .FTK_TICKS, .FTK_LAST, .TIM_NOW, .TIM_CTRL, .TIM_STATUS, .TIM_OFFSET, .TIM_RATE, .TIM_HRN_CFG, .TIM_HRN_TIME, .TIM_HRN_TICK, .TIM_HRN_ARM, .TIM_PTP_CTRL, .TIM_TSQ_TIME, .TIM_TSQ_INFO, .TIM_TSQ_POP, .TIM_TSQ_DROP, .TIM_SYNC_LOSS, .TIM_TICKIN_ERR, .TIM_STEPS, .FEI_PORT_STATUS, .FEI_PORT_ADDR, .FEI_PORT_IP, .FEI_PORT_DROP, .FEI_PORT_REFUSED, .FEI_CONN_CFG, .FEI_CONN_PSN, .FEI_CONN_PEER, .FEI_CONN_DMAC, .FEI_CONN_SQ, .FEI_CONN_CQ, .FEI_CONN_IDX, .FEI_CONN_CMD, .FEI_CONN_RETX, .FEI_CONN_BADDB, .JOB_CFG, .JOB_COUNT, .JOB_CMD, .JOB_SLOT_A]

/-- Registers, part 4. -/
def Reg.part4 : List Reg :=
  [.JOB_SLOT_B, .INT_MODE, .INT_STATUS, .INT_BUDGET, .INT_SAMPLE, .INT_RATE, .INT_LAMBDA, .INT_LAMBDA_OBS, .INT_UNDET, .INT_TEST, .INT_LIB, .INT_SVC_PEND, .INT_SVC_COND, .INT_FLD_TEST, .INT_FLD_LAST, .INT_FLD_PASS, .INT_FLD_FAIL, .INT_FLD_REC_FAIL, .INT_FLD_REC_SRC, .PWR_BUDGET, .PWR_CONV, .PWR_IDLE, .PWR_STATUS, .PWR_FRAME, .PWR_CLOCK, .PWR_TEMP, .PWR_AUDIT, .PWR_FEED_LOSS, .PWR_THROTTLE, .PWR_OVERDRAW, .PWR_SLOT_LIMIT, .PWR_SLOT_IDLE, .PWR_SLOT_STATE, .CAL_CTRL, .CAL_STATUS, .CAL_MREF, .CAL_GROUP, .CAL_CMD, .CAL_FUSE, .CAL_UNTRACED_H, .CAL_FAIL_CNT, .CAL_TRIM, .MET_STATUS, .MET_SWID, .MET_VERSION, .MET_EVT_CNT, .MET_FEED_A, .MET_FEED_B, .MET_UNASSIGNED, .MET_LOG_PTR]

/-- Registers, part 5. -/
def Reg.part5 : List Reg :=
  [.MET_LOG_CURSOR, .MET_LOG_GAP, .MET_REJECT, .MET_SLOT_E, .MET_LOG_WIN, .FWU_STATUS, .FWU_SECVER, .FWU_VERSION, .FWU_SETTINGS, .FWU_CFG, .FWU_CMD, .FWU_IMG, .FWU_BUF, .FWU_ATT_NONCE, .FWU_ATT_CMD, .FWU_ATT_WIN, .FWU_MET_CERT, .FWU_REVERTS, .FWU_FLASH_ERR, .EVR_NEXT, .EVR_OLDEST, .EVR_PERM_FIRST, .EVR_PERM_CNT, .EVR_CURSOR, .EVR_WIN_INFO, .EVR_RATE, .EVR_CLEAR, .EVR_NOTE_DATA, .EVR_NOTE_CMD, .EVR_SUPPR_CNT, .EVR_NOTE_REFUSED, .EVR_AUDIT, .EVR_WIN, .MGT_STATUS, .MGT_LOCK, .MGT_CFG, .MGT_NET, .MGT_KEY, .MGT_LINE_ADDR, .MGT_LINE_CMD, .MGT_LINE_DATA, .MGT_BADTAG, .MGT_STALE, .MGT_DROP]

/-- Every register. -/
def Reg.all : List Reg := Reg.part1 ++ Reg.part2 ++ Reg.part3 ++ Reg.part4 ++ Reg.part5

/-- How many copies of the register there are. -/
def Reg.count (r : Reg) : Nat := (r.dims.map (·.1)).foldl (· * ·) 1

/-- Offset, from the first copy, of the copy with the given index. -/
def Reg.indexOff : List (Nat × Nat) → Nat → Nat
  | [], _ => 0
  | (_, st) :: rest, i =>
    let inner := (rest.map (·.1)).foldl (· * ·) 1
    (i / inner) * st + Reg.indexOff rest (i % inner)

/-- Offset of a register in set-up space, R484. -/
def Reg.addr (r : Reg) (i : Nat) : Nat := r.block.base + r.off + Reg.indexOff r.dims i

/-- The copy of a repeated register that covers a byte offset (counted from the first copy), with the remainder. -/
def Reg.locate : List (Nat × Nat) → Nat → Option (Nat × Nat)
  | [], o => some (0, o)
  | (n, st) :: rest, o =>
    let q := o / st
    let inner := (rest.map (·.1)).foldl (· * ·) 1
    if q < n then
      match Reg.locate rest (o % st) with
      | some (i, rem) => some (q * inner + i, rem)
      | none => none
    else none

/-- The register, its index and the byte within it at an offset of set-up space; none where no register lies. -/
def Reg.find (offset : Nat) : Option (Reg × Nat × Nat) :=
  Reg.all.findSome? fun r =>
    let b := r.block.base + r.off
    if offset < b then none
    else match Reg.locate r.dims (offset - b) with
      | some (i, rem) => if rem < r.bytes then some (r, i, rem) else none
      | none => none

/-- The block whose window holds an offset, Table 22.1. -/
def Block.at (offset : Nat) : Option Block :=
  Block.all.find? fun b => b.base ≤ offset && offset < b.base + b.window

/-- A register's value at reset: its fields' reset values in their places, with the two fields whose reset value
depends on the index (DCK_FACE_MAP.PHYS is the pair number q, FEI_CONN_CFG.LOCAL_QPN is 0x100 + n). -/
def Reg.resetVal (r : Reg) (i : Nat) : Nat :=
  let base := r.fields.foldl (fun a f => a + f.rst * 2 ^ f.lo) 0
  match r with
  | .DCK_FACE_MAP => base + i % 48
  | .FEI_CONN_CFG => base + (0x100 + i) * 2 ^ 40
  | _ => base

end Sys2Proof.Machine
end

