-- ==== Sys2Proof/Machine/State.lean ====
section
/-!
DEFINITION. Sys2Proof/Machine/State.lean: the state of the module as plain data: every register of the manual (`regs`),
the memories, and beside them what the blocks hold that no register shows. Sparse parts are lists of (key, value)
pairs in the canonical form of Machine/Map.lean; what an unlisted key reads as stands with each field.
-/
namespace Sys2Proof.Machine

/-! ## The recorder, chapter 19 -/

/-- A recorder record, Table 19.1. -/
structure EvRec where
  seq : Nat
  time : Nat
  code : Nat
  source : Nat
  opened : Bool
  clamped : Bool
  suppressed : Bool
  perm : Bool
  note : Bool
  rep : Nat
  loc : Nat
  data : Nat
deriving DecidableEq, Repr

/-- Suppressed occurrences of one code of one source within one second, R439 and R440: those of the first. -/
structure Suppressed where
  second : Nat
  code : Nat
  source : Nat
  loc : Nat
  data : Nat
  time : Nat
  count : Nat
deriving DecidableEq, Repr

/-- Records opened by one code of one source within one second, R439. -/
structure EvCount where
  second : Nat
  code : Nat
  source : Nat
  count : Nat
deriving DecidableEq, Repr

/-- The event recorder, R432 to R447: the circulating area newest first, the permanent area oldest first. -/
structure Recorder where
  circ : List EvRec
  perm : List EvRec
  permFirst : Nat
  next : Nat
  counts : List EvCount
  supp : List Suppressed
  noteSecond : Nat
  notes : Nat
  rateSecond : Nat
  rateOld : Nat
  window : List (Option EvRec)
deriving DecidableEq, Repr

/-! ## Links and lanes, chapter 8 -/

/-- A piece of a packet on its way to a link: its VC, its place in the packet, its bytes, the packet's slice, and the identifier under
which a time-stamp of the packet's departure is asked for (R303). -/
structure TxFrame where
  vc : Nat
  sop : Bool
  eop : Bool
  payload : List Byte
  slice : Nat
  ident : Option Nat
deriving DecidableEq, Repr

/-- A sequenced frame in the replay buffer: its sequence number, its kind, and how often it was resent. -/
structure SentFrame where
  seq : Nat
  kind : Nat
  frame : TxFrame
  resent : Nat
deriving DecidableEq, Repr

/-- A value for each of the four virtual channels. -/
structure Vc4 (α : Type) where
  v0 : α
  v1 : α
  v2 : α
  v3 : α
deriving DecidableEq, Repr

/-- The value of a virtual channel. -/
def Vc4.get {α : Type} (x : Vc4 α) (v : Nat) : α :=
  match v with
  | 0 => x.v0
  | 1 => x.v1
  | 2 => x.v2
  | _ => x.v3

/-- Change the value of a virtual channel. -/
def Vc4.upd {α : Type} (x : Vc4 α) (v : Nat) (g : α → α) : Vc4 α :=
  match v with
  | 0 => { x with v0 := g x.v0 }
  | 1 => { x with v1 := g x.v1 }
  | 2 => { x with v2 := g x.v2 }
  | _ => { x with v3 := g x.v3 }

/-- The same value on every virtual channel. -/
def Vc4.all {α : Type} (a : α) : Vc4 α := ⟨a, a, a, a⟩

/-- A link beside its registers. Sending: frames queued, the VC in service and whether it is inside a packet, the next
sequence number, the replay buffer, frames first sent (S), credits received (C) and in hand (A), the return value last
accepted, and the frames each slice has spent of its budget this tick. Receiving: the sequence number expected, frames
held out of order, since when a gap is open and when NAK was last sent, frames received (R), buffered per packet (B)
with the sequence number of the first of them, freed (D), returned (RET) and granted (I). Training: CREDIT_INIT received
from the peer and sent to it, whether the peer has left UP (R218), failed retrains, and since when the first of its lanes has light in the
present training (R209). Closing: a
path command closes the link (R231). The lane that carried the latest frame (R199), and whether an AUDIT frame waits for room in the
replay buffer (R213). -/
structure Link where
  queue : Vc4 (List TxFrame)
  cur : Nat
  mid : Bool
  seq : Nat
  replay : List SentFrame
  sent : Vc4 Nat
  credRecv : Vc4 Nat
  credHand : Vc4 Nat
  retSeen : Vc4 Nat
  used : List (Nat × Nat)
  expect : Nat
  hold : List LinkFrame
  gapSince : Option Nat
  nakAt : Option Nat
  recv : Vc4 Nat
  buffered : Vc4 (List TxFrame)
  heldSeq : Vc4 Nat
  freed : Vc4 Nat
  returned : Vc4 Nat
  granted : Vc4 Nat
  creditIn : Bool
  creditOut : Bool
  peerLeft : Bool
  failures : Nat
  litAt : Option Nat
  pathClosing : Bool
  turn : Nat
  auditDue : Bool
deriving DecidableEq, Repr

/-- A link that has carried nothing. -/
def Link.init : Link :=
  { queue := .all [], cur := 0, mid := false, seq := 0, replay := [], sent := .all 0, credRecv := .all 0
    credHand := .all 0, retSeen := .all 0, used := [], expect := 0, hold := [], gapSince := none, nakAt := none
    recv := .all 0, buffered := .all [], heldSeq := .all 0, freed := .all 0, returned := .all 0, granted := .all 0
    creditIn := false, creditOut := false, peerLeft := false, failures := 0, litAt := none, pathClosing := false, turn := 0, auditDue := false }

/-- A lane beside its registers: since when light is present and FEC is locked; the IDENT payload received last and how
often in a row; whether its optical engine is out of service; its one-way delay at training, how many ECHO round trips measured it, and
the machine time in the latest ECHO sent (R209); the frames of its link stream that are in no codeword yet (R195); and the corrected
symbols, symbols and uncorrectable codewords of the present audit interval (R196). -/
structure Lane where
  lightAt : Option Nat
  fecAt : Option Nat
  ident : List Byte
  identCount : Nat
  engineOut : Bool
  delay : Option Nat
  echoes : Nat
  echoSent : Option Nat
  line : List LinkFrame
  corrected : Nat
  symbols : Nat
  uncorrectable : Nat
deriving DecidableEq, Repr

/-- A dark lane. -/
def Lane.init : Lane :=
  { lightAt := none, fecAt := none, ident := [], identCount := 0, engineOut := false, delay := none, echoes := 0, echoSent := none, line := [], corrected := 0
    symbols := 0, uncorrectable := 0 }

/-! ## Columns, repairs and positions, chapters 7 and 14 -/

/-- What runs, or is due, on a column: a rotation step (R178), a directed shift, the fencing of a core or of the spare
(Table 7.2). -/
inductive ColKind where
  | rotate | shift | fenceCore | fenceSpare
deriving DecidableEq, Repr

/-- An operation on a column: its field, column and physical row; whether its move has begun and has ended; whether
MSH_FLD_CMD asked for it. -/
structure ColOp where
  field : Nat
  col : Nat
  prow : Nat
  kind : ColKind
  begun : Bool
  moved : Bool
  command : Bool
deriving DecidableEq, Repr

/-- A physical position of a column as in-field test knows it (R348, R354 to R359): the machine time from which its age
counts, since when it is due, since when it is marked, and the test that runs on it (in place or not). -/
structure Position where
  agedFrom : Int
  dueAt : Option Nat
  markedAt : Option Nat
  testing : Option Bool
  fresh : Bool
deriving DecidableEq, Repr

/-- A position that is neither due nor marked. -/
def Position.init : Position := { agedFrom := 0, dueAt := none, markedAt := none, testing := none, fresh := false }

/-! ## Jobs and the front-end interface, chapter 13 -/

/-- A completion as it waits to be written, Table 13.4; PHASE, SQ_HEAD and a FRAME that no cause names are taken when it is
written. -/
structure Cpl where
  tag : Nat
  job : Nat
  opcode : Nat
  status : Nat
  cause : Nat
  frame : Option Nat
  detail : Nat
  held : Nat
deriving DecidableEq, Repr

/-- What an operation on a connection serves: a mover's request (its tag), a read of the submission ring, the snapshot of a
STATUS (its descriptor's number), a completion, a notification. -/
inductive FeUse where
  | mover (tag : Nat)
  | fetch
  | status (work : Nat)
  | completion
  | notify
deriving DecidableEq, Repr

/-- An RDMA operation that the module issues (R308): a READ with remote key, address and length; a WRITE with its bytes; a WRITE with
immediate of length zero. -/
inductive FeOp where
  | read (rkey addr len : Nat)
  | write (rkey addr : Nat) (data : List Byte)
  | notify (imm : Nat)
deriving DecidableEq, Repr

/-- An operation that the module has sent on a connection and that is not acknowledged: its first PSN, how many PSNs it
takes, when it was sent last, what it serves, and the operation itself, which may be sent again. -/
structure FeReq where
  psn : Nat
  sentAt : Nat
  packets : Nat
  use : FeUse
  op : FeOp
deriving DecidableEq, Repr

/-- What makes the module send its operations on a connection again: a timeout, a sequence error, an RNR NAK (R311). -/
inductive RetryKind where
  | timeout
  | sequence
  | notReady
deriving DecidableEq, Repr

/-- How often each was met since the latest acknowledgement. -/
structure Retries where
  timeouts : Nat
  sequences : Nat
  notReadies : Nat
deriving DecidableEq, Repr

/-- No retry. -/
def Retries.none : Retries := { timeouts := 0, sequences := 0, notReadies := 0 }

/-- A connection beside its registers: descriptors taken and not started, oldest first, each as its eight words;
completions waiting to be written; operations not acknowledged; writes of
completions and notifications that an error left unacknowledged, to be made again after a reopen (R317); the next PSN to send and to expect; retries made. -/
structure Conn where
  taken : List (List Nat)
  waiting : List Cpl
  reqs : List FeReq
  again : List FeReq
  sendPsn : Nat
  recvPsn : Nat
  retries : Retries
deriving DecidableEq, Repr

/-- A connection that has never been opened. -/
def Conn.init : Conn :=
  { taken := [], waiting := [], reqs := [], again := [], sendPsn := 0, recvPsn := 0, retries := .none }

/-- One part of a COPY (R327) or of an image's fetch: the field whose mover 15 carries it, its posting ID, and, once its
completion is visible, its status, bytes and code. -/
structure Part where
  field : Nat
  ident : Nat
  past : Bool
  status : Nat
  bytes : Nat
  code : Nat
deriving DecidableEq, Repr

/-- A descriptor in progress: its number, connection, job, opcode, tag, words 2 to 7, the parts of a COPY or of an image's
fetch, and whether it has begun its work (a RUN waits for the job's earlier RUN, a COPY for placement). -/
structure Work where
  num : Nat
  conn : Nat
  job : Nat
  opcode : Nat
  tag : Nat
  words : List Nat
  parts : List Part
  begun : Bool
deriving DecidableEq, Repr

/-- A RUN in progress: its first schedule entry and how many it covers; the entry named now (from 0; equal to `entries`
for the rest program), the frames of it already started, the frames advanced past, and the ticks held. -/
structure RunState where
  first : Nat
  entries : Nat
  idx : Nat
  rep : Nat
  frames : Nat
  held : Nat
deriving DecidableEq, Repr

/-- A stop of a job that is due: the status (Table 13.5), cause and detail it is reported with, the frame it names if any, and
the number of the descriptor whose work caused it (none for the RUN in progress, R322). -/
structure StopCause where
  status : Nat
  cause : Nat
  detail : Nat
  frame : Option Nat
  work : Option Nat
deriving DecidableEq, Repr

/-- How far a LOAD is (R324): fields being cleared and image fetched, step stores being loaded, or all loaded. -/
inductive LoadStage where
  | fetching | programs | loaded
deriving DecidableEq, Repr

/-- Who released a job: nobody, a RELEASE or JOB_CMD, or the lapse of LINGER_S. -/
inductive Releasing where
  | no | asked | linger
deriving DecidableEq, Repr

/-- A job, R323 to R335: its id and state; the TAG and home connection of its LOAD and the connections bound to it; the
LOAD's operands; its order of arrival, the reason of the latest failed placement, and whether the
scheduler has tried it since the latest tick; where it is placed (slice, slot,
entry, fields on this module, home module); the frames it holds (the image's first, then save areas and memory map);
the state of its LOAD; the registers that its placement wrote, with what they held before (R281), and the LPDDR frames that each other
member can allocate, by rank; the cause of its pre-emption and whether a RESUME has come; the machine times of LOAD, placement and advance, and the
instants of LOAD, placement and stop; counts; the RUN in progress; the schedule entry running or last run with the frames done of it; a stop or
release that is due; and how a LOAD that has failed will end once its movers have parked (R162, R324). -/
structure Job where
  ident : Nat
  state : JobState
  tag : Nat
  homeConn : Nat
  conns : List Nat
  extent : Nat
  wrap : Nat
  fields : Nat
  prio : Nat
  share : Nat
  frames : Nat
  waitMs : Nat
  imageAddr : Nat
  imageRkey : Nat
  imageLen : Nat
  order : Nat
  reason : Nat
  tried : Bool
  placed : Bool
  slice : Nat
  slot : Nat
  entry : Nat
  owned : List Nat
  home : Nat
  imageFrames : List Nat
  otherFrames : List Nat
  stage : LoadStage
  undo : List (Nat × Nat)
  away : List (Nat × Nat)
  cause : PreCause
  resumeOk : Bool
  loadAt : Nat
  placedAt : Nat
  advancedAt : Nat
  loadTick : Nat
  placedTick : Nat
  stopTick : Nat
  preempts : Nat
  advanced : Nat
  held : Nat
  run : Option RunState
  entryIdx : Nat
  entryRep : Nat
  stopping : Option StopCause
  releasing : Releasing
  failing : Option StopCause
deriving DecidableEq, Repr

/-! ## Spare modules, chapter 11 -/

/-- A hop of an express path: a module, the face by which the light leaves it, and the pairs that it takes there (R222, R280). -/
structure ExpressHop where
  module : Nat
  face : Nat
  pairs : List Nat
deriving DecidableEq, Repr

/-- A link on an express path: its two ends, each a module and its port, the lane groups it takes at each end (as numbers of the port's
groups), the paths of the lanes at each end that it replaces (as deck outputs), and its hops in order. -/
structure ExpressLink where
  fromModule : Nat
  fromPort : Nat
  fromGroups : List Nat
  fromOld : List Nat
  toModule : Nat
  toPort : Nat
  toGroups : List Nat
  toOld : List Nat
  hops : List ExpressHop
deriving DecidableEq, Repr

/-- How far the switch to a spare is (R285). -/
inductive SpareStage where
  | saving | linking | copied
deriving DecidableEq, Repr

/-- A direct link that gives lane groups to links on express paths: its module and port, its link slot, and the groups it keeps. -/
structure PortCut where
  module : Nat
  port : Nat
  slot : Nat
  rest : List Nat
deriving DecidableEq, Repr

/-- A switch to a spare in progress: the slice entry, the departing module, the spare with its entry, what is known of the slice's entry on
each other module, the position that is substituted, the links to the slice's neighbours, those to holders and the copy link, the direct links
that give them lane groups, the hop delay H that the switch leaves (R34), and its stage. -/
structure Spare where
  entry : Nat
  old : Nat
  new : Nat
  newEntry : Nat
  tables : List (Nat × EntryFacts)
  position : Nat × Nat × Nat
  links : List ExpressLink
  holders : List ExpressLink
  copy : ExpressLink
  cuts : List PortCut
  delay : Nat
  stage : SpareStage
deriving DecidableEq, Repr

/-! ## What leaves the module -/

/-- How an UPDATE of the cartridge ends, R411. -/
inductive UpdateResult where
  | activated | imageSignature | authorisation | counter | security
deriving DecidableEq, Repr

/-- Responses of the verification port, Table 17.5. -/
inductive VerReply where
  | ident (serial : Nat) (certificate : List Byte) (swid version secVer evtCnt : Nat) (paired : Option Nat)
  | regs (feedA feedB unassigned : Nat) (slices : List (Nat × Nat))
  | log (entries : List LogEntry)
  | selftest (registers : List Nat) (passed : Bool)
  | update (r : UpdateResult)
  | unknown
deriving DecidableEq, Repr

/-- What the module sends out, newest first in `State.out`; the model's own record of it. -/
inductive Out where
  /-- A packet sent over the mesh. -/
  | packet (p : Packet)
  /-- A link frame sent on a link slot. -/
  | frame (link : Nat) (f : LinkFrame)
  /-- An RDMA READ on a connection: remote key, address, length. -/
  | rdmaRead (conn rkey addr len : Nat)
  /-- An RDMA WRITE on a connection. -/
  | rdmaWrite (conn rkey addr : Nat) (data : List Byte)
  /-- An RDMA WRITE with immediate of length zero on a connection. -/
  | notify (conn imm : Nat)
  /-- A TIME request or reply on a link slot. -/
  | time (link : Nat) (m : TimeMsg)
  /-- A CREDIT_INIT frame with the initial credits that this end grants on a link slot. -/
  | creditInit (link : Nat) (f : LinkFrame) (v0 v1 v2 v3 : Nat)
  /-- A codeword on a lane: its marker and the 640 bytes of the lane's link stream (R195). -/
  | codeword (lane : Nat) (marker : BitVec 20) (payload : List Byte)
  /-- A vote sent to the home module of a slice. -/
  | vote (slice home : Nat) (v : Vote)
  /-- A decision sent to the members and holders of a slice. -/
  | decision (slice : Nat) (d : Decision)
  /-- The saved context and the frames of a slice, copied to a spare module by movers of the control complex. -/
  | contextCopy (module : Nat) (context : SavedSlice) (frames : Memory) (areas : List Nat)
  /-- An MGMT packet's body between the control complexes of a slice, to a module. -/
  | mgmt (module : Nat) (body : MgmtBody)
  /-- A NAK Invalid Request on a connection. -/
  | feNak (conn : Nat)
  /-- A slice-assignment record on its way to the cartridge, with its signature. -/
  | assign (bytes : List Byte)
  /-- A log entry that the cartridge pushes to the module. -/
  | logged (e : LogEntry)
  /-- A signed response of the cartridge's verification port. -/
  | verification (r : VerReply)
  /-- A response of the management port to a station. -/
  | response (station : IpAddr) (bytes : List Byte)
  /-- What the module answers on I3C: acknowledged or not, and the bytes of a read. -/
  | i3c (ack : Bool) (bytes : List Byte)
  /-- An answer to an ARP request or Neighbour Solicitation, on front-end port 0 or 1 or the management Ethernet (2). -/
  | neighbour (port : Nat) (addr : IpAddr)
deriving DecidableEq, Repr

/-- Faults of the model: where the machine stops. Faults of the manual are state (SEQ_FAULT, the codes of Tables 3.12 and 5.4). -/
inductive Fault where
  /-- Raised by no command: the manual gives every command an effect; safe. -/
  | none
deriving DecidableEq, Repr

/-- Refusals of the model: a command without an effect. -/
inductive Refusal where
  /-- Raised by an arm of Dispatch for a command without a meaning, of which there is none; safe. -/
  | notModelled (mnemonic : String)
  /-- Raised by the sequencer's step commands for operands that Table 3.1 rejects at load with the given code, so
  that no step store holds such a step; safe. -/
  | loadRejected (code : Nat)
deriving DecidableEq, Repr

/-- The state of the module. By slice entry, `epochTick` holds the tick at which the epoch rose last, `voteDelays` the hop delay H of the
vote tree in ns where it is known (R34) and `nextDelays` that of the tables that a commit brings into force; `epochDue` lists holder entries whose epoch rises at the next tick (R271), and `votedHolders` those
that have voted since the latest (R270). `mgmtReq` numbers the
requests that this module sends in MGMT packets (R493); `farFields` holds the mask of the fields that a slice owns on another module, by slice × 16,384 + module, as its entry module told it
(R277), `areas` the frames of the save areas of slices of other entry modules, by slice (R325), and `farJobs` the job id and TAG of a slice whose entry module is another one (R398); `lineReads` lists, by global address, the reads of failing lines that other modules
were asked for, each with its answer once it is there: the address of a lost line, or none (R138). `flits` says what the mesh does to the
accesses within the module that come next, in their order; an access beyond the list arrives intact (DESIGN CHOICE, log entry 112). -/
structure State where
  regs : List (Nat × Nat)
  now : Nat
  ups : Nat
  evr : Recorder
  cores : List (Nat × Core)
  mem : Memory
  inject : List (Nat × Option (Nat × Bool))
  slots : List (Nat × Slot)
  mmuCache : List (Nat × List Leaf)
  remotes : List Remote
  moverNext : List (Nat × Nat)
  ccRecord : CcRecord
  nextTable : Nat
  nextTag : Nat
  movers : List (Nat × Mover)
  links : List (Nat × Link)
  lanes : List (Nat × Lane)
  deck : Deck
  axes : List (Nat × Axis)
  time : TimeBlock
  power : Power
  colOps : List ColOp
  rotLast : List (Nat × Nat)
  rotStep : Option Nat
  fencedLinks : List Nat
  flits : List Flit
  staged : List (Nat × Option Nat)
  epochTick : List (Nat × Nat)
  epochDue : List Nat
  votedHolders : List Nat
  voteDelays : List (Nat × Option Nat)
  nextDelays : List (Nat × Option Nat)
  spares : List Spare
  mgmtReq : Nat
  lineReads : List (Nat × Option (Option Nat))
  farFields : List (Nat × Option Nat)
  farJobs : List (Nat × Option (Nat × Nat))
  shares : List (Nat × Nat)
  positions : List (Nat × Position)
  integ : Integrity
  cal : Cal
  meter : Meter
  cart : Cart
  flashA : FlashDev
  flashB : FlashDev
  savedAt : Nat
  fuses : Fuses
  domains : Domains
  access : SetupSide
  saved : List SavedSlice
  areas : List (Nat × List Nat)
  conns : List (Nat × Conn)
  jobs : List Job
  works : List Work
  nextJob : Nat
  nextOrder : Nat
  nextWork : Nat
  nextIdent : Nat
  out : List Out
  free : Nat
  pending : List Instr
deriving DecidableEq, Repr

/-! ## Reset -/

/-- A recorder without records. -/
def Recorder.empty : Recorder :=
  { circ := [], perm := [], permFirst := 0, next := 0, counts := [], supp := [], noteSecond := 0, notes := 0, rateSecond := 0
    rateOld := 0, window := List.replicate 8 none }

/-- A memory that nothing has written: LPDDR reads as zero (R131), and bonded SRAM is undefined until it is cleared (R124). -/
def Memory.init : Memory :=
  { cells := [], marks := [], upset := [], tiles := [], fldUndef := [], bankUndef := [], lineDef := [], lineUndef := [], owner := [] }

/-- The module right after reset, before its first tick: every register at its reset value (none is listed in `regs`), every domain
supplied and out of reset, memory with nothing listed, no job, no record, and no command waiting (log entry 1). -/
def State.reset : State :=
  { regs := [], now := 0, ups := 0, evr := Recorder.empty, cores := [], mem := Memory.init, inject := [], slots := [], mmuCache := []
    remotes := [], moverNext := [], ccRecord := { pages := [], frames := [], fields := [], routes := [] }, nextTable := 0, nextTag := 0, movers := []
    links := [], lanes := [], deck := Deck.init, axes := [], time := TimeBlock.init, power := Power.init, colOps := []
    rotLast := [], rotStep := none, fencedLinks := [], flits := []
    staged := [], epochTick := [], epochDue := [], votedHolders := [], voteDelays := [], nextDelays := [], spares := [], mgmtReq := 0, lineReads := [], farFields := [], farJobs := [], shares := [], positions := [], integ := Integrity.init, cal := Cal.init, meter := Meter.init
    cart := Cart.init, flashA := FlashDev.init, flashB := FlashDev.init, savedAt := 0, fuses := Fuses.init, domains := Domains.init
    access := SetupSide.init, saved := [], areas := [], conns := [], jobs := [], works := [], nextJob := 1, nextOrder := 0, nextWork := 0
    nextIdent := 0, out := [], free := 1, pending := [] }

end Sys2Proof.Machine
end

