-- ==== Sys2Proof/Machine/Ops.lean ====
section
/-!
DEFINITION. Sys2Proof/Machine/Ops.lean: the named operations over registers, counters, the recorder and the clock,
which every meaning is written with.
-/
namespace Sys2Proof.Machine

/-! ## Registers -/

/-- Key of a register in `State.regs`; no register has 65,536 copies, so keys of two registers never meet. -/
def regKey (r : Reg) (i : Nat) : Nat := r.code * 65536 + i % 65536

/-- What an unlisted register key reads as: the register's reset value. -/
def regDflt (k : Nat) : Nat :=
  match Reg.all[k / 65536]? with
  | some r => r.resetVal (k % 65536)
  | none => 0

/-- The value a register holds. -/
def State.rd (s : State) (r : Reg) (i : Nat := 0) : Nat := mapGet regDflt s.regs (regKey r i)

/-- Set a register, cut to its width. -/
def State.wr (s : State) (r : Reg) (i : Nat) (v : Nat) : State :=
  { s with regs := mapSet regDflt (regKey r i) (v % 2 ^ (8 * r.bytes)) s.regs }

/-- A field of a register. -/
def State.fld (s : State) (f : Fld) (i : Nat := 0) : Nat := bits (s.rd f.reg i) f.lo f.w

/-- A one-bit field as a truth value. -/
def State.flag (s : State) (f : Fld) (i : Nat := 0) : Bool := s.fld f i == 1

/-- Set a field of a register. -/
def State.setFld (s : State) (f : Fld) (i : Nat) (v : Nat) : State :=
  s.wr f.reg i (setBits (s.rd f.reg i) f.lo f.w v)

/-- Put a register back to its reset value. -/
def State.resetReg (s : State) (r : Reg) (i : Nat) : State := s.wr r i (r.resetVal i)

/-! ## Time -/

/-- One nanosecond of machine time, R287. -/
def ns : Nat := 65536

/-- One second of machine time. -/
def second : Nat := 1000000000 * ns

/-- The whole second of machine time. -/
def State.sec (s : State) : Nat := s.now / second

/-- Signed difference of two machine times, R291. -/
def timeDiff (a b : Nat) : Int := signed 64 (a + 2 ^ 64 - b % 2 ^ 64)

/-- Has the tick that a value names passed? A value names the first tick at or after it, and a tick has passed when its signed difference from
now is zero or less (R290): so when the value does not lie after the latest tick. -/
def State.passed (s : State) (t : Nat) : Bool := decide (timeDiff t (s.rd .FTK_LAST) ≤ 0)

/-- The tick period in force, ns. -/
def State.period (s : State) : Nat := s.fld F.FTK_PERIOD_PERIOD

/-- The tick count. -/
def State.ticks (s : State) : Nat := s.rd .FTK_TICKS

/-- Time elapsed, in units of 2⁻¹⁶ ns, as R295 measures it: ticks elapsed × P, and what has passed since the latest tick. A step of
machine time does not show in it, and it does not wrap. -/
def State.up (s : State) : Nat := s.ups + (min (max (timeDiff s.now (s.rd .FTK_LAST)) 0) (s.period * ns : Nat)).toNat

/-- Time elapsed since an instant, in ns. -/
def State.since (s : State) (t0 : Nat) : Nat := (s.up - t0) / ns

/-! ## The recorder, R432 to R446 -/

/-- A source is privileged below 0x15, R435. -/
def evPrivileged (src : Nat) : Bool := decide (src ≤ 0x14)

/-- Codes of class 0x0 and 0xE are never suppressed, R439. -/
def evUnlimited (code : Nat) : Bool := code / 4096 == 0x0 || code / 4096 == 0xE

/-- Limit on records per code in force in the present second: a write within a second applies from the next,
Table 19.5. -/
def State.evLimit (s : State) : Nat :=
  if s.evr.rateSecond = s.sec + 1 then bits s.evr.rateOld 0 16 else s.fld F.EVR_RATE_LIMIT

/-- Limit on notes in force in the present second. -/
def State.evNoteLimit (s : State) : Nat :=
  if s.evr.rateSecond = s.sec + 1 then bits s.evr.rateOld 16 8 else s.fld F.EVR_RATE_NOTE_LIMIT

/-- Change the open record of a source, code and LOC. -/
def evUpdate (src code loc : Nat) (f : EvRec → EvRec) (l : List EvRec) : List EvRec :=
  l.map fun r => if r.opened && r.source == src && r.code == code && r.loc == loc then f r else r

/-- Change the open record of a source, code and LOC in both areas, R438. -/
def Recorder.update (r : Recorder) (src code loc : Nat) (f : EvRec → EvRec) : Recorder :=
  { r with circ := evUpdate src code loc f r.circ, perm := evUpdate src code loc f r.perm }

/-- Close the open record of a source, code and LOC. -/
def Recorder.close (r : Recorder) (src code loc : Nat) : Recorder :=
  r.update src code loc fun e => { e with opened := false }

/-- The open record of a source, code and LOC. -/
def Recorder.openRec (r : Recorder) (src code loc : Nat) : Option EvRec :=
  r.circ.find? fun e => e.opened && e.source == src && e.code == code && e.loc == loc

/-- Merge one occurrence into a record, R437 and R438. -/
def EvRec.merge (e : EvRec) : EvRec :=
  if e.rep ≥ 65535 then { e with clamped := true } else { e with rep := e.rep + 1 }

/-- Is the write audit of R446 satisfied: the new SEQ is one above the last, and the slot it overwrites is empty or
holds SEQ − 8,192? -/
def Recorder.auditOk (r : Recorder) : Bool :=
  (match r.circ with
   | e :: _ => e.seq + 1 == r.next
   | [] => true) &&
  (match r.circ.drop 8191 with
   | e :: _ => e.seq + 8192 == r.next
   | [] => true)

/-- The SEQ that the audit of R446 expects: one above the last. -/
def Recorder.expected (r : Recorder) : Nat :=
  match r.circ with
  | e :: _ => e.seq + 1
  | [] => r.next

/-- Write a record: SEQ is assigned in order, the circulating area keeps the latest 8,192 and the permanent area the
first 1,024 of privileged sources (R432, R434); an open record whose circulating slot is overwritten closes first
(Table 19.5). -/
def Recorder.write (r : Recorder) (e : EvRec) : Recorder :=
  let keep := evPrivileged e.source && !e.note && decide (r.perm.length < 1024)
  let e := { e with seq := r.next, perm := keep }
  let perm := match (r.circ.drop 8191).head? with
    | some x => r.perm.map fun p => if p.seq == x.seq then { p with opened := false } else p
    | none => r.perm
  { r with
    circ := (e :: r.circ).take 8192
    perm := if keep then perm ++ [e] else perm
    permFirst := if keep && r.perm.isEmpty then r.next else r.permFirst
    next := r.next + 1 }

/-- A record before it is written. -/
def EvRec.fresh (time src code loc data : Nat) (isOpen : Bool) : EvRec :=
  { seq := 0, time := time, code := code, source := src, opened := isOpen, clamped := false, suppressed := false,
    perm := false, note := false, rep := 1, loc := loc, data := data }

/-- Records opened so far in a second by a code of a source. -/
def evCountOf (sec src code : Nat) : List EvCount → Nat
  | [] => 0
  | c :: cs => if c.second == sec && c.source == src && c.code == code then c.count else evCountOf sec src code cs

/-- Count one more record opened. -/
def evCountUp (sec src code : Nat) (cs : List EvCount) : List EvCount :=
  { second := sec, code := code, source := src, count := evCountOf sec src code cs + 1 } ::
    cs.filter fun c => !((c.second != sec) || (c.source == src && c.code == code))

/-- Count one suppressed occurrence, R439. -/
def evSuppress (sec time src code loc data : Nat) : List Suppressed → List Suppressed
  | [] => [{ second := sec, code := code, source := src, loc := loc, data := data, time := time, count := 1 }]
  | u :: us =>
    if u.second == sec && u.source == src && u.code == code then { u with count := u.count + 1 } :: us
    else u :: evSuppress sec time src code loc data us

/-- One occurrence handed to the recorder: it merges, opens a record, or is suppressed (R437 to R439). HOLD records
(code 0x1001) merge for as long as their run lasts, R437. -/
def Recorder.occur (r : Recorder) (time sec limit src code loc data : Nat) : Recorder :=
  let fits := match r.openRec src code loc with
    | some e => e.data == data && (code == 0x1001 || decide (timeDiff time e.time < second))
    | none => false
  if fits then r.update src code loc EvRec.merge
  else
    let r := r.close src code loc
    if evPrivileged src && !evUnlimited code && decide (limit ≤ evCountOf sec src code r.counts) then
      { r with supp := evSuppress sec time src code loc data r.supp }
    else
      let r := { r with counts := evCountUp sec src code r.counts }
      r.write (EvRec.fresh time src code loc data true)

/-- Count one occurrence in a 48-bit counter register: it sticks at 2^48 − 1 and sets OVF (R445). The truth value says
whether OVF was newly set. -/
def counterUp (v n : Nat) : Nat × Bool :=
  let top := 2 ^ 48 - 1
  let c := bits v 0 48
  if n = 0 then (v, false)
  else if c + n < top then (setBits v 0 48 (c + n), false)
  else (setBits (setBits v 0 48 top) 48 1 1, bits v 48 1 == 0)

/-- The recorder moves on to `r`, with the write audit of R446 where a record was written. -/
def State.recorder (s : State) (r : Recorder) : State :=
  if r.next = s.evr.next ∨ s.evr.auditOk then { s with evr := r }
  else
    let (v, ovf) := counterUp (s.rd .EVR_AUDIT) 1
    let s := s.wr .EVR_AUDIT 0 v
    let r := r.write (EvRec.fresh s.now 0 0x0004 0 s.evr.expected true)
    { s with evr := if ovf then r.write (EvRec.fresh s.now 0 0x0003 0 (Reg.EVR_AUDIT.addr 0) true) else r }

/-- Hand an occurrence to the recorder. -/
def State.log (s : State) (src code loc data : Nat) : State :=
  s.recorder (s.evr.occur s.now s.sec s.evLimit src code loc data)

/-- Close the open record of a source, code and LOC. -/
def State.closeRec (s : State) (src code loc : Nat) : State := { s with evr := s.evr.close src code loc }

/-- Add to a statistics counter; a counter that reaches its limit writes one COUNTER_OVF record (R445). -/
def State.bump (s : State) (r : Reg) (i : Nat := 0) (n : Nat := 1) : State :=
  let (v, ovf) := counterUp (s.rd r i) n
  let s := s.wr r i v
  if ovf then s.log 0x00 0x0003 0 (r.addr i) else s

/-- A write that a register's own rule ignores and records: REG_REFUSED with the offset and the value (R435, R501). -/
def State.refuse (s : State) (r : Reg) (i v : Nat) : State :=
  s.log r.block.source 0xD001 0 (r.addr i + v % 2 ^ 32 * 2 ^ 32)

/-- Send something out of the module. -/
def State.emit (s : State) (o : Out) : State := { s with out := o :: s.out }

end Sys2Proof.Machine
end

