-- ==== Sys2Proof/Machine/Fe.lean ====
section
/-!
DEFINITION. Sys2Proof/Machine/Fe.lean: the RDMA operations that the module sends on its front-end connections (R308, R310 to
R312, R316): packet sequence numbers, operations not acknowledged, and connections in and out of service.
-/
namespace Sys2Proof.Machine

/-- A connection beside its registers. -/
def State.conn (s : State) (n : Nat) : Conn := mapGet (fun _ => Conn.init) s.conns n

/-- Change a connection. -/
def State.updConn (s : State) (n : Nat) (g : Conn → Conn) : State :=
  { s with conns := mapSet (fun _ => Conn.init) n (g (s.conn n)) s.conns }

/-- STATE of a connection: closed. -/
def connClosed : Nat := 0
/-- Open. -/
def connOpen : Nat := 1
/-- Error. -/
def connError : Nat := 2

/-- STATE of a connection. -/
def State.connState (s : State) (n : Nat) : Nat := s.fld F.FEI_CONN_CFG_STATE n

/-- Is a connection in service, R312? -/
def State.connUp (s : State) (n : Nat) : Bool := decide (n < 1024) && s.connState n == connOpen

/-- Path MTU of a connection in bytes. -/
def State.connMtu (s : State) (n : Nat) : Nat := 1024 * 2 ^ s.fld F.FEI_CONN_CFG_MTU n

/-- An operation as it leaves on a connection. -/
def FeOp.out (n : Nat) : FeOp → Out
  | .read rkey addr len => .rdmaRead n rkey addr len
  | .write rkey addr data => .rdmaWrite n rkey addr data
  | .notify imm => .notify n imm

/-- Send an operation of a length on a connection: it takes one PSN for each packet of the path MTU, and stays outstanding until
it is acknowledged (R311). -/
def State.feSend (s : State) (n len : Nat) (use : FeUse) (o : FeOp) : State :=
  let packets := max 1 (ceilDiv len (s.connMtu n))
  (s.updConn n fun c => { c with
    reqs := c.reqs ++ [{ psn := c.sendPsn, sentAt := s.up, packets := packets, use := use, op := o }]
    sendPsn := (c.sendPsn + packets) % 2 ^ 24 }).emit (o.out n)

/-- An RDMA READ. -/
def State.feRead (s : State) (n rkey addr len : Nat) (use : FeUse) : State :=
  s.feSend n len use (.read rkey addr len)

/-- An RDMA WRITE. -/
def State.feWrite (s : State) (n rkey addr : Nat) (bs : List Byte) (use : FeUse) : State :=
  s.feSend n bs.length use (.write rkey addr bs)

/-- The operation that serves a use has been answered: it is not outstanding, and the retry count starts again. -/
def State.feAnswered (s : State) (n : Nat) (use : FeUse) : State :=
  s.updConn n fun c => { c with reqs := c.reqs.filter (fun r => r.use != use), retries := .none }

end Sys2Proof.Machine
end

