-- ==== Sys2Proof/Machine/Hash.lean ====
section
/-!
DEFINITION. Sys2Proof/Machine/Hash.lean: SHAKE256 of FIPS 202 (Table 0.2) and CRC-64/ECMA-182 (Table 0.2, R110).
-/
namespace Sys2Proof.Machine

/-- Rotate a 64-bit lane left. -/
def rotl64 (x n : Nat) : Nat := ((x <<< n) ||| (x >>> (64 - n))) % 2 ^ 64

/-- The shift register of FIPS 202, algorithm 5, after n steps from 1: its feedback is x⁸ + x⁶ + x⁵ + x⁴ + 1. -/
def keccakShift : Nat → Nat
  | 0 => 1
  | n + 1 => let r := 2 * keccakShift n; if r < 256 then r else r ^^^ 0x171

/-- The constant of a round (algorithm 6): bit 2^j − 1 is the register's output after 7 × round + j steps. -/
def keccakConstant (round : Nat) : Nat :=
  (List.range 7).foldl (fun w j => w + keccakShift (7 * round + j) % 2 * 2 ^ (2 ^ j - 1)) 0

/-- The walk of rho over the lanes x + 5 y from (1, 0) (algorithm 2), which pi steps along (algorithm 3): from each lane the lane it goes to
and by how much it is rotated. -/
def keccakWalk : Nat → Nat → Nat → Nat → List (Nat × Nat × Nat)
  | 0, _, _, _ => []
  | n + 1, t, x, y =>
    let z := (2 * x + 3 * y) % 5
    (y + 5 * z, x + 5 * y, (t + 1) * (t + 2) / 2 % 64) :: keccakWalk n (t + 1) y z

/-- For every lane after pi the lane that it comes from and its rotation; lane 0 stays. -/
def keccakMoves : List (Nat × Nat) :=
  let w := keccakWalk 24 0 1 0
  (List.range 25).map fun i => match w.find? fun m => m.1 == i with
    | some m => m.2
    | none => (0, 0)

/-- A lane of the permutation's state. -/
def laneOf (st : List Nat) (i : Nat) : Nat := st.getD i 0

/-- Theta: every lane takes the parities of the columns on its two sides. -/
def keccakTheta (st : List Nat) : List Nat :=
  let parity := fun (x : Nat) => (List.range 5).foldl (fun p y => p ^^^ laneOf st (x % 5 + 5 * y)) 0
  let sides := (List.range 5).map fun x => parity (x + 4) ^^^ rotl64 (parity (x + 1)) 1
  st.mapIdx fun i v => v ^^^ laneOf sides (i % 5)

/-- Rho and pi together. -/
def keccakMove (st : List Nat) : List Nat := keccakMoves.map fun m => rotl64 (laneOf st m.1) m.2

/-- Chi: a lane and what its two neighbours in the row give. -/
def keccakChi (st : List Nat) : List Nat :=
  st.mapIdx fun i v =>
    let row := i / 5 * 5
    v ^^^ ((laneOf st (row + (i + 1) % 5) ^^^ (2 ^ 64 - 1)) &&& laneOf st (row + (i + 2) % 5))

/-- One round, iota last. -/
def keccakRound (st : List Nat) (round : Nat) : List Nat :=
  (keccakChi (keccakMove (keccakTheta st))).mapIdx fun i v => if i = 0 then v ^^^ keccakConstant round else v

/-- Keccak-f[1600]. -/
def keccakF (st : List Nat) : List Nat := (List.range 24).foldl keccakRound st

/-- Bytes that a block of SHAKE256 takes. -/
def shakeRate : Nat := 136

/-- A padded message enters the state block by block. -/
def shakeAbsorb (msg : List Byte) (blocks : Nat) : List Nat :=
  (List.range blocks).foldl (fun st b =>
    let block := (msg.drop (b * shakeRate)).take shakeRate
    keccakF (st.mapIdx fun i v => if 8 * i < shakeRate then v ^^^ leAt block (8 * i) 8 else v)) (List.replicate 25 0)

/-- Output is taken from the state block by block. -/
def shakeSqueeze : Nat → List Nat → List Byte
  | 0, _ => []
  | more + 1, st =>
    let out := ((st.map (toBytes 8)).flatten).take shakeRate
    if more = 0 then out else out ++ shakeSqueeze more (keccakF st)

/-- SHAKE256: the first n bytes of output over a message; 1111 and the first 1 of the padding follow the message, a last 1 ends it. -/
def shake256 (msg : List Byte) (n : Nat) : List Byte :=
  let blocks := msg.length / shakeRate + 1
  let fill := blocks * shakeRate - msg.length
  let tail := (List.range fill).map fun i => BitVec.ofNat 8 ((if i = 0 then 0x1F else 0) + if i + 1 = fill then 0x80 else 0)
  (shakeSqueeze (ceilDiv n shakeRate) (shakeAbsorb (msg ++ tail) blocks)).take n

/-- CRC-64/ECMA-182 polynomial. -/
def crcPoly : Nat := 0x42F0E1EBA9EA3693

/-- Take the top n bits of a value, highest first, into a CRC-64. -/
def crcBits : Nat → Nat → Nat → Nat
  | 0, _, c => c
  | n + 1, x, c =>
    let top := (c >>> 63) ^^^ (x / 2 ^ n % 2)
    let c' := (c <<< 1) % 2 ^ 64
    crcBits n x (if top % 2 = 1 then c' ^^^ crcPoly else c')

/-- CRC-64/ECMA-182 of a byte string, from an initial value. -/
def crc64From (c : Nat) (bs : List Byte) : Nat := bs.foldl (fun c b => crcBits 8 b.toNat c) c

/-- CRC-64/ECMA-182 of a byte string: initial value zero, no reflection, no final exclusive or. -/
def crc64 (bs : List Byte) : Nat := crc64From 0 bs

end Sys2Proof.Machine
end

