-- ==== Sys2Proof/Machine/Memory.lean ====
section
/-!
DEFINITION. Sys2Proof/Machine/Memory.lean: the offset map of Table 5.1, bytes, lines and tiles of bonded SRAM and
LPDDR with their poison marks (R123, R130), error correction (R122, R130), and Sorrel records (R126 to R128, R337 to
R342).
-/
namespace Sys2Proof.Machine

/-! ## The offset map, R117, R119, R129 -/

/-- What an offset of the module falls in, Table 5.1 and R119. -/
inductive Place where
  | job
  | reserved
  | sram (field window byte : Nat)
  | setup
  | hole
deriving DecidableEq, Repr

/-- First offset of the reserved LPDDR region. -/
def reservedBase : Nat := 0x03B000000000

/-- First offset past LPDDR. -/
def lpddrEnd : Nat := 0x03C000000000

/-- First offset of bonded SRAM. -/
def sramBase : Nat := 0x100000000000

/-- The place of a module offset. -/
def placeOf (o : Nat) : Place :=
  if o < reservedBase then .job
  else if o < lpddrEnd then .reserved
  else if sramBase ≤ o ∧ o < sramBase + 56 * 0x80000000 then
    let r := o - sramBase
    let f := r / 0x80000000
    let w := r % 0x80000000 / 0x400000
    let b := r % 0x400000
    if w < 480 ∧ b < 0x300000 then .sram f w b else .hole
  else if 0x200000000000 ≤ o ∧ o < 0x200004000000 then .setup
  else .hole

/-- Offset of a line of a core window, R119. -/
def sramLine (f w line : Nat) : Nat := sramBase + f * 0x80000000 + w * 0x400000 + line * 64

/-- Device of an LPDDR offset, R129. -/
def deviceOf (o : Nat) : Nat := o / 4096 % 32

/-- Field whose controller drives a device, R11. -/
def deviceField (d : Nat) : Nat := if d < 16 then d / 2 else 48 + (d - 16) / 2

/-- Lines of a core's SRAM. -/
def sramLines : Nat := 49152

/-! ## Bytes -/

/-- The occasion on which a byte's line became undefined and since which nothing has written it; none when it is
defined. -/
def Memory.undefAt (m : Memory) (a : Nat) : Option Nat :=
  let u := mapGet (fun _ => 0) m.lineUndef (a / 64)
  if u ≠ 0 then some u
  else match placeOf a with
  | .sram f _ _ =>
    let n := max (mapGet (fun _ => 1) m.fldUndef f) (mapGet (fun _ => 0) m.bankUndef (a / 65536))
    if n = 0 || mapGet (fun _ => false) m.lineDef (a / 64) then none else some n
  | _ =>
    let n := mapGet (fun _ => 0) m.bankUndef (a / 65536)
    if n = 0 || mapGet (fun _ => false) m.lineDef (a / 64) then none else some n

/-- What an unlisted address reads as: zero, or a free value while its line is undefined (R124, R131, R53). -/
def Memory.unlisted (m : Memory) (a : Nat) : Byte :=
  match m.undefAt a with
  | some n => Config.undefByte n a
  | none => 0

/-- The byte at a module offset. -/
def Memory.byte (m : Memory) (a : Nat) : Byte := mapGet m.unlisted m.cells a

/-- Bytes from a module offset on. -/
def Memory.bytes (m : Memory) (a n : Nat) : List Byte := (List.range n).map fun i => m.byte (a + i)

/-- Set bytes in the cells only. -/
def cellsPut (cells : List Host.Cell) (a : Nat) (bs : List Byte) : List Host.Cell := mapSetList (fun _ => 0) a bs cells

/-- Make the line of an address defined: bytes that nothing has written keep the free values they read as. -/
def Memory.define (m : Memory) (a : Nat) : Memory :=
  match m.undefAt a with
  | some _ =>
    let base := a / 64 * 64
    { m with cells := cellsPut m.cells base (m.bytes base 64),
             lineDef := mapSet (fun _ => false) (a / 64) true m.lineDef,
             lineUndef := mapSet (fun _ => 0) (a / 64) 0 m.lineUndef }
  | none => m

/-- Write bytes that lie within one line; the line takes a poison mark and holds no bit error (R123). -/
def Memory.writeIn (m : Memory) (a : Nat) (bs : List Byte) (mark : Nat) : Memory :=
  let m := m.define a
  { m with cells := cellsPut m.cells a bs,
           marks := mapSet (fun _ => 0) (a / 64) mark m.marks,
           upset := mapSet (fun _ => 0) (a / 64) 0 m.upset }

/-- Write a whole line. -/
def Memory.writeLine (m : Memory) (o : Nat) (bs : List Byte) (mark : Nat) : Memory :=
  let m := { m with lineDef := if (m.undefAt o).isSome then mapSet (fun _ => false) (o / 64) true m.lineDef
                               else m.lineDef,
                     lineUndef := mapSet (fun _ => 0) (o / 64) 0 m.lineUndef }
  { m with cells := cellsPut m.cells (o / 64 * 64) (slice bs 0 64),
           marks := mapSet (fun _ => 0) (o / 64) mark m.marks,
           upset := mapSet (fun _ => 0) (o / 64) 0 m.upset }

/-- Write consecutive whole lines from an offset; bit i of the mask says that line i is poisoned. -/
def Memory.writeLines (m : Memory) (o : Nat) : Nat → List Byte → Nat → Memory
  | 0, _, _ => m
  | n + 1, bs, mask => (m.writeLine o (bs.take 64) (mask % 2)).writeLines (o + 64) n (bs.drop 64) (mask / 2)

/-- The mask of n lines that are all poisoned, or none. -/
def lineMask (n : Nat) (poison : Bool) : Nat := if poison then 2 ^ n - 1 else 0

/-- Fill a line with poisoned data on the n-th occasion: mark 1, and bytes that the manual leaves open (R136, Table
14.2). -/
def Memory.poisonLine (m : Memory) (o n : Nat) : Memory :=
  let b := o / 64 * 64
  { m with cells := mapDelRange b (b + 64) m.cells,
           lineUndef := mapSet (fun _ => 0) (o / 64) n m.lineUndef,
           marks := mapSet (fun _ => 0) (o / 64) 1 m.marks,
           upset := mapSet (fun _ => 0) (o / 64) 0 m.upset }

/-- Poison mark of the line at an offset. -/
def Memory.mark (m : Memory) (o : Nat) : Nat := mapGet (fun _ => 0) m.marks (o / 64)

/-- Set the poison mark of the line at an offset. -/
def Memory.setMark (m : Memory) (o v : Nat) : Memory := { m with marks := mapSet (fun _ => 0) (o / 64) v m.marks }

/-- Side data of the tile at an offset. -/
def Memory.tile (m : Memory) (o : Nat) : TileSide := mapGet (fun _ => TileSide.init) m.tiles (o / 4096)

/-- Set the side data of the tile at an offset. -/
def Memory.setTile (m : Memory) (o : Nat) (t : TileSide) : Memory :=
  { m with tiles := mapSet (fun _ => TileSide.init) (o / 4096) t m.tiles }

/-- Clear the bytes, marks, errors and side data of a range of offsets, aligned to tiles, to zero. -/
def Memory.zeroRange (m : Memory) (lo hi : Nat) : Memory :=
  { m with cells := mapDelRange lo hi m.cells,
           marks := mapDelRange (lo / 64) (hi / 64) m.marks,
           upset := mapDelRange (lo / 64) (hi / 64) m.upset,
           tiles := mapDelRange (lo / 4096) (hi / 4096) m.tiles,
           lineUndef := mapDelRange (lo / 64) (hi / 64) m.lineUndef }

/-- Clear a field's SRAM, R124: zero, mark 0 and a record that is not current in every line, all of them defined. -/
def Memory.clearField (m : Memory) (f : Nat) : Memory :=
  let lo := sramBase + f * 0x80000000
  let hi := lo + 0x80000000
  let m := m.zeroRange lo hi
  { m with fldUndef := mapSet (fun _ => 1) f 0 m.fldUndef,
           bankUndef := mapDelRange (lo / 65536) (hi / 65536) m.bankUndef,
           lineDef := mapDelRange (lo / 64) (hi / 64) m.lineDef }

/-- Clear the SRAM of one core, as a test in place does (R358). -/
def Memory.clearCore (m : Memory) (f core : Nat) : Memory :=
  let lo := sramLine f core 0
  let hi := lo + 0x300000
  let m := m.zeroRange lo hi
  if mapGet (fun _ => 1) m.fldUndef f = 0 then
    { m with bankUndef := mapDelRange (lo / 65536) (hi / 65536) m.bankUndef, lineDef := mapDelRange (lo / 64) (hi / 64) m.lineDef }
  else { m with lineDef := (rangeFrom (lo / 64) sramLines).foldl (fun d l => mapSet (fun _ => false) l true d) m.lineDef }

/-- Make one 64 KiB bank undefined on the n-th occasion, R53. -/
def Memory.undefineBank (m : Memory) (o n : Nat) : Memory :=
  let lo := o / 65536 * 65536
  let hi := lo + 65536
  let m := m.zeroRange lo hi
  { m with bankUndef := mapSet (fun _ => 0) (o / 65536) n m.bankUndef,
           lineDef := mapDelRange (lo / 64) (hi / 64) m.lineDef }

/-- Clear a 2 MiB frame of LPDDR to zero, every line of it defined (R140). -/
def Memory.clearFrame (m : Memory) (k : Nat) : Memory :=
  let lo := k * 2 ^ 21
  let hi := lo + 2 ^ 21
  let m := m.zeroRange lo hi
  { m with bankUndef := mapDelRange (lo / 65536) (hi / 65536) m.bankUndef, lineDef := mapDelRange (lo / 64) (hi / 64) m.lineDef }

/-- Make a 2 MiB frame of LPDDR undefined on the n-th occasion: what the control complex wrote into it has no layout in the manual
(R46). -/
def Memory.undefineFrame (m : Memory) (k n : Nat) : Memory :=
  (rangeFrom (32 * k) 32).foldl (fun m b => m.undefineBank (b * 65536) n) m

/-- The canonical form of the memory's bytes: addresses strictly rising, and no entry equal to what an unlisted
address of a defined line reads as. -/
def Memory.wf (m : Memory) : Bool := mapWf (fun _ => (0 : Byte)) m.cells

/-- Slice id plus one of the owner of an LPDDR frame; 0 for none, R140. -/
def Memory.ownerOf (m : Memory) (frame : Nat) : Nat := mapGet (fun _ => 0) m.owner frame

/-! ## Reading a line -/

/-- What a reader of a line gets: its bytes, the mask of the lines that are poisoned, and whether the read is an uncorrectable error
or a line lost at rest (code DATA_UE). -/
structure LineRead where
  data : List Byte
  mask : Nat
  ue : Bool
deriving DecidableEq, Repr

/-- Is any line read poisoned? -/
def LineRead.poison (r : LineRead) : Bool := r.mask != 0

/-- Capture the first uncorrectable error of a field's SRAM in SRM_FLD_ERR (kind 0 a read, 1 scrub) and record it. -/
def State.sramUe (s : State) (f w line kind frame : Nat) : State :=
  let s := s.bump .SRM_FLD_UE f
  let v := w + line * 2 ^ 9 + kind * 2 ^ 25 + 2 ^ 26 + frame % 2 ^ 32 * 2 ^ 27
  let s := if s.flag F.SRM_FLD_ERR_VALID f then s else s.wr .SRM_FLD_ERR f v
  s.log 0x03 0x2003 (f + w * 64) (s.rd .SRM_FLD_ERR f)

/-- Capture the first uncorrectable LPDDR line in LPD_DEV_ERR and record it, R130 and R132. -/
def State.lpddrUe (s : State) (o kind : Nat) : State :=
  let d := deviceOf o
  let s := s.bump .LPD_DEV_UE d
  let v := o / 64 % 2 ^ 44 + 2 ^ 44 + kind * 2 ^ 45
  let s := if s.flag F.LPD_DEV_ERR_VALID d then s else s.wr .LPD_DEV_ERR d v
  s.log 0x05 0x2004 (deviceField d) (s.rd .LPD_DEV_ERR d)

/-- Read one line of SRAM or LPDDR: correct or report its bit errors and act on its poison mark (R122, R123, R130).
`frame` is the reading slice's frame number. -/
def State.readLine (s : State) (o frame : Nat) : State × LineRead :=
  let bs := s.mem.bytes (o / 64 * 64) 64
  let mk := s.mem.mark o
  let up := mapGet (fun _ => 0) s.mem.upset (o / 64)
  match placeOf o with
  | .sram f w b =>
    if mk = 2 then (s, ⟨bs, 1, true⟩)
    else if up = 2 then (s.sramUe f w (b / 64) 0 frame, ⟨bs, 1, true⟩)
    else ((if up = 1 then s.bump .SRM_FLD_CE f else s), ⟨bs, bit (mk == 1), false⟩)
  | _ =>
    if mk ≠ 0 then (s, ⟨bs, 1, mk == 2⟩)
    else if up = 2 then (s.lpddrUe o 0, ⟨bs, 1, true⟩)
    else if up = 1 then
      ({ s with mem := { s.mem with upset := mapSet (fun _ => 0) (o / 64) 0 s.mem.upset } }.bump .LPD_DEV_CE (deviceOf o),
       ⟨bs, 0, false⟩)
    else (s, ⟨bs, 0, false⟩)

/-- Read consecutive lines; the data is joined, poison and errors add up. -/
def State.readLines (s : State) (o frame : Nat) : Nat → State × LineRead
  | 0 => (s, ⟨[], 0, false⟩)
  | n + 1 =>
    let (s, r) := s.readLine o frame
    let (s, t) := s.readLines (o + 64) frame n
    (s, ⟨r.data ++ t.data, r.mask + 2 * t.mask, r.ue || t.ue⟩)

/-! ## Sorrel records -/

/-- The FP32 values of the elements of a payload decoded in a format, R339: INT8 as integers, MX elements without
scales. -/
def payloadElems (f : Fmt) (bs : List Byte) : List F32 :=
  let x := ofBytes bs
  (List.range (8 * bs.length / f.width)).map fun i =>
    let e := bits x (f.width * i) f.width
    if f = .fp32 then BitVec.ofNat 32 e
    else match f.decode e with
      | .fin neg m ex => f32Round neg m ex
      | .inf neg => f32Inf neg
      | .nan _ => f32NaN (BitVec.ofNat 32 e) (BitVec.ofNat 32 e)

/-- A pairwise tree sum, adjacent elements first, an odd last value passing up unchanged, R339. -/
def treeSum : Nat → List F32 → F32
  | _, [] => 0#32
  | _, [x] => x
  | 0, x :: _ => x
  | n + 1, xs => treeSum n (pairAdd xs)

/-- COLSUM as the unit that forms a record adds it, R339. -/
def colsumForm (f : Fmt) (bs : List Byte) : F32 := treeSum 14 (payloadElems f bs)

/-- The elements of a payload by the 64-byte line that holds their first bit. -/
def lineElems (f : Fmt) (bs : List Byte) : List (List F32) :=
  let es := payloadElems f bs
  (List.range (bs.length / 64)).map fun l =>
    let lo := ceilDiv (512 * l) f.width
    let hi := ceilDiv (512 * (l + 1)) f.width
    (es.drop lo).take (hi - lo)

/-- The verifier's sum: a tree within each line, then line after line, R339. -/
def colsumVerify (f : Fmt) (bs : List Byte) (g : F32 → F32) : F32 :=
  f32Sum ((lineElems f bs).map fun l => treeSum 14 (l.map g))

/-- Format of a FORMAT field: none for 0xF (raw) and for the reserved codes. -/
def sorrelFmt (c : Nat) : Option Fmt := Fmt.ofCode c

/-- Form a record over a payload, R126 and R338. -/
def sorrelForm (bs : List Byte) (format : Nat) (poison : Bool) (epoch : Nat) : Sorrel :=
  { crc := BitVec.ofNat 64 (crc64 bs)
    colsum := match sorrelFmt format with
      | some f => colsumForm f bs
      | none => 0
    format := BitVec.ofNat 4 format, reserved := 0, poison := poison, epoch := BitVec.ofNat 16 epoch }

/-- |C − COLSUM| ≤ 2^-16 × M + 2^-120, R340; non-finite sums pass only together. -/
def colsumOk (c sum m : F32) : Bool :=
  match f32Val c, f32Val sum with
  | .fin s1 m1 e1, .fin s2 m2 e2 =>
    match f32Val m with
    | .fin _ mm me =>
      let (d, u) := exactAdd (sgn s1 m1) e1 (-(sgn s2 m2)) e2
      let (l, v) := exactAdd mm (me - 16) 1 (-120)
      let b := min u v
      decide (d.natAbs * 2 ^ (u - b).toNat ≤ l.natAbs * 2 ^ (v - b).toNat)
    | _ => true
  | .fin _ _ _, _ => false
  | _, .fin _ _ _ => false
  | _, _ => true

/-- Does a record pass verification against a payload, R340? -/
def sorrelOk (bs : List Byte) (r : Sorrel) : Bool :=
  let c := r.format.toNat
  (c ≤ 0xA || c == 0xF) && r.crc.toNat == crc64 bs &&
  match sorrelFmt c with
  | some f => colsumOk (colsumVerify f bs id) r.colsum (colsumVerify f bs f32Abs)
  | none => true

/-- Does a copy in a check area match the payload, R128? -/
def copyMatches (bs : List Byte) (r : Sorrel) : Bool :=
  let c := r.format.toNat
  (c ≤ 0xA || c == 0xF) && r.crc.toNat == crc64 bs

/-- Set poison mark 2 on the 64 lines of a tile, R342. -/
def Memory.loseTile (m : Memory) (o : Nat) : Memory :=
  forNats (fun i m => m.setMark (o / 4096 * 4096 + 64 * i) 2) (List.range 64) m

/-- A source failure, R342: the tile is marked lost at rest, counted in INT_FLD_REC_SRC and recorded with its point. -/
def State.sourceFailure (s : State) (o fld point : Nat) : State :=
  ({ s with mem := s.mem.loseTile o }.bump .INT_FLD_REC_SRC fld).log 0x0F 0x8001 fld (point + 8)

/-- A record failure on arrival at a field, R341: counted and recorded with its point. -/
def State.recordFailure (s : State) (fld point : Nat) : State :=
  (s.bump .INT_FLD_REC_FAIL fld).log 0x0F 0x8001 fld point

/-- What leaves when a whole tile is read: the data and record, whether the reader meets DATA_UE, and whether it meets
RECORD. -/
structure TileRead where
  data : List Byte
  record : Sorrel
  ue : Bool
  bad : Bool
deriving DecidableEq, Repr

/-- The FORMAT of a tile's side data, where a record may carry it. -/
def TileSide.plainFormat (t : TileSide) : Nat := if t.format ≤ 0xA then t.format else 0xF

/-- Read a whole tile from a core's SRAM as it leaves the core: with its stored record when it is current (verified at
the given point), else with a fresh one (R127, R338, Table 14.2 points 1 and 7). A tile that fails at its source leaves with POISON = 1 under a
record that its receiver stores (Table 14.6); one with a lost line has failed already, and fails no more (R342). -/
def State.tileFromSram (s : State) (o frame epoch point : Nat) : State × TileRead :=
  let fld := match placeOf o with | .sram f _ _ => f | _ => 0
  let (s, r) := s.readLines o frame 64
  let t := s.mem.tile o
  if t.current then
    if sorrelOk r.data t.copy1 then
      (s, ⟨r.data, { t.copy1 with epoch := BitVec.ofNat 16 epoch, poison := t.copy1.poison || r.poison }, r.ue, false⟩)
    else
      (if r.ue then s else s.sourceFailure o fld point, ⟨r.data, sorrelForm r.data t.plainFormat true epoch, true, false⟩)
  else (s, ⟨r.data, sorrelForm r.data t.format r.poison epoch, r.ue, false⟩)

/-- Read a whole tile from LPDDR: the copy that matches is used and verified (R128, Table 14.2 point 2). A lost line faults the reader without a
new error (R130, R342). -/
def State.tileFromLpddr (s : State) (o frame epoch : Nat) : State × TileRead :=
  let fld := deviceField (deviceOf o)
  let (s, r) := s.readLines o frame 64
  let t := s.mem.tile o
  let out := fun (c : Sorrel) (p : Bool) => { c with epoch := BitVec.ofNat 16 epoch, poison := c.poison || p }
  let use := fun (c : Sorrel) =>
    if sorrelOk r.data c then (s, (⟨r.data, out c r.poison, r.ue, false⟩ : TileRead))
    else (s.sourceFailure o fld 2, ⟨r.data, out c true, true, false⟩)
  if r.ue then (s, ⟨r.data, out t.copy1 true, true, false⟩)
  else if copyMatches r.data t.copy1 then use t.copy1
  else if copyMatches r.data t.copy2 then use t.copy2
  else if t.copy1 = t.copy2 then (s.sourceFailure o fld 2, ⟨r.data, out t.copy1 true, true, false⟩)
  else (s.recordFailure fld 2, ⟨r.data, out t.copy1 true, false, true⟩)

/-- Store an arriving whole tile with its record: mark 1 when the record is poisoned, CURRENT = 1 in SRAM (R127), both
copies in LPDDR (R128). -/
def Memory.storeTile (m : Memory) (o : Nat) (bs : List Byte) (r : Sorrel) : Memory :=
  (m.writeLines o 64 bs (lineMask 64 r.poison)).setTile o
    { current := true, format := r.format.toNat, copy1 := r, copy2 := r }

/-- After a write that covers only part of an SRAM tile, its record is not current (R127). -/
def Memory.touchSram (m : Memory) (o : Nat) (format : Option Nat) : Memory :=
  let t := m.tile o
  m.setTile o { t with current := false, format := format.getD t.format }

/-- After a write that covers only part of an LPDDR tile, the controller forms a new record with FORMAT 0xF (R338). -/
def Memory.touchLpddr (m : Memory) (o epoch : Nat) : Memory :=
  let base := o / 4096 * 4096
  let bs := m.bytes base 4096
  let pois := (List.range 64).any fun i => m.mark (base + 64 * i) != 0
  let r := sorrelForm bs 0xF pois epoch
  m.setTile o { current := true, format := 0xF, copy1 := r, copy2 := r }

end Sys2Proof.Machine
end

