-- ==== Sys2Proof/Machine/Sequencer.lean ====
section
/-!
DEFINITION. Sys2Proof/Machine/Sequencer.lean: slots and slices on the module, frame faults (R40, R80), programs and
their headers and regions (R50, R58, R60), the checks of a step's SRAM accesses (R62, R63, R69), and the issue of a
step with its effect on the program position (R68, R70).
-/
namespace Sys2Proof.Machine

/-! ## Slots and slices -/

/-- A core's state. -/
def State.core (s : State) (f c : Nat) : Core := mapGet (fun _ => Core.init) s.cores (f * 450 + c)

/-- Set a core's state. -/
def State.setCore (s : State) (f c : Nat) (k : Core) : State :=
  { s with cores := mapSet (fun _ => Core.init) (f * 450 + c) k s.cores }

/-- Change a core's state. -/
def State.updCore (s : State) (f c : Nat) (g : Core → Core) : State := s.setCore f c (g (s.core f c))

/-- A slot's state beside its registers. -/
def State.slot (s : State) (n : Nat) : Slot := mapGet (fun _ => Slot.init) s.slots n

/-- Set a slot's state. -/
def State.setSlot (s : State) (n : Nat) (v : Slot) : State :=
  { s with slots := mapSet (fun _ => Slot.init) n v s.slots }

/-- Change a slot's state. -/
def State.updSlot (s : State) (n : Nat) (g : Slot → Slot) : State := s.setSlot n (g (s.slot n))

/-- The slice that owns a field, R276. -/
def State.fieldOwner (s : State) (f : Nat) : Option Nat :=
  if s.flag F.RTE_FLD_OWNER_VALID f then some (s.fld F.RTE_FLD_OWNER_SLICE_ID f) else none

/-- The active slice entry of a slice, R270. -/
def State.entryOf (s : State) (slice : Nat) : Option Nat :=
  (List.range 64).find? fun e => s.flag F.RTE_SLICE_ACTIVE e && s.fld F.RTE_SLICE_SLICE_ID e == slice

/-- Does an active slot serve a slice? -/
def State.slotServes (s : State) (slice n : Nat) : Bool := s.flag F.SEQ_SLOT_CFG_ACTIVE n && s.fld F.SEQ_SLOT_CFG_SLICE_ID n == slice

/-- The slot of a slice's member entry, R270; none for a holder. -/
def State.slotNamed (s : State) (slice : Nat) : Option Nat :=
  match s.entryOf slice with
  | some e => if s.flag F.RTE_SLICE_ROLE e then none else some (s.fld F.RTE_SLICE_SLOT e)
  | none => none

/-- The active slot that serves a slice: the one that its entry names (R270), as far as it serves the slice. -/
def State.slotOfSlice (s : State) (slice : Nat) : Option Nat :=
  match (s.slotNamed slice).filter (s.slotServes slice) with
  | some n => some n
  | none => (List.range 56).find? (s.slotServes slice)

/-- The slot whose slice owns a field. -/
def State.slotOfField (s : State) (f : Nat) : Option Nat :=
  match s.fieldOwner f with
  | some sl => s.slotOfSlice sl
  | none => none

/-- The fields of a slot, ascending. -/
def State.fieldsOf (s : State) (n : Nat) : List Nat :=
  (List.range 56).filter fun f => s.fieldOwner f == some (s.fld F.SEQ_SLOT_CFG_SLICE_ID n)

/-- The cores of a slot, by field and index. -/
def State.coresOf (s : State) (n : Nat) : List (Nat × Nat) :=
  ((s.fieldsOf n).map fun f => (List.range 450).map fun c => (f, c)).flatten

/-- Does any core of a slot run? -/
def State.anyRunning (s : State) (n : Nat) : Bool := (s.coresOf n).any fun p => (s.core p.1 p.2).running

/-- The placement epoch the module holds for a slice, R186; 0 without an entry. -/
def State.epochOf (s : State) (slice : Nat) : Nat :=
  match s.entryOf slice with
  | some e => s.fld F.RTE_SLICE_EPOCH e
  | none => 0

/-- The slice of a field's owner, 0 for none. -/
def State.sliceOfField (s : State) (f : Nat) : Nat := (s.fieldOwner f).getD 0

/-- The frame number of the slice that owns a field; 0 for none. -/
def State.frameOfField (s : State) (f : Nat) : Nat :=
  match s.slotOfField f with
  | some n => s.rd .SEQ_FRAME n
  | none => 0

/-- The replay count of the slice that owns a field; 0 for none. -/
def State.replayOfField (s : State) (f : Nat) : Nat :=
  match s.slotOfField f with
  | some n => s.fld F.SEQ_STATUS_REPLAY n
  | none => 0

/-- The program index running or last run of the slice that owns a field; 0 for none. -/
def State.programOfField (s : State) (f : Nat) : Nat :=
  match s.slotOfField f with
  | some n => s.fld F.SEQ_STATUS_INDEX n
  | none => 0

/-- This module's id, R10. -/
def State.selfId (s : State) : Nat :=
  s.fld F.RTE_COORD_Z * 1024 + s.fld F.RTE_COORD_Y * 32 + s.fld F.RTE_COORD_X

/-! ## Frame faults, R80 -/

/-- Classes of Table 3.12 that a step raises. -/
def clsTranslation : Nat := 0x1
/-- Class POISON. -/
def clsPoison : Nat := 0x2
/-- Class UNREACHABLE. -/
def clsUnreachable : Nat := 0x3
/-- Class CHECK. -/
def clsCheck : Nat := 0x4
/-- Class STEP_ECC. -/
def clsStepEcc : Nat := 0x5
/-- Class INPUT_WRITE. -/
def clsInputWrite : Nat := 0x8
/-- Class OUTPUT_BOUND. -/
def clsOutputBound : Nat := 0x9
/-- Class SRAM_RANGE. -/
def clsSramRange : Nat := 0xA
/-- Class XCHG_SLOT. -/
def clsXchgSlot : Nat := 0xB

/-- The model's own code of an uncorrectable or lost line of the core's own SRAM, whose address is a byte address of that core. -/
def codeOwnUe : Nat := 0x1A

/-- Is a class resolved by the replay alone (CHECK; RECORD or an accumulator error under POISON)? Table 3.12, Table 5.4, R114. -/
def faultSelfResolving (cls code : Nat) : Bool := cls == clsCheck || (cls == clsPoison && (code == 0x0B || code == 0))

/-- Set the fault mark of the frame of a slot: SEQ_FAULT holds the first fault until the slice advances, later ones count
(R80), and the first is recorded (FRAME_FAULT). -/
def State.faultSlot (s : State) (n f c step cls code addr : Nat) (lines : Nat := 1) (link : Option Nat := none) : State :=
  let first := s.fld F.SEQ_FAULT_CLASS n == 0
  let s := s.updSlot n fun v =>
    { v with faults := v.faults ++ [⟨cls, code, addr, f, c, step, lines, link, faultSelfResolving cls code⟩] }
  let s :=
    if first then
      let v := cls + f * 2 ^ 8 + c * 2 ^ 14 + step % 2 ^ 14 * 2 ^ 24 + s.fld F.SEQ_STATUS_REPLAY n * 2 ^ 38
      ((s.wr .SEQ_FAULT n v).wr .SEQ_FAULT_ADDR n addr).log 0x02 0x1002 (f + c * 64) v
    else s.setFld F.SEQ_FAULT_COUNT n (satAdd 255 (s.fld F.SEQ_FAULT_COUNT n) 1)
  let s := s.setFld F.SEQ_STATUS_FAULTED n 1
  if cls ≥ 8 then s.setFld F.SEQ_STATUS_PROGRAM n 1 else s

/-- Set the fault mark of the frame that a core runs, at a step; nothing to mark where no slot serves the field. -/
def State.faultAt (s : State) (f c step cls code addr : Nat) (lines : Nat := 1) (link : Option Nat := none) : State :=
  match s.slotOfField f with
  | some n => s.faultSlot n f c step cls code addr lines link
  | none => s

/-- Set the fault mark of the frame that a core runs, at the step it is at. -/
def State.fault (s : State) (f c cls code addr : Nat) (lines : Nat := 1) : State := s.faultAt f c (s.core f c).pc cls code addr lines

/-! ## Programs, headers and regions -/

/-- A step of the step store as a number. -/
def Core.step (k : Core) (i : Nat) : Nat := (mapGet (fun _ => 0#128) k.steps i).toNat

/-- Entry i of the program table, R50. -/
def Core.entry (k : Core) (i : Nat) : Nat := bits (k.step (i / 4)) (32 * (i % 4)) 32

/-- Is a program index valid on a core, R50? -/
def Core.valid (k : Core) (i : Nat) : Bool := bitOf (k.entry i) 28

/-- The step index of a program's header. -/
def Core.start (k : Core) (i : Nat) : Nat := bits (k.entry i) 0 14

/-- Step 0 of a program's header, Table 3.2. -/
def Core.header (k : Core) (i : Nat) : Nat := k.step (k.start i)

/-- A region descriptor, Table 3.3: TYPE 1 in lines of the core, TYPE 2 in units of 4 KiB of slice-virtual space. -/
structure Region where
  typ : Nat
  parity : Bool
  phase : Nat
  base : Nat
  len : Nat
deriving DecidableEq, Repr

/-- Decode a region descriptor. -/
def Region.ofBits (x : Nat) : Region :=
  { typ := bits x 0 2, parity := bitOf x 2, phase := bits x 3 1
    base := if bits x 0 2 = 1 then bits x 8 16 else bits x 8 36
    len := if bits x 0 2 = 1 then bits x 24 16 else bits x 44 20 }

/-- Region descriptors i, 0 to 15, of a program: inputs 0 to 7, then outputs 0 to 7 (R58). -/
def Core.region (k : Core) (prog i : Nat) : Region :=
  Region.ofBits (bits (k.step (k.start prog + 1 + i / 2)) (64 * (i % 2)) 64)

/-- Input regions of a program. -/
def Core.inputs (k : Core) (prog : Nat) : List Region := (List.range 8).map (k.region prog)

/-- Output regions of a program. -/
def Core.outputs (k : Core) (prog : Nat) : List Region := (List.range 8).map fun i => k.region prog (8 + i)

/-- First unit of the region in force during frame n, R60. -/
def Region.low (r : Region) (n : Nat) : Nat := r.base + (if r.parity then (n + r.phase) % 2 * r.len else 0)

/-- Does the region of a type in force during frame n hold a unit? -/
def Region.holds (r : Region) (typ n u : Nat) : Bool :=
  r.typ == typ && decide (r.low n ≤ u) && decide (u < r.low n + r.len)

/-- The program index running or last run, and the frame number, of the slot that serves a field. -/
def State.running (s : State) (f : Nat) : Option (Nat × Nat × Nat) :=
  match s.slotOfField f with
  | some n => some (n, s.fld F.SEQ_STATUS_INDEX n, s.rd .SEQ_FRAME n)
  | none => none

/-- Is a line of a core within a protected SRAM input region, R62? -/
def State.inputLine (s : State) (f c line : Nat) : Bool :=
  match s.running f with
  | some (n, prog, fr) =>
    (s.slot n).prot && ((s.core f c).inputs prog).any fun r => r.holds 1 fr line
  | none => false

/-- May a frame program write a line of its core: a scratch bank or an SRAM output region, R63? -/
def State.outputLine (s : State) (f c line : Nat) : Bool :=
  match s.running f with
  | some (n, prog, fr) =>
    !(bitOf (s.fld F.SEQ_LIVE_LIVE n) (line / 1024)) ||
      ((s.core f c).outputs prog).any fun r => r.holds 1 fr line
  | none => true

/-- Is an address of a slot within a protected virtual input region, R62? -/
def State.inputVa (s : State) (n va : Nat) : Bool :=
  let fr := s.rd .SEQ_FRAME n
  match s.fieldsOf n with
  | f :: _ =>
    (s.slot n).prot && ((s.core f 0).inputs (s.fld F.SEQ_STATUS_INDEX n)).any fun r => r.holds 2 fr (va / 4096)
  | [] => false

/-- Is an address within a virtual output region of the running program, R63? -/
def State.outputVa (s : State) (n va : Nat) : Bool :=
  let fr := s.rd .SEQ_FRAME n
  match s.fieldsOf n with
  | f :: _ => ((s.core f 0).outputs (s.fld F.SEQ_STATUS_INDEX n)).any fun r => r.holds 2 fr (va / 4096)
  | [] => false

/-! ## Pointers and the SRAM accesses of a step -/

/-- A pointer register. -/
def Core.ptr (k : Core) (i : Nat) : Nat := (mapGet (fun _ => 0#16) k.ptrs i).toNat

/-- Write a pointer register. -/
def Core.setPtr (k : Core) (i v : Nat) : Core :=
  { k with ptrs := mapSet (fun _ => 0#16) i (BitVec.ofNat 16 v) k.ptrs }

/-- The effective line of a memory operand, R69. -/
def Core.line (k : Core) (m : MemOp) : Nat := (k.ptr m.ptr + m.off.toNat) % 65536

/-- Read lines of the step's own core, R69 and R122: none, with class SRAM_RANGE at the access's first
line (DESIGN CHOICE, log entry 96), when a line lies past the SRAM; a lost or uncorrectable line faults the frame with class POISON. -/
def State.stepRead (s : State) (f c line n : Nat) : State × Option LineRead :=
  if line + n > sramLines then (s.fault f c clsSramRange 0 (line * 64), none)
  else
    let (s, r) := s.readLines (sramLine f c line) (s.frameOfField f) n
    ((if r.ue then s.fault f c clsPoison codeOwnUe (line * 64) n else s), some r)

/-- May the step write lines of its own core (R62, R63, R69)? The state takes the fault where it may not, of SRAM_RANGE at
the access's first line (DESIGN CHOICE, log entry 96). -/
def State.stepMayWrite (s : State) (f c line n : Nat) : State × Bool :=
  if line + n > sramLines then (s.fault f c clsSramRange 0 (line * 64), false)
  else
    let ls := rangeFrom line n
    match ls.find? (s.inputLine f c) with
    | some l => (s.fault f c clsInputWrite 0 (l * 64), false)
    | none =>
      match ls.find? fun l => !s.outputLine f c l with
      | some l => (s.fault f c clsOutputBound 0 (l * 64), false)
      | none => (s, true)

/-- The side data of every tile that lines touch, after a write by the core's own sequencer: not current, with a
FORMAT where the writer sets one (R127, R337). -/
def Memory.touchLines (m : Memory) (f c line n : Nat) (format : Option Nat) : Memory :=
  forNats (fun t m => m.touchSram (sramLine f c (64 * t)) format) (rangeFrom (line / 64) ((line + n - 1) / 64 - line / 64 + 1)) m

/-- Write whole lines of the step's own core, poisoned as the mask says. -/
def State.stepPut (s : State) (f c line n : Nat) (bs : List Byte) (mask : Nat) (format : Option Nat) : State :=
  { s with mem := (s.mem.writeLines (sramLine f c line) n bs mask).touchLines f c line n format }

/-! ## Issue -/

/-- The position after a step: the next one, or back to the first step of the innermost loop body that ends there
while passes are left (R70). -/
def advancePc (p : Nat) : List LoopFrame → Nat × List LoopFrame
  | [] => (p, [])
  | l :: ls =>
    if p = l.stop then
      if l.left = 0 then advancePc p ls else (l.first, { l with left := l.left - 1 } :: ls)
    else (p, l :: ls)

/-- Move a core's sequencer past the step it has issued. -/
def Core.advance (k : Core) : Core :=
  let (p, ls) := advancePc (k.pc + 1) k.loops
  { k with pc := p, loops := ls }

/-- The bit errors that a step of the step store holds: none, one corrected, or more (R49). -/
def Core.upsetAt (k : Core) (i : Nat) : Nat := mapGet (fun _ => 0) k.stepUpset i

/-- Does the step at a core's position wait (R67, R68)? Its WAIT bit, as far as it can be read, is set while an earlier step of the
frame has not completed. -/
def Core.waits (k : Core) : Bool := decide (k.upsetAt k.pc ≤ 1) && bitOf (k.step k.pc) 119 && k.outstanding != 0

/-- The sequencer of a core reads a step: a corrected error is counted, and a step that cannot be read marks the frame with class
STEP_ECC (R49). -/
def State.readStep (s : State) (f c i : Nat) : State :=
  match (s.core f c).upsetAt i with
  | 0 => s
  | 1 => s.bump .SEQ_FLD_ECC f
  | _ => s.faultAt f c i clsStepEcc 0 0

/-- Frame attempts on a set of fields end: remote accesses already started run to completion, outside any frame (R81). -/
def State.orphan (s : State) (fs : List Nat) : State :=
  { s with remotes := s.remotes.map fun r => if fs.contains r.field then { r with live := false } else r }

/-- Issue a step (R68): a step that waits stays where it is; else it is read, has its effect where it could be read, and the
sequencer moves on. -/
def State.issue (s : State) (a : CoreAt) (effect : State → State) : State :=
  let f := a.field.val
  let c := a.core.val
  let k := s.core f c
  if k.waits then s
  else
    let s := s.readStep f c k.pc
    (if k.upsetAt k.pc ≤ 1 then effect s else s).updCore f c Core.advance

/-- Issue a step that uses the network port: a remote access holds the port until it completes (Table 3.10). DESIGN CHOICE (log entry 110):
the step that waits for the port stays where it is, so that the steps after it issue after it. -/
def State.issueNet (s : State) (a : CoreAt) (effect : State → State) : State :=
  if (s.core a.field a.core).outstanding = 0 then s.issue a effect else s

end Sys2Proof.Machine
end

