-- ==== Sys2Proof/Machine/Tensor.lean ====
section
/-!
DEFINITION. Sys2Proof/Machine/Tensor.lean: what the units of a core compute (chapter 4): matrix products (R86 to R94),
the check row and comparator (R104 to R106), the vector unit (R102, R103), conversion (R95 to R99), the rounding and
sampling generators (R100, R345) and the signatures (R110).
-/
namespace Sys2Proof.Machine

/-! ## Operand slots -/

/-- Number of an operand slot: A0, A1, B0, B1, SCALE_A0, SCALE_A1, SCALE_B0, SCALE_B1. -/
def slotNo (kind slot : Nat) : Nat := 2 * kind + slot

/-- Lines that a slot of a kind holds: 0 A, 1 B, 2 SCALE_A, 3 SCALE_B (Table 3.7). -/
def slotLines : Nat → Nat
  | 0 => 128
  | 1 => 256
  | _ => 4

/-- The first n bytes of an operand slot as one little-endian number, R86; unlisted bytes are zero. -/
def Core.opndNat (k : Core) (slot n : Nat) : Nat :=
  k.opnd.foldl (fun x e =>
    if slot * 32768 ≤ e.1 ∧ e.1 < slot * 32768 + n then x + e.2.toNat * 256 ^ (e.1 - slot * 32768) else x) 0

/-- Fill an operand slot from its first byte, with its poison mark. -/
def Core.loadOpnd (k : Core) (slot : Nat) (bs : List Byte) (poison : Bool) : Core :=
  { k with opnd := mapSetList (fun _ => 0#8) (slot * 32768) bs k.opnd
           opndPoison := BitVec.ofNat 8 (setBits k.opndPoison.toNat slot 1 (bit poison)) }

/-- Is an operand slot poisoned? -/
def Core.opndBad (k : Core) (slot : Nat) : Bool := bitOf k.opndPoison.toNat slot

/-! ## Tiles -/

/-- The 512 elements of an accumulator tile, row after row. -/
def Core.tile (k : Core) (t : Nat) : List F32 := mapGetList (fun _ => 0#32) k.acc (512 * t) 512

/-- Write an accumulator tile with its poison mark. -/
def Core.setTile (k : Core) (t : Nat) (v : List F32) (poison : Bool) : Core :=
  { k with acc := mapSetList (fun _ => 0#32) (512 * t) v k.acc
           accPoison := BitVec.ofNat 64 (setBits k.accPoison.toNat t 1 (bit poison))
           accUpset := k.accUpset.filter fun e => e.1 / 256 != t }

/-- Is a tile poisoned? -/
def Core.tileBad (k : Core) (t : Nat) : Bool := bitOf k.accPoison.toNat t

/-- The bit errors of the 256 words of 64 bits of a tile: how many words hold one, and whether some word holds more (R115). -/
def Core.tileErrors (k : Core) (t : Nat) : Nat × Bool :=
  let es := k.accUpset.filter fun e => e.1 / 256 == t
  ((es.filter fun e => e.2 == 1).length, es.any fun e => decide (2 ≤ e.2))

/-- Read a tile of the accumulator file: each corrected word is counted; a word that cannot be corrected poisons the tile and marks the
frame with class POISON (R115). -/
def State.readTile (s : State) (f c t : Nat) : State × List F32 × Bool :=
  let k := s.core f c
  let (n, lost) := k.tileErrors t
  let s := if n = 0 then s else s.bump .TEN_FLD_ACC_ECC f n
  if lost then
    let s := s.fault f c clsPoison 0 0
    (s.updCore f c fun k => { k with accPoison := BitVec.ofNat 64 (setBits k.accPoison.toNat t 1 1) }, k.tile t, true)
  else (s, k.tile t, k.tileBad t)

/-! ## Products, R86 to R94 -/

/-- Number of blocks of 32 along K. -/
def blocksOf (k : Nat) : Nat := ceilDiv k 32

/-- Length of block b of a depth. -/
def blockLen (k b : Nat) : Nat := min 32 (k - 32 * b)

/-- Index of element (r, 32 b + j) of A, R87. -/
def aIndex (k b r j : Nat) : Nat := b * 512 + r * blockLen k b + j

/-- Index of element (32 b + j, c) of B, R87. -/
def bIndex (k b c j : Nat) : Nat := b * 1024 + c * blockLen k b + j

/-- A value times an E8M0 scale, R90; 0xFF makes it NaN. -/
def scaled (v : Val) (s : Nat) : Val :=
  if s = 0xFF then .nan false
  else match v with
    | .fin neg m e => .fin neg m (e + s - 127)
    | v => v

/-- The operands of one MMA: format, depth, and the slots' bytes as numbers. -/
structure MmaIn where
  fmt : Fmt
  k : Nat
  a : Nat
  b : Nat
  sa : Nat
  sb : Nat
deriving DecidableEq, Repr

/-- Element (r, 32 b + j) of A with its scale. -/
def MmaIn.aElem (x : MmaIn) (b r j : Nat) : Val :=
  let v := x.fmt.decode (bits x.a (x.fmt.width * aIndex x.k b r j) x.fmt.width)
  if x.fmt.mx then scaled v (bits x.sa (8 * (16 * b + r)) 8) else v

/-- Element (32 b + j, c) of B with its scale. -/
def MmaIn.bElem (x : MmaIn) (b c j : Nat) : Val :=
  let v := x.fmt.decode (bits x.b (x.fmt.width * bIndex x.k b c j) x.fmt.width)
  if x.fmt.mx then scaled v (bits x.sb (8 * (32 * b + c)) 8) else v

/-- Position above the leading bit of the largest product of a block; none when every product is zero. -/
def leadTop : List Val → Option Int
  | [] => none
  | .fin _ m e :: vs =>
    if m = 0 then leadTop vs
    else match leadTop vs with
      | some t => some (max t ((bitLen m : Int) + e))
      | none => some ((bitLen m : Int) + e)
  | _ :: vs => leadTop vs

/-- A product aligned to a unit, its magnitude truncated, R92 step 2. -/
def truncTo (q : Int) : Val → Int
  | .fin neg m e => sgn neg (alignDown m e q).1
  | _ => 0

/-- Is a value NaN? -/
def Val.isNaN : Val → Bool
  | .nan _ => true
  | _ => false

/-- Is a value an infinity of a sign? -/
def Val.isInf (neg : Bool) : Val → Bool
  | .inf s => s == neg
  | _ => false

/-- The sum of one block's products, rounded to FP32, R91 to R93. `site` tells the NaN of one element from another's.
DESIGN CHOICE (log entry 100): a sum that is exactly zero is +0. -/
def blockSum (int : Bool) (site : Nat) (ps : List Val) : F32 :=
  if ps.any Val.isNaN || (ps.any (Val.isInf true) && ps.any (Val.isInf false)) then
    Config.nanBits (2 + site) 0 0 ||| 0x7FC00000#32
  else if ps.any (Val.isInf true) then f32Inf true
  else if ps.any (Val.isInf false) then f32Inf false
  else match leadTop ps with
    | none => 0#32
    | some t =>
      let q := if int then 0 else t - 41
      f32OfInt false ((ps.map (truncTo q)).foldl (· + ·) 0) q

/-- Element (r, c) of the product: the block sums added in order of increasing k, R92 step 4. -/
def MmaIn.elem (x : MmaIn) (site r c : Nat) : F32 :=
  f32Sum ((List.range (blocksOf x.k)).map fun b =>
    blockSum (x.fmt = .int8) (site * 512 + r * 32 + c)
      ((List.range (blockLen x.k b)).map fun j => valMul (x.aElem b r j) (x.bElem b c j)))

/-- The 16 × 32 product, row after row. -/
def MmaIn.product (x : MmaIn) (site : Nat) : List F32 :=
  (List.range 512).map fun i => x.elem site (i / 32) (i % 32)

/-! ## The check row and the comparator, R104 to R106 -/

/-- The exact integer a value stands for, when it is an integer. -/
def valInt : Val → Int
  | .fin neg m e => sgn neg (alignDown m e 0).1
  | _ => 0

/-- FP32 of a value. -/
def valF32 (site : Nat) : Val → F32
  | .nan _ => Config.nanBits (2 + site) 1 1 ||| 0x7FC00000#32
  | .inf s => f32Inf s
  | .fin neg m e => f32Round neg m e

/-- Column sum of A at (b, j), of values or of magnitudes: the FP32 sum of the 16 rows, an exact integer for INT8. -/
def MmaIn.aSum (x : MmaIn) (site : Nat) (mag : Bool) (b j : Nat) : Val :=
  let vs := (List.range 16).map fun r => x.aElem b r j
  if x.fmt = .int8 then
    let i := (vs.map fun v => if mag then ((valInt v).natAbs : Int) else valInt v).foldl (· + ·) 0
    .fin (decide (i < 0)) i.natAbs 0
  else
    f32Val (f32Sum (vs.map fun v => let y := valF32 site v; if mag then f32Abs y else y))

/-- The magnitude of a value. -/
def valAbs : Val → Val
  | .nan s => .nan s
  | .inf _ => .inf false
  | .fin _ m e => .fin false m e

/-- The check row's sum of column j: s_j, or m_j with magnitudes, R104. -/
def MmaIn.check (x : MmaIn) (site : Nat) (mag : Bool) (j : Nat) : F32 :=
  f32Sum ((List.range (blocksOf x.k)).map fun b =>
    blockSum (x.fmt = .int8) (site * 512 + j)
      ((List.range (blockLen x.k b)).map fun i =>
        let bv := x.bElem b j i
        valMul (x.aSum site mag b i) (if mag then valAbs bv else bv)))

/-- Column j of a tile. -/
def columnOf (t : List F32) (j : Nat) : List F32 := (List.range 16).map fun r => t.getD (32 * r + j) 0#32

/-- The outcome of one column: it passes, it passes with non-finite values, or it fails. -/
inductive ColCheck where
  | pass | passNonFinite | fail
deriving DecidableEq, Repr

/-- |d| ≤ 2^-21 × ((G + 16) m + 8 q) + 2^-120, R105: exactly for finite sums; an infinite q bounds every d but a NaN. -/
def withinTol (g : Nat) (d m q : F32) : Bool :=
  match f32Val m, f32Val q with
  | .fin _ mm me, .fin _ mq eq =>
    let (i, u) := exactAdd ((g + 16) * mm : Nat) (me - 21) (8 * mq : Nat) (eq - 21)
    let (i, u) := exactAdd i u 1 (-120)
    f32AbsLe d i.natAbs u
  | _, .inf _ => !(f32Val d).isNaN
  | _, _ => false

/-- The comparator's judgement of column j, R105 and R106. -/
def colCheck (g : Nat) (sj mj : F32) (t0 t1 : List F32) : ColCheck :=
  let sum1 := f32Sum t1
  let sums := f32IsFin mj && f32IsFin sj
  let fin0 := t0.all f32IsFin
  if !f32IsFin sum1 && sums && fin0 then .fail
  else if !sums || t1.any fun v => !f32IsFin v then (if f32IsFin sum1 then .fail else .passNonFinite)
  else
    let d := f32Add (f32Add sum1 (f32Neg (f32Sum t0))) (f32Neg sj)
    let q := f32Sum ((t1.zip t0).map fun p => f32Add (f32Abs p.1) (f32Abs p.2))
    if !withinTol g d mj q then .fail
    else if fin0 && f32IsFin q then .pass
    else .passNonFinite

/-- The comparator over all 32 columns: the first failing one, and whether any passed with non-finite values. -/
def mmaCheck (x : MmaIn) (site : Nat) (t0 t1 : List F32) : Option Nat × Bool :=
  let cs := (List.range 32).map fun j =>
    colCheck (blocksOf x.k) (x.check site false j) (x.check site true j) (columnOf t0 j) (columnOf t1 j)
  (firstIdx (· == .fail) 0 cs, cs.any (· == .passNonFinite))

/-! ## Generators, R100, R101, R345 -/

/-- The 16 bits for a counter value; `tag` is 0x00 for rounding and 0x01 for sampling. -/
def genBits (seed : BitVec 128) (tag c : Nat) : Nat :=
  let h := shake256 (toBytes 16 seed.toNat ++ [BitVec.ofNat 8 tag] ++ toBytes 8 (c / 64)) 128
  leAt h (2 * (c % 64)) 2

/-- Seed of a core under SR_FIXED = 1, R101. -/
def fixedSeed (sr f c : Nat) : BitVec 128 :=
  BitVec.ofNat 128 (ofBytes (shake256 (toBytes 8 sr ++ toBytes 1 f ++ toBytes 2 c) 16))

/-- Seed a core's two generators, R101 and R345. -/
def Core.seedWith (k : Core) (seed : BitVec 128) : Core := { k with seed := seed, ctr := 0, sampCtr := 0 }

/-- Seed every core of a field, R101: from the entropy source, or from TEN_FLD_SR_SEED. -/
def State.seedField (s : State) (f : Nat) : State :=
  let fixed := s.flag F.TEN_FLD_CTRL_SR_FIXED f
  let sr := s.rd .TEN_FLD_SR_SEED f
  let n := s.free
  let s := forNats (fun c s => s.updCore f c fun k =>
    k.seedWith (if fixed then fixedSeed sr f c else Config.entropy (n + c))) (List.range 450) s
  { s with free := n + 450 }

/-! ## Conversion, R95 to R99 -/

/-- Rounding mode of element i of a CVT. -/
def cvtMode (rnd : Rnd) (seed : BitVec 128) (ctr i : Nat) : RMode :=
  match rnd with
  | .nearest => .nearest
  | .zero => .zero
  | .stochastic => .stochastic (genBits seed 0 (ctr + i))

/-- The largest magnitude of a row, and whether the row holds an infinity or NaN. -/
def rowMax (row : List F32) : F32 × Bool :=
  (row.foldl (fun m v => if f32Key (f32Abs v) > f32Key m then f32Abs v else m) 0#32, row.any fun v => !f32IsFin v)

/-- Element codes and scale byte of one row of an MX conversion, R96 and Table 4.5. -/
def cvtMxRow (f : Fmt) (rnd : Rnd) (seed : BitVec 128) (ctr r : Nat) (row : List F32) : List Nat × Nat :=
  let (amax, bad) := rowMax row
  if bad then (row.map fun _ => 0, 0xFF)
  else
    let e := mxExp f amax
    ((List.range 32).map fun i => mxNarrow f (cvtMode rnd seed ctr (32 * r + i)) e (row.getD i 0#32), (e + 127).toNat)

/-- Codes packed as a little-endian bit string of a width, R86. -/
def packCodes (w : Nat) : List Nat → Nat
  | [] => 0
  | c :: cs => c + 2 ^ w * packCodes w cs

/-- Lines that a CVT target occupies, R95. -/
def cvtLines (f : Fmt) : Nat := f.width

/-- The bytes a CVT writes and, for an MX format, its 16 scale bytes. -/
def cvtTile (f : Fmt) (rnd : Rnd) (seed : BitVec 128) (ctr : Nat) (t : List F32) : List Byte × List Byte :=
  if f.mx then
    let rows := (List.range 16).map fun r => cvtMxRow f rnd seed ctr r ((t.drop (32 * r)).take 32)
    (toBytes (64 * f.width) (packCodes f.width (rows.map (·.1)).flatten), rows.map fun p => BitVec.ofNat 8 p.2)
  else
    (toBytes (64 * f.width)
      (packCodes f.width ((List.range 512).map fun i => f.narrow (cvtMode rnd seed ctr i) (t.getD i 0#32))), [])

/-! ## Signatures, R110 -/

/-- Fold results, as bytes, into a 64-bit signature. DESIGN CHOICE (log entry 113): the bytes are the packed ones, little-endian, a CVT's
scale bytes after its element bytes, and the signature starts at 0. -/
def foldSig (sig : BitVec 64) (bs : List Byte) : BitVec 64 := BitVec.ofNat 64 (crc64From sig.toNat bs)

/-- The bytes of FP32 results. -/
def tileBytes (t : List F32) : List Byte := (t.map fun v => toBytes 4 v.toNat).flatten

/-- FP32 values of a byte string. -/
def bytesTile (bs : List Byte) : List F32 := (List.range (bs.length / 4)).map fun i => BitVec.ofNat 32 (leAt bs (4 * i) 4)

/-! ## The vector unit, R102 and R103 -/

/-- A tile from its row results: column 0 takes them, columns 1 to 31 take +0. -/
def rowTile (rows : List F32) : List F32 := (rows.map fun v => v :: List.replicate 31 0#32).flatten

/-- Rows of a tile. -/
def rowsOf (t : List F32) : List (List F32) := (List.range 16).map fun r => (t.drop (32 * r)).take 32

/-- Element-wise operation of two tiles. -/
def tileZip (g : F32 → F32 → F32) (a b : List F32) : List F32 := (a.zip b).map fun p => g p.1 p.2

/-- Element-wise fused multiply-add of three tiles. -/
def tileFma (a b c : List F32) : List F32 := ((a.zip b).zip c).map fun p => f32Fma p.1.1 p.1.2 p.2

/-- Row sums in the fixed tree order. -/
def tileRsum (t : List F32) : List F32 := rowTile ((rowsOf t).map f32Tree)

/-- Row maxima. -/
def tileRmax (t : List F32) : List F32 :=
  rowTile ((rowsOf t).map fun r => match r with
    | x :: xs => xs.foldl f32Max x
    | [] => 0#32)

end Sys2Proof.Machine
end

