-- ==== Sys2Proof/Machine/CoreSteps.lean ====
section
/-!
DEFINITION. Sys2Proof/Machine/CoreSteps.lean: the steps of a frame program that act within their core: control, loops,
pointers (R69 to R71), LOAD (R86, R88, R113), MMA (R92, R105 to R108), VEC (R102, R103, R110), CVT (R95 to R100) and
STORE. A command is the issue of one step by the sequencer of a core; operands that Table 3.1 rejects at load are
refused.
-/
namespace Sys2Proof.Machine

open Host (Outcome)

/-- The outcome of every meaning. -/
abbrev Res := Outcome State Fault Refusal

/-! ## Checked steps, R73, R345, R346 -/

/-- Does a VEC or CVT step run on the check lane? Under the bounded-latency goal every step does; under the budget goal
every step of a sweep frame does, and otherwise a step whose draw lies below S. -/
def State.checked (s : State) (f c : Nat) : State × Bool :=
  let k := s.core f c
  let chk := match s.running f with
    | some (_, prog, _) => bits (k.header prog) 54 2 == 1
    | none => false
  let (budget, smp, klog) := match s.slotOfField f with
    | some n => let v := s.slot n; (v.goalBudget, v.sampleS, v.kLog2)
    | none => (s.flag F.INT_STATUS_GOAL, s.fld F.INT_STATUS_S, s.fld F.INT_STATUS_K_LOG2)
  if chk || !budget then (s, true)
  else
    let draw := genBits k.seed 1 k.sampCtr.toNat
    let s := s.updCore f c fun k => { k with sampCtr := k.sampCtr + 1 }
    (s, (s.frameOfField f + c) % 2 ^ klog == 0 || decide (draw < smp))

/-- Take an armed injection of a kind that names the core (false an MMA, true a VEC step). -/
def State.takeInjection (s : State) (f c : Nat) (kind : Bool) : State × Bool :=
  if mapGet (fun _ => none) s.inject f = some (c, kind) then
    ({ s with inject := mapSet (fun _ => none) f none s.inject }, true)
  else (s, false)

/-- Capture a check failure in TEN_FLD_LAST if its VALID bit is clear (R107); kind 0 MMA, 1 vector. -/
def State.captureLast (s : State) (f c step col kind : Nat) : State :=
  if s.flag F.TEN_FLD_LAST_VALID f then s
  else s.wr .TEN_FLD_LAST f
    (c + step % 2 ^ 14 * 2 ^ 9 + col * 2 ^ 23 + kind * 2 ^ 28 + 2 ^ 29 + s.frameOfField f % 2 ^ 32 * 2 ^ 30)

/-! ## Control, loops and pointers -/

/-- NOP has no effect, R69. -/
def execNop (a : CoreAt) (s : State) : Res := .next (s.issue a id)

/-- FENCE has the effect of a NOP that issues when every earlier step has completed, R69. -/
def execFence (a : CoreAt) (s : State) : Res :=
  if (s.core a.field a.core).outstanding = 0 then .next (s.issue a id) else .next s

/-- What END does to the core, R111: a difference of the two signatures marks the frame faulted with class CHECK. -/
def endEffect (f c : Nat) (s : State) : State :=
  let k := s.core f c
  let s :=
    if k.sigMain = k.sigCheck then s
    else
      let s := (s.fault f c clsCheck 0 0).bump .TEN_FLD_VEC_MISS f
      let s := s.captureLast f c k.pc 0 1
      s.log 0x01 0x2002 (f + c * 64) (s.rd .TEN_FLD_LAST f)
  let s := s.updCore f c fun k => { k with running := false }
  match s.slotOfField f with
  | some n => if (s.coresOf n).any fun p => (s.core p.1 p.2).running then s else s.setFld F.SEQ_STATUS_RUNNING n 0
  | none => s

/-- END issues when every earlier step has completed, and ends the frame program, R69. -/
def execEnd (a : CoreAt) (s : State) : Res :=
  if (s.core a.field a.core).outstanding = 0 then .next (s.issue a (endEffect a.field a.core)) else .next s

/-- LOOP repeats the BODY steps that follow it COUNT times (count is COUNT less one), R70. -/
def execLoop (a : CoreAt) (count : Fin 65536) (body : Fin 16384) (s : State) : Res :=
  if body.val = 0 ∨ 16320 < body.val then .refused (.loadRejected 0x3)
  else .next (s.issue a fun s => s.updCore a.field a.core fun k =>
    { k with loops := { first := k.pc + 1, stop := k.pc + 1 + body.val, left := count.val } :: k.loops })

/-- PTR SET writes IMM to P[dst], R71. -/
def execPtrSet (a : CoreAt) (dst : Fin 16) (imm : BitVec 16) (s : State) : Res :=
  .next (s.issue a fun s => s.updCore a.field a.core fun k => k.setPtr dst imm.toNat)

/-- PTR ADD adds IMM to P[dst] modulo 65,536, R71. -/
def execPtrAdd (a : CoreAt) (dst : Fin 16) (imm : BitVec 16) (s : State) : Res :=
  .next (s.issue a fun s => s.updCore a.field a.core fun k => k.setPtr dst ((k.ptr dst + imm.toNat) % 65536))

/-- PTR PARITY writes IMM + (n & 1) × STRIDE to P[dst], n being the frame number, R71. -/
def execPtrParity (a : CoreAt) (dst : Fin 16) (imm stride : BitVec 16) (s : State) : Res :=
  .next (s.issue a fun s => s.updCore a.field a.core fun k =>
    k.setPtr dst ((imm.toNat + s.frameOfField a.field % 2 * stride.toNat) % 65536))

/-! ## LOAD -/

/-- LOAD copies lines into an operand slot from its first byte; a poisoned line poisons the whole slot (R113). A refused
read leaves the slot as it was (R69). -/
def loadEffect (f c kind : Nat) (op : LoadOp) (s : State) : State :=
  let (s, r) := s.stepRead f c ((s.core f c).line op.mem) (op.lines.val + 1)
  match r with
  | some r => s.updCore f c fun k => k.loadOpnd (slotNo kind op.slot.val) r.data r.poison
  | none => s

/-- LOAD A, Table 3.7. -/
def execLoadA (a : CoreAt) (op : LoadOp) (s : State) : Res :=
  if slotLines 0 < op.lines.val + 1 then .refused (.loadRejected 0x5)
  else .next (s.issue a (loadEffect a.field a.core 0 op))

/-- LOAD B, Table 3.7. -/
def execLoadB (a : CoreAt) (op : LoadOp) (s : State) : Res :=
  if slotLines 1 < op.lines.val + 1 then .refused (.loadRejected 0x5)
  else .next (s.issue a (loadEffect a.field a.core 1 op))

/-- LOAD SCALE_A, Table 3.7 and R88. -/
def execLoadScaleA (a : CoreAt) (op : LoadOp) (s : State) : Res :=
  if slotLines 2 < op.lines.val + 1 then .refused (.loadRejected 0x5)
  else .next (s.issue a (loadEffect a.field a.core 2 op))

/-- LOAD SCALE_B, Table 3.7 and R88. -/
def execLoadScaleB (a : CoreAt) (op : LoadOp) (s : State) : Res :=
  if slotLines 3 < op.lines.val + 1 then .refused (.loadRejected 0x5)
  else .next (s.issue a (loadEffect a.field a.core 3 op))

/-! ## MMA -/

/-- The largest depth of a format, Table 4.3. -/
def maxDepth (f : Fmt) : Nat :=
  match f with
  | .e4m3 | .e5m2 | .int8 => 512
  | _ => 256

/-- The load rejection of an MMA's operands: FP32 as format or an MX depth off a block (0x3), a depth above the limit
(0x5); R89, Table 3.8. Where both apply the lower code is told (log entry 40), as the loader does. -/
def mmaReject (op : MmaOp) : Option Nat :=
  if op.fmt = .fp32 then some 0x3
  else if op.fmt.mx ∧ (op.k.val + 1) % 32 ≠ 0 then some 0x3
  else if maxDepth op.fmt < op.k.val + 1 then some 0x5
  else none

/-- The operands of an MMA as its core holds them. -/
def Core.mmaIn (k : Core) (op : MmaOp) : MmaIn :=
  let d := op.k.val + 1
  { fmt := op.fmt, k := d
    a := k.opndNat (slotNo 0 op.aslot.val) (16 * d * op.fmt.width / 8 + 1)
    b := k.opndNat (slotNo 1 op.bslot.val) (32 * d * op.fmt.width / 8 + 1)
    sa := k.opndNat (slotNo 2 op.aslot.val) 256
    sb := k.opndNat (slotNo 3 op.bslot.val) 256 }

/-- Does an MMA read a poisoned operand or scale slot, R113? -/
def Core.mmaPoisoned (k : Core) (op : MmaOp) : Bool :=
  k.opndBad (slotNo 0 op.aslot.val) || k.opndBad (slotNo 1 op.bslot.val) ||
    (op.fmt.mx && (k.opndBad (slotNo 2 op.aslot.val) || k.opndBad (slotNo 3 op.bslot.val)))

/-- Add 1.0 to element (0, 0) of a product, the injected error of KIND 0. -/
def injectProduct : List F32 → List F32
  | x :: xs => f32Add x 0x3F800000#32 :: xs
  | [] => []

/-- A failed MMA, R107: poisoned tile, class CHECK, counted once, captured and recorded; the failure enters the window of
R109. -/
def mmaFail (f c : Nat) (op : MmaOp) (t1 : List F32) (col : Nat) (s : State) : State :=
  let step := (s.core f c).pc
  let s := s.updCore f c fun k =>
    { k.setTile op.tile t1 true with misses := k.mmas :: k.misses.filter fun q => decide (k.mmas < q + 1024) }
  let s := (s.fault f c clsCheck 0 0).bump .TEN_FLD_MMA_MISS f
  let s := s.captureLast f c step col 0
  s.log 0x01 0x2001 (f + c * 64) (s.rd .TEN_FLD_LAST f)

/-- What an MMA does; `zero` for MMA ZERO. An injection that lands on one reading a poisoned slot has no effect (R108). DESIGN CHOICE (log entry 99): every MMA counts among the 1,024 of R109, whether or not the
comparator judges it. -/
def mmaEffect (f c : Nat) (zero : Bool) (op : MmaOp) (s : State) : State :=
  let s := s.updCore f c fun k => { k with mmas := k.mmas + 1 }
  let (s, t0, bad0) := if zero then (s, List.replicate 512 0#32, false) else s.readTile f c op.tile
  let k := s.core f c
  let x := k.mmaIn op
  let (s, inj) := s.takeInjection f c false
  let p := x.product k.mmas
  let p := if inj && !k.mmaPoisoned op then injectProduct p else p
  let t1 := if zero then p else tileZip f32Add t0 p
  if k.mmaPoisoned op then s.updCore f c fun k => k.setTile op.tile t1 true
  else
    match mmaCheck x k.mmas t0 t1 with
    | (none, nonFin) =>
      let s := s.updCore f c fun k => k.setTile op.tile t1 bad0
      if nonFin then s.bump .TEN_FLD_NONFINITE f else s
    | (some col, _) => mmaFail f c op t1 col s

/-- MMA ACC adds the product to the tile, R92. -/
def execMmaAcc (a : CoreAt) (op : MmaOp) (s : State) : Res :=
  match mmaReject op with
  | some r => .refused (.loadRejected r)
  | none => .next (s.issue a (mmaEffect a.field a.core false op))

/-- MMA ZERO overwrites the tile with the product, R92. -/
def execMmaZero (a : CoreAt) (op : MmaOp) (s : State) : Res :=
  match mmaReject op with
  | some r => .refused (.loadRejected r)
  | none => .next (s.issue a (mmaEffect a.field a.core true op))

/-! ## VEC -/

/-- Invert bit 22 of the first main-lane result, the injected error of KIND 1. -/
def injectVec : List F32 → List F32
  | x :: xs => (x ^^^ 0x00400000#32) :: xs
  | [] => []

/-- Read source tiles in turn. -/
def State.readTiles (s : State) (f c : Nat) : List (Fin 64) → State × List (List F32) × Bool
  | [] => (s, [], false)
  | t :: ts =>
    let (s, v, b) := s.readTile f c t
    let (s, vs, bs) := s.readTiles f c ts
    (s, v :: vs, b || bs)

/-- What a VEC step does with a result computed from its source tiles: on the check lane both lanes fold every result,
and DST takes the main lane's (R110, R113, R114). -/
def vecEffect (f c : Nat) (dst : Fin 64) (srcs : List (Fin 64)) (g : List (List F32) → List F32) (s : State) : State :=
  let (s, chk) := s.checked f c
  let (s, vs, bad) := s.readTiles f c srcs
  let res := g vs
  if chk then
    let (s, inj) := s.takeInjection f c true
    let main := if inj then injectVec res else res
    s.updCore f c fun k =>
      { k.setTile dst main bad with sigMain := foldSig k.sigMain (tileBytes main),
                                    sigCheck := foldSig k.sigCheck (tileBytes res) }
  else s.updCore f c fun k => k.setTile dst res bad

/-- The i-th source tile. -/
def srcTile (vs : List (List F32)) (i : Nat) : List F32 := vs.getD i []

/-- VEC ADD, R102. -/
def execVecAdd (a : CoreAt) (op : VecOp) (s : State) : Res :=
  .next (s.issue a (vecEffect a.field a.core op.dst [op.src1, op.src2] fun v =>
    tileZip f32Add (srcTile v 0) (srcTile v 1)))

/-- VEC MUL, R102. -/
def execVecMul (a : CoreAt) (op : VecOp) (s : State) : Res :=
  .next (s.issue a (vecEffect a.field a.core op.dst [op.src1, op.src2] fun v =>
    tileZip f32Mul (srcTile v 0) (srcTile v 1)))

/-- VEC FMA with one rounding, R102. -/
def execVecFma (a : CoreAt) (op : VecOp) (s : State) : Res :=
  .next (s.issue a (vecEffect a.field a.core op.dst [op.src1, op.src2, op.src3] fun v =>
    tileFma (srcTile v 0) (srcTile v 1) (srcTile v 2)))

/-- VEC MAX, R102. -/
def execVecMax (a : CoreAt) (op : VecOp) (s : State) : Res :=
  .next (s.issue a (vecEffect a.field a.core op.dst [op.src1, op.src2] fun v =>
    tileZip f32Max (srcTile v 0) (srcTile v 1)))

/-- VEC SCALE, R102. -/
def execVecScale (a : CoreAt) (op : VecOp) (s : State) : Res :=
  .next (s.issue a (vecEffect a.field a.core op.dst [op.src1] fun v =>
    (srcTile v 0).map fun x => f32Mul x op.imm))

/-- VEC COPY, R102. -/
def execVecCopy (a : CoreAt) (op : VecOp) (s : State) : Res :=
  .next (s.issue a (vecEffect a.field a.core op.dst [op.src1] fun v => srcTile v 0))

/-- VEC EXP, R103. -/
def execVecExp (a : CoreAt) (op : VecOp) (s : State) : Res :=
  .next (s.issue a (vecEffect a.field a.core op.dst [op.src1] fun v => (srcTile v 0).map f32Exp))

/-- VEC RSQRT, R103. -/
def execVecRsqrt (a : CoreAt) (op : VecOp) (s : State) : Res :=
  .next (s.issue a (vecEffect a.field a.core op.dst [op.src1] fun v => (srcTile v 0).map f32Rsqrt))

/-- VEC RSUM, R102. -/
def execVecRsum (a : CoreAt) (op : VecOp) (s : State) : Res :=
  .next (s.issue a (vecEffect a.field a.core op.dst [op.src1] fun v => tileRsum (srcTile v 0)))

/-- VEC RMAX, R102. -/
def execVecRmax (a : CoreAt) (op : VecOp) (s : State) : Res :=
  .next (s.issue a (vecEffect a.field a.core op.dst [op.src1] fun v => tileRmax (srcTile v 0)))

/-! ## CVT and STORE -/

/-- Write the 16 scale bytes of an MX conversion at byte P15 × 16 and advance P15, R97. -/
def cvtScales (f c : Nat) (scales : List Byte) (poison : Bool) (format : Nat) (s : State) : State :=
  let a := (s.core f c).ptr 15 * 16
  let (s, ok) := s.stepMayWrite f c (a / 64) 1
  let s := if ok then
      { s with mem := (s.mem.writeIn (sramLine f c 0 + a) scales (bit poison)).touchLines f c (a / 64) 1 (some format) }
    else s
  s.updCore f c fun k => k.setPtr 15 ((k.ptr 15 + 1) % 65536)

/-- What a CVT does: the tile narrowed and written, its scales, the counter (R100) and, on the check lane, the
signatures, in which both lanes agree. DESIGN CHOICE (log entry 113): the element lines and the scale line are two accesses, each written
or refused by itself, and P15 advances in either case. -/
def cvtEffect (f c : Nat) (op : CvtOp) (s : State) : State :=
  let (s, chk) := s.checked f c
  let (s, t, bad) := s.readTile f c op.tile
  let k := s.core f c
  let (bs, scales) := cvtTile op.fmt op.rnd k.seed k.ctr.toNat t
  let s := s.updCore f c fun k =>
    { k with
      ctr := if op.rnd = .stochastic then k.ctr + 512 else k.ctr
      sigMain := if chk then foldSig k.sigMain (bs ++ scales) else k.sigMain
      sigCheck := if chk then foldSig k.sigCheck (bs ++ scales) else k.sigCheck }
  let line := k.line op.mem
  let (s, ok) := s.stepMayWrite f c line (cvtLines op.fmt)
  let s := if ok then s.stepPut f c line (cvtLines op.fmt) bs (lineMask (cvtLines op.fmt) bad) (some op.fmt.code) else s
  if op.fmt.mx then cvtScales f c scales bad op.fmt.code s else s

/-- CVT narrows an accumulator tile to a format and writes it to SRAM, R95. -/
def execCvt (a : CoreAt) (op : CvtOp) (s : State) : Res := .next (s.issue a (cvtEffect a.field a.core op))

/-- STORE ACC_TO_SRAM writes a tile to 32 lines as FP32; FORMAT takes 0xA (R337). -/
def execAccToSram (a : CoreAt) (op : StoreOp) (s : State) : Res :=
  .next (s.issue a fun s =>
    let f := a.field.val
    let c := a.core.val
    let (s, t, bad) := s.readTile f c op.tile
    let line := (s.core f c).line op.mem
    let (s, ok) := s.stepMayWrite f c line 32
    if ok then s.stepPut f c line 32 (tileBytes t) (lineMask 32 bad) (some 0xA) else s)

/-- STORE SRAM_TO_ACC loads a tile from 32 lines of FP32. -/
def execSramToAcc (a : CoreAt) (op : StoreOp) (s : State) : Res :=
  .next (s.issue a fun s =>
    let f := a.field.val
    let c := a.core.val
    let (s, r) := s.stepRead f c ((s.core f c).line op.mem) 32
    match r with
    | some r => s.updCore f c fun k => k.setTile op.tile (bytesTile r.data) r.poison
    | none => s)

end Sys2Proof.Machine
end

