-- ==== Sys2Proof/Machine/LinkTx.lean ====
section
/-!
DEFINITION. Sys2Proof/Machine/LinkTx.lean: the sending side of a link: packets and their bytes (R200, Table 8.4), link
frames and their CRC (R197, Table 8.2), lanes (R191, R192) with their rotation and codewords (R195, R199), and the service of the virtual
channels by credits, replay buffer and share (R203, R205, R207, R208, R213, R282).
-/
namespace Sys2Proof.Machine

/-! ## Packets as bytes -/

/-- The header of a packet, Table 8.4, as a number of 256 bits. -/
def packetHeader (p : Packet) : Nat :=
  p.ptype.toNat + p.slice.toNat * 2 ^ 4 + p.epoch.toNat * 2 ^ 16 + p.replay.toNat * 2 ^ 32 + p.segment.toNat * 2 ^ 34 +
    bit p.mover * 2 ^ 42 + p.code.toNat * 2 ^ 43 + p.lines.val * 2 ^ 48 + bit p.tile * 2 ^ 54 + p.addr.toNat * 2 ^ 64 +
    p.src.toNat * 2 ^ 128 + p.tag.toNat * 2 ^ 160 + p.frame.toNat * 2 ^ 192

/-- A Sorrel record as a number of 128 bits, Table 5.2. -/
def sorrelWord (r : Sorrel) : Nat :=
  r.crc.toNat + r.colsum.toNat * 2 ^ 64 + r.format.toNat * 2 ^ 96 + r.reserved.toNat * 2 ^ 100 + bit r.poison * 2 ^ 111 +
    r.epoch.toNat * 2 ^ 112

/-- The record that 128 bits hold. -/
def sorrelOf (v : Nat) : Sorrel :=
  { crc := BitVec.ofNat 64 (bits v 0 64), colsum := BitVec.ofNat 32 (bits v 64 32), format := BitVec.ofNat 4 (bits v 96 4)
    reserved := BitVec.ofNat 11 (bits v 100 11), poison := bitOf v 111, epoch := BitVec.ofNat 16 (bits v 112 16) }

/-- A packet as it travels: header, data, record. -/
def packetBytes (p : Packet) : List Byte :=
  toBytes 32 (packetHeader p) ++ p.data ++ match p.record with
    | some r => toBytes 16 (sorrelWord r)
    | none => []

/-- Bytes of data that a packet of a type carries for its LINES; the types that carry no lines carry what they bring. -/
def dataBytes (ptype lines total : Nat) : Nat :=
  if ptype = 1 ∨ ptype = 2 ∨ ptype = 4 then (lines + 1) * 64
  else if ptype = 0 ∨ ptype = 3 ∨ ptype = 9 then 0
  else total

/-- The packet that bytes spell; none for a reserved type or a set reserved bit (R201). -/
def parsePacket (bs : List Byte) : Option Packet :=
  let h := leAt bs 0 32
  let body := bs.drop 32
  let t := bits h 0 4
  let n := dataBytes t (bits h 48 6) body.length
  if t > 9 ∨ bits h 55 9 ≠ 0 ∨ bits h 142 18 ≠ 0 ∨ bits h 224 32 ≠ 0 then none
  else some
    { ptype := BitVec.ofNat 4 t, slice := BitVec.ofNat 12 (bits h 4 12), epoch := BitVec.ofNat 16 (bits h 16 16)
      replay := BitVec.ofNat 2 (bits h 32 2), segment := BitVec.ofNat 8 (bits h 34 8), mover := bitOf h 42
      code := BitVec.ofNat 5 (bits h 43 5), lines := Fin.ofNat 64 (bits h 48 6), tile := bitOf h 54
      addr := BitVec.ofNat 64 (bits h 64 64), src := BitVec.ofNat 14 (bits h 128 14)
      tag := BitVec.ofNat 32 (bits h 160 32), frame := BitVec.ofNat 32 (bits h 192 32)
      data := body.take n
      record := if n + 16 ≤ body.length then some (sorrelOf (leAt body n 16)) else none }

/-- VC of a packet type, Table 8.5. -/
def vcOf (ptype : Nat) : Nat :=
  if ptype = 0 ∨ ptype = 2 then 0
  else if ptype = 1 ∨ ptype = 3 ∨ ptype = 9 then 1
  else if ptype = 4 then 2
  else 3

/-- Cut bytes into payloads of 232 bytes. -/
def chunks : Nat → List Byte → List (List Byte)
  | 0, _ => []
  | fuel + 1, bs => if bs.length ≤ 232 then [bs] else bs.take 232 :: chunks fuel (bs.drop 232)

/-- A packet as frames of its VC, the first with the identifier of a time-stamp asked for. -/
def framesOf (p : Packet) (ident : Option Nat) : List TxFrame :=
  let cs := chunks 40 (packetBytes p)
  cs.mapIdx fun i c =>
    { vc := vcOf p.ptype.toNat, sop := i == 0, eop := i + 1 == cs.length, payload := c, slice := p.slice.toNat
      ident := if i = 0 then ident else none }

/-! ## Link frames -/

/-- Bytes 0 to 247 of a link frame, Table 8.2. -/
def frameBytes (f : LinkFrame) : List Byte :=
  toBytes 16 (f.kind.toNat + f.vc.toNat * 2 ^ 4 + bit f.sop * 2 ^ 6 + bit f.eop * 2 ^ 7 + f.len.toNat * 2 ^ 8 +
    f.seq.toNat * 2 ^ 16 + f.ack.toNat * 2 ^ 40 + f.ret0.toNat * 2 ^ 64 + f.ret1.toNat * 2 ^ 80 +
    f.ret2.toNat * 2 ^ 96 + f.ret3.toNat * 2 ^ 112) ++ slice f.payload 0 232

/-- A frame arrives whole: every codeword under it decoded, its CRC matches, its KIND is not reserved (R198). -/
def frameOk (f : LinkFrame) : Bool := f.fecOk && f.kind.toNat < 8 && f.crc.toNat == crc64 (frameBytes f)

/-! ## Links in the state -/

/-- A link slot's state beside its registers. -/
def State.link (s : State) (n : Nat) : Link := mapGet (fun _ => Link.init) s.links n

/-- Change a link slot. -/
def State.updLink (s : State) (n : Nat) (g : Link → Link) : State :=
  { s with links := mapSet (fun _ => Link.init) n (g (s.link n)) s.links }

/-- States of LNK_LINK_STATUS. -/
def linkDisabled : Nat := 0
/-- Down. -/
def linkDown : Nat := 1
/-- Training. -/
def linkTraining : Nat := 2
/-- Up. -/
def linkUp : Nat := 3
/-- Retraining. -/
def linkRetraining : Nat := 4
/-- Miswired. -/
def linkMiswired : Nat := 5
/-- Quarantined. -/
def linkQuarantined : Nat := 6

/-- STATE of a link. -/
def State.linkState (s : State) (n : Nat) : Nat := s.fld F.LNK_LINK_STATUS_STATE n

/-- Lane groups of a link. -/
def State.groupCount (s : State) (n : Nat) : Nat := popCount 4 (s.fld F.LNK_LINK_CFG_GROUPS n)

/-! ## Lanes and groups, R191 and R192 -/

/-- A lane's state beside its registers. -/
def State.lane (s : State) (l : Nat) : Lane := mapGet (fun _ => Lane.init) s.lanes l

/-- Change a lane. -/
def State.updLane (s : State) (l : Nat) (g : Lane → Lane) : State :=
  { s with lanes := mapSet (fun _ => Lane.init) l (g (s.lane l)) s.lanes }

/-- States of LNK_LANE_STATUS. -/
def laneDark : Nat := 0
/-- Signal. -/
def laneSignal : Nat := 1
/-- FEC lock. -/
def laneFec : Nat := 2
/-- Identified. -/
def laneIdentified : Nat := 3
/-- Active. -/
def laneActive : Nat := 4
/-- Failed. -/
def laneFailed : Nat := 5
/-- Excluded. -/
def laneExcluded : Nat := 6

/-- STATE of a lane. -/
def State.laneState (s : State) (l : Nat) : Nat := s.fld F.LNK_LANE_STATUS_STATE l

/-- Is the field out of service in which the link logic of a lane's group lies (R184, R191, R193)? -/
def State.laneFenced (s : State) (l : Nat) : Bool := s.fld F.MSH_FLD_STATE_STATE (l / 24) == 2

/-- A lane that belongs to no link: its path is a LOOP (R237), or its group is out of service with its field (R193). -/
def State.laneApart (s : State) (l : Nat) : Bool := s.fld F.DCK_PATH_TYPE l == 4 || s.laneFenced l

/-- Lanes of a link slot, ascending. -/
def State.lanesOf (s : State) (n : Nat) : List Nat :=
  (((List.range 4).map fun j =>
    if bitOf (s.fld F.LNK_LINK_CFG_GROUPS n) j then rangeFrom (32 * (n / 4) + 8 * j) 8 else []).flatten).filter fun l => !s.laneApart l

/-- The enabled link slot that has a lane's group. -/
def State.slotOfLane (s : State) (l : Nat) : Option Nat :=
  (rangeFrom (l / 32 * 4) 4).find? fun n =>
    s.flag F.LNK_LINK_CFG_ENABLE n && bitOf (s.fld F.LNK_LINK_CFG_GROUPS n) (l / 8 % 4)

/-- The enabled link slot that holds a lane. -/
def State.linkOfLane (s : State) (l : Nat) : Option Nat := if s.laneApart l then none else s.slotOfLane l

/-- Field in which the link logic of a link slot runs, R191 and R192. -/
def linkField (n : Nat) : Nat := n / 3

/-- Active lanes of a link. -/
def State.laneCount (s : State) (n : Nat) : Nat := popCount 32 (s.fld F.LNK_LINK_STATUS_LANES n)

/-- A frame that this end sends, with the ACK and the returns of the moment. -/
def Link.frame (l : Link) (kind vc seq : Nat) (sop eop : Bool) (payload : List Byte) : LinkFrame :=
  let f : LinkFrame :=
    { kind := BitVec.ofNat 4 kind, vc := BitVec.ofNat 2 vc, sop := sop, eop := eop
      len := BitVec.ofNat 8 (if kind = 1 then payload.length else 0), seq := BitVec.ofNat 24 seq
      ack := BitVec.ofNat 24 l.expect, ret0 := BitVec.ofNat 16 l.returned.v0, ret1 := BitVec.ofNat 16 l.returned.v1
      ret2 := BitVec.ofNat 16 l.returned.v2, ret3 := BitVec.ofNat 16 l.returned.v3, payload := slice payload 0 232
      crc := 0, fecOk := true }
  { f with crc := BitVec.ofNat 64 (crc64 (frameBytes f)) }

/-! ## Lanes carry frames, R195 and R199 -/

/-- Lanes of a link that can carry its frames, ascending: the active ones, and during training those that are identified. -/
def State.carriers (s : State) (n : Nat) : List Nat :=
  let ls := s.lanesOf n
  let active := ls.filter fun l => bitOf (s.fld F.LNK_LINK_STATUS_LANES n) (l % 32)
  if active.isEmpty then ls.filter fun l => s.laneState l == laneIdentified else active

/-- A frame enters a lane's link stream. -/
def State.onLane (s : State) (l : Nat) (f : LinkFrame) : State := s.updLane l fun x => { x with line := x.line ++ [f] }

/-- The lane on which a link's next frame leaves: in rotation in increasing lane order. -/
def State.nextLane (s : State) (n : Nat) : Option Nat :=
  let ls := s.carriers n
  (ls.find? fun l => decide ((s.link n).turn < l)).or ls.head?

/-- A frame leaves on the next lane of the link. -/
def State.sendFrame (s : State) (n : Nat) (f : LinkFrame) : State :=
  let s := s.emit (.frame n f)
  match s.nextLane n with
  | some l => (s.updLink n fun k => { k with turn := l }).onLane l f
  | none => s

/-- A frame without a sequence number, sent on a link. -/
def State.sendPlain (s : State) (n kind : Nat) (payload : List Byte) : State :=
  s.sendFrame n ((s.link n).frame kind 0 0 false false payload)

/-- A frame without a sequence number, sent on one lane of a link. -/
def State.sendOnLane (s : State) (n l kind : Nat) (payload : List Byte) : State :=
  let f := (s.link n).frame kind 0 0 false false payload
  (s.emit (.frame n f)).onLane l f

/-- The marker of a codeword: 0x3B6D, and PHASE where it begins 128 bytes into a frame. -/
def codewordMarker (phase : Bool) : BitVec 20 := BitVec.ofNat 20 (0x3B6D + bit phase * 2 ^ 15)

/-- A lane's stream cut into codewords of 640 bytes, the phases alternating: two carry five frames. -/
def codewords : Nat → Bool → List Byte → List (BitVec 20 × List Byte)
  | 0, _, _ => []
  | fuel + 1, phase, bs =>
    if bs.isEmpty then [] else (codewordMarker phase, bs.take 640) :: codewords fuel (!phase) (bs.drop 640)

/-- The 256 bytes of a link frame. -/
def frameWhole (f : LinkFrame) : List Byte := frameBytes f ++ toBytes 8 f.crc.toNat

/-- At a tick IDLE frames fill a lane's stream up to a codeword's end, and its codewords leave. -/
def State.laneCodewords (s : State) (l : Nat) : State :=
  let fs := (s.lane l).line
  if fs.isEmpty then s
  else
    let idle := match s.slotOfLane l with
      | some n => (s.link n).frame 0 0 0 false false []
      | none => Link.init.frame 0 0 0 false false []
    let all := fs ++ List.replicate ((5 - fs.length % 5) % 5) idle
    (codewords all.length false (all.map frameWhole).flatten).foldl (fun s c => s.emit (.codeword l c.1 c.2))
      (s.updLane l fun x => { x with line := [] })

/-! ## Transmit time-stamps, R303 and R304 -/

/-- Change the time block. -/
def State.updTime (s : State) (g : TimeBlock → TimeBlock) : State := { s with time := g s.time }

/-- TIM_TSQ_TIME and TIM_TSQ_INFO show the oldest entry. -/
def State.showTsq (s : State) (q : Nat) : State :=
  let l := s.time.tsq q
  match l with
  | e :: _ =>
    (s.wr .TIM_TSQ_TIME q e.time).wr .TIM_TSQ_INFO q (e.ident + e.source * 2 ^ 16 + 2 ^ 24 + l.length * 2 ^ 25)
  | [] => (s.wr .TIM_TSQ_TIME q 0).wr .TIM_TSQ_INFO q 0

/-- A stamp is appended to its queue; a full queue drops and counts it (R304). -/
def State.stamp (s : State) (q ident source t : Nat) : State :=
  if (s.time.tsq q).length ≥ 64 then s.bump .TIM_TSQ_DROP q
  else (s.updTime fun k => k.setTsq q (k.tsq q ++ [⟨ident, source, t⟩])).showTsq q

/-- A packet's first frame leaves on a link's next lane: the time-stamp asked for enters queue 2. -/
def State.stampLane (s : State) (n : Nat) (ident : Option Nat) : State :=
  match ident, s.nextLane n with
  | some i, some l => s.stamp 2 i l s.now
  | _, _ => s

/-! ## The virtual channels -/

/-- The budget of DATA frames that a slice has on a link in one tick, R282, by the SHARE in force at the tick (R283). -/
def State.shareBudget (s : State) (n slice : Nat) : Nat :=
  match s.entryOf slice with
  | some e => mapGet (fun _ => 64) s.shares e * (s.laneCount n * s.period * 100 / 1024) / 64
  | none => 0

/-- The packets of a VC's queue that begins with one. -/
def packetsOf (q : List TxFrame) : List (List TxFrame) :=
  (q.foldr (fun f acc => if f.sop then ([], (f :: acc.1) :: acc.2) else (f :: acc.1, acc.2)) (([] : List TxFrame), ([] : List (List TxFrame)))).2

/-- The queue of a VC with the packet to serve in front: one of which a frame was sent goes on; VC 3 is served in order; and on VCs 0 to 2
the first packet whose slice has budget goes before those without (R205, R282). -/
def State.readyQueue (s : State) (n v : Nat) : List TxFrame :=
  let l := s.link n
  let q := l.queue.get v
  match q with
  | [] => []
  | f :: _ =>
    if !f.sop || v == 3 then q
    else
      let may := fun (p : List TxFrame) => p.any fun f => decide (mapGet (fun _ => 0) l.used f.slice < s.shareBudget n f.slice)
      let ps := packetsOf q
      match firstIdx may 0 ps with
      | some i => (ps.getD i [] :: ps.eraseIdx i).flatten
      | none => []

/-- Does a link carry packets of a VC: an UP link every one, a MISWIRED or QUARANTINED one VC 3 (R212)? -/
def State.carriesVc (s : State) (n v : Nat) : Bool :=
  s.linkState n == linkUp || v == 3 && (s.linkState n == linkMiswired || s.linkState n == linkQuarantined)

/-- Has the replay buffer of a link room (R208)? -/
def State.replayRoom (s : State) (n : Nat) : Bool := decide ((s.link n).replay.length < 4096 * s.groupCount n)

/-- May the next frame of a VC be sent: a credit is in hand, the replay buffer has room, no AUDIT frame is to go first, and a packet of VC
0 to 2 starts within its slice's budget (R203, R208, R213, R282)? -/
def State.maySend (s : State) (n v : Nat) : Bool :=
  let l := s.link n
  !(s.readyQueue n v).isEmpty && decide (0 < l.credHand.get v) && s.replayRoom n && !l.auditDue && s.carriesVc n v

/-- The VC to serve next: VC 3 first, then VCs 0 to 2 in rotation, packet by packet (R205). -/
def State.nextVc (s : State) (n : Nat) : Option Nat :=
  let l := s.link n
  let order := if l.mid then [3, l.cur, (l.cur + 1) % 3, (l.cur + 2) % 3]
               else [3, (l.cur + 1) % 3, (l.cur + 2) % 3, l.cur]
  order.find? (s.maySend n)

/-- Send the next frame of a VC for the first time. -/
def State.sendVc (s : State) (n v : Nat) : State :=
  let l := s.link n
  match s.readyQueue n v with
  | [] => s
  | f :: fs =>
    let l' := { l with
      queue := l.queue.upd v fun _ => fs
      cur := if v < 3 then v else l.cur
      mid := if v < 3 then !f.eop else l.mid
      seq := (l.seq + 1) % 2 ^ 24
      replay := l.replay ++ [⟨l.seq, 1, f, 0⟩]
      sent := l.sent.upd v (· + 1)
      credHand := l.credHand.upd v (· - 1)
      used := if v < 3 then mapSet (fun _ => 0) f.slice (mapGet (fun _ => 0) l.used f.slice + 1) l.used else l.used }
    ((s.updLink n fun _ => l').stampLane n f.ident).sendFrame n (l.frame 1 v l.seq f.sop f.eop f.payload)

/-- The payload of an AUDIT frame: S, C and A of each VC (R213). -/
def Link.auditPayload (l : Link) : List Byte :=
  ((List.range 4).map fun v =>
    toBytes 4 (l.sent.get v) ++ toBytes 4 (l.credRecv.get v) ++ toBytes 2 (l.credHand.get v) ++ List.replicate 6 0).flatten

/-- An AUDIT frame that is due goes into the sequenced stream of an UP link as soon as the replay buffer has room. -/
def State.auditSend (s : State) (n : Nat) : State :=
  let l := s.link n
  if l.auditDue && s.linkState n == linkUp && s.replayRoom n then
    let t : TxFrame := { vc := 0, sop := false, eop := false, payload := l.auditPayload, slice := 0, ident := none }
    let s := s.updLink n fun l => { l with auditDue := false, seq := (l.seq + 1) % 2 ^ 24, replay := l.replay ++ [⟨l.seq, 3, t, 0⟩] }
    s.sendFrame n (l.frame 3 0 l.seq false false l.auditPayload)
  else s

/-- Send what may be sent on a link. -/
def State.pumpGo (s : State) (n : Nat) : Nat → State
  | 0 => s
  | fuel + 1 =>
    match s.nextVc n with
    | some v => (s.sendVc n v).pumpGo n fuel
    | none => s

/-- Frames queued on a link. -/
def Link.queued (l : Link) : Nat :=
  l.queue.v0.length + l.queue.v1.length + l.queue.v2.length + l.queue.v3.length

/-- Send what may be sent on a link. -/
def State.pump (s : State) (n : Nat) : State := (s.auditSend n).pumpGo n (s.link n).queued

/-- Hand a packet to a link slot, with the identifier of a time-stamp where one is asked for. -/
def State.sendLink (s : State) (n : Nat) (p : Packet) (ident : Option Nat := none) : State :=
  (s.updLink n fun l => { l with queue := l.queue.upd (vcOf p.ptype.toNat) (· ++ framesOf p ident) }).pump n

end Sys2Proof.Machine
end

