-- ==== Sys2Proof/Machine/Route.lean ====
section
/-!
DEFINITION. Sys2Proof/Machine/Route.lean: coordinates and boxes (R265 to R269), the choice of a packet's link slot
(R272, R273) and slice-relative field numbers (R269).
-/
namespace Sys2Proof.Machine

/-- Coordinates of a module id, R10. -/
def coordsOf (id : Nat) : Nat × Nat × Nat := (id % 32, id / 32 % 32, id / 1024 % 16)

/-- Module id of coordinates, R10. -/
def idOf (x y z : Nat) : Nat := z * 1024 + y * 32 + x

/-- Size of the machine on each axis, R265. -/
def State.dims (s : State) : Nat × Nat × Nat :=
  (s.fld F.RTE_MACHINE_DIM_X + 1, s.fld F.RTE_MACHINE_DIM_Y + 1, s.fld F.RTE_MACHINE_DIM_Z + 1)

/-- A slice's box in force: origin, extent and wrap of each axis, R269. -/
structure Box where
  ox : Nat
  oy : Nat
  oz : Nat
  ex : Nat
  ey : Nat
  ez : Nat
  wx : Bool
  wy : Bool
  wz : Bool
deriving DecidableEq, Repr

/-- The box of an origin, an extent and a wrap mask as RTE_SLICE_BOX spells them. -/
def boxAt (o x w : Nat) : Box :=
  { ox := bits o 0 5, oy := bits o 5 5, oz := bits o 10 4
    ex := bits x 0 5 + 1, ey := bits x 5 5 + 1, ez := bits x 10 4 + 1
    wx := bitOf w 0, wy := bitOf w 1, wz := bitOf w 2 }

/-- The box of slice entry e. -/
def State.box (s : State) (e : Nat) : Box :=
  boxAt (s.fld F.RTE_SLICE_BOX_ORIGIN e) (s.fld F.RTE_SLICE_BOX_EXTENT e) (s.fld F.RTE_SLICE_BOX_WRAP e)

/-- The position of a rank, R269. -/
def Box.position (b : Box) (rank : Nat) : Nat × Nat × Nat := (rank % b.ex, rank / b.ex % b.ey, rank / (b.ex * b.ey))

/-- The module id of a position, without substitutions, in a machine of a size. -/
def Box.moduleAt (b : Box) (d p : Nat × Nat × Nat) : Nat :=
  idOf ((b.ox + p.1) % d.1) ((b.oy + p.2.1) % d.2.1) ((b.oz + p.2.2) % d.2.2)

/-- How many members a box has. -/
def Box.size (b : Box) : Nat := b.ex * b.ey * b.ez

/-- The logical module id of a physical one under entry e's substitutions, R284. -/
def State.logicalId (s : State) (e m : Nat) : Nat :=
  match (List.range 4).find? fun i =>
      s.flag F.RTE_SLICE_SUBST_VALID (4 * e + i) && s.fld F.RTE_SLICE_SUBST_PHYSICAL (4 * e + i) == m with
  | some i => s.fld F.RTE_SLICE_SUBST_LOGICAL (4 * e + i)
  | none => m

/-- The physical module id of a logical one under entry e's substitutions. -/
def State.physicalId (s : State) (e m : Nat) : Nat :=
  match (List.range 4).find? fun i =>
      s.flag F.RTE_SLICE_SUBST_VALID (4 * e + i) && s.fld F.RTE_SLICE_SUBST_LOGICAL (4 * e + i) == m with
  | some i => s.fld F.RTE_SLICE_SUBST_PHYSICAL (4 * e + i)
  | none => m

/-- Position of a module within entry e's box, substitutions applied; none outside it. -/
def State.posOf (s : State) (e m : Nat) : Option (Nat × Nat × Nat) :=
  let (x, y, z) := coordsOf (s.logicalId e m)
  let (dx, dy, dz) := s.dims
  let b := s.box e
  let px := (x + dx - b.ox % dx) % dx
  let py := (y + dy - b.oy % dy) % dy
  let pz := (z + dz - b.oz % dz) % dz
  if px < b.ex ∧ py < b.ey ∧ pz < b.ez then some (px, py, pz) else none

/-- Rank of a member, R269. -/
def State.rankOf (s : State) (e m : Nat) : Option Nat :=
  match s.posOf e m with
  | some (px, py, pz) => let b := s.box e; some ((pz * b.ey + py) * b.ex + px)
  | none => none

/-- Module id of the member of a rank. -/
def State.memberOf (s : State) (e rank : Nat) : Option Nat :=
  let b := s.box e
  if rank < b.size then some (s.physicalId e (b.moduleAt s.dims (b.position rank))) else none

/-- Number of members of entry e's box. -/
def State.memberCount (s : State) (e : Nat) : Nat := (s.box e).size

/-- Where a packet goes: delivered on this module, out through a link slot, or refused with a code of Table 5.4. -/
inductive Routed where
  | here
  | out (link : Nat)
  | refused (code : Nat)
deriving DecidableEq, Repr

/-- Code NO_ROUTE. -/
def codeNoRoute : Nat := 0x0D

/-- Send through a link slot if its routing entry is open, R272. -/
def State.viaLink (s : State) (ls : Nat) : Routed :=
  match s.fld F.RTE_LINK_STATE ls with
  | 1 => .out ls
  | 2 => .refused 0x0E
  | _ => .refused 0x0F

/-- Direction on one axis: 0 for +, 1 for −, R272. -/
def axisDir (wraps : Bool) (ext p q : Nat) : Nat :=
  if wraps then (if (p + ext - q) % ext ≤ ext / 2 then 0 else 1)
  else if q < p then 0 else 1

/-- The direction (0 X+ to 5 Z−) of the hop toward a position of a box from another: on the first axis on which they differ (R272). -/
def Box.way (b : Box) (p q : Nat × Nat × Nat) : Option Nat :=
  if p.1 ≠ q.1 then some (axisDir b.wx b.ex p.1 q.1)
  else if p.2.1 ≠ q.2.1 then some (2 + axisDir b.wy b.ey p.2.1 q.2.1)
  else if p.2.2 ≠ q.2.2 then some (4 + axisDir b.wz b.ez p.2.2 q.2.2)
  else none

/-- Send by the hop of a direction of slice entry e. -/
def State.viaHop (s : State) (e d : Nat) : Routed :=
  let h := bits (s.fld F.RTE_SLICE_HOP_HOP e) (6 * d) 6
  if bitOf h 5 then s.viaLink (bits h 0 5) else .refused codeNoRoute

/-- The hop toward a position of the box, R272. -/
def State.hopToward (s : State) (e : Nat) (p q : Nat × Nat × Nat) : Routed :=
  match (s.box e).way p q with
  | none => .here
  | some d => s.viaHop e d

/-- The route to a module that lies in the box; NO_ROUTE where this module does not. -/
def State.routeInBox (s : State) (e : Nat) (p : Nat × Nat × Nat) : Routed :=
  match s.posOf e s.selfId with
  | some q => s.hopToward e p q
  | none => .refused codeNoRoute

/-- The link slot of a packet for slice entry e to module m, R272. -/
def State.route (s : State) (e m : Nat) : Routed :=
  if m = s.selfId then .here
  else match s.posOf e m with
    | some p => s.routeInBox e p
    | none =>
      match (List.range 8).find? fun i =>
          s.flag F.RTE_SLICE_PEER_VALID (8 * e + i) && s.fld F.RTE_SLICE_PEER_MODULE (8 * e + i) == m with
      | some i =>
        if s.flag F.RTE_SLICE_PEER_VIA (8 * e + i) then
          match s.posOf e (s.fld F.RTE_SLICE_PEER_GATEWAY (8 * e + i)) with
          | some p => s.routeInBox e p
          | none => .refused codeNoRoute
        else s.viaLink (s.fld F.RTE_SLICE_PEER_LINK (8 * e + i))
      | none => .refused codeNoRoute

/-- The link slot of a direction of an entry's hops. -/
def State.hopLink (s : State) (e d : Nat) : Option Nat :=
  let h := bits (s.fld F.RTE_SLICE_HOP_HOP e) (6 * d) 6
  if bitOf h 5 then some (bits h 0 5) else none

/-- The link slot that R272 chooses toward a module, whatever its state. -/
def State.slotToward (s : State) (e m : Nat) : Option Nat :=
  let toward := fun (p : Nat × Nat × Nat) => (s.posOf e s.selfId).bind fun q => ((s.box e).way p q).bind (s.hopLink e)
  match s.posOf e m with
  | some p => toward p
  | none =>
    match (List.range 8).find? fun i =>
        s.flag F.RTE_SLICE_PEER_VALID (8 * e + i) && s.fld F.RTE_SLICE_PEER_MODULE (8 * e + i) == m with
    | some i =>
      if s.flag F.RTE_SLICE_PEER_VIA (8 * e + i) then (s.posOf e (s.fld F.RTE_SLICE_PEER_GATEWAY (8 * e + i))).bind toward
      else some (s.fld F.RTE_SLICE_PEER_LINK (8 * e + i))
    | none => none

/-- The route of a slice's packet; NO_ROUTE without an entry. -/
def State.routeSlice (s : State) (slice m : Nat) : Routed :=
  if m = s.selfId then .here
  else match s.entryOf slice with
    | some e => s.route e m
    | none => .refused codeNoRoute

/-- Where a packet that is on its way goes on toward a module: by the link slot that R272 chooses, open or closing, since what was issued
before a closing still travels (R231). -/
def State.routeOnward (s : State) (e m : Nat) : Routed :=
  if m = s.selfId then .here
  else match s.slotToward e m with
    | some l => if s.fld F.RTE_LINK_STATE l = 0 then .refused 0x0F else .out l
    | none => .refused codeNoRoute

/-- The response to a request that arrived through a link slot or from the mesh: a holder returns it on the link slot on
which the request arrived, any other module by R272 (R273). -/
def State.routeResponse (s : State) (slice src : Nat) (arrived : Option Nat) : Routed :=
  match s.entryOf slice, arrived with
  | some e, some l => if s.flag F.RTE_SLICE_ROLE e then .out l else s.routeOnward e src
  | some e, none => s.routeOnward e src
  | none, _ => if src = s.selfId then .here else .refused codeNoRoute

/-- A packet of the management channel that this module sends to a module. -/
def State.managePacket (s : State) (ptype slice m : Nat) (data : List Byte) : Packet :=
  { ptype := BitVec.ofNat 4 ptype, slice := BitVec.ofNat 12 slice, epoch := BitVec.ofNat 16 (s.epochOf slice), replay := 0, segment := 0
    mover := false, code := 0, lines := Fin.ofNat 64 (ceilDiv data.length 64 - 1), tile := false, addr := BitVec.ofNat 64 (m * 2 ^ 50)
    src := BitVec.ofNat 14 s.selfId, tag := 0, frame := 0, data := data, record := none }

end Sys2Proof.Machine
end

