-- ==== Sys2Proof/Machine/Mmu.lean ====
section
/-!
DEFINITION. Sys2Proof/Machine/Mmu.lean: translation of slice-virtual addresses (R133 to R136), the field's cache of leaf
translations (R135), the capture of faults, and reads and writes at their target on this module (R118 to R128, R140,
R276, Table 14.2).
-/
namespace Sys2Proof.Machine

/-- Sequencer class of an MMU fault code, Table 5.4. -/
def codeClass (code : Nat) : Nat :=
  if code = 0x05 ∨ code = 0x07 then clsOutputBound
  else if code = 0x06 then clsInputWrite
  else if code = 0x09 ∨ code = 0x0A ∨ code = 0x0B then clsPoison
  else if code = 0x0D ∨ code = 0x0E ∨ code = 0x0F ∨ code = 0x10 then clsUnreachable
  else clsTranslation

/-- Count a fault of a field's MMU and capture the first in MMU_FLD_FAULT (Table 5.4); an access without a route is
counted in RTE_NOROUTE. `source` is a core index, or a mover number when `mover` is set. -/
def State.mmuFault (s : State) (f source : Nat) (mover write : Bool) (slice frame code va : Nat) : State :=
  let s := s.bump .MMU_FLD_FAULTS f
  let s := if code = codeNoRoute then s.bump .RTE_NOROUTE else s
  if s.flag F.MMU_FLD_FAULT_VALID f then s
  else
    let v := code + 2 ^ 5 + bit write * 2 ^ 6 + bit mover * 2 ^ 7 + slice * 2 ^ 8 + source * 2 ^ 20 +
      frame % 2 ^ 32 * 2 ^ 29
    (s.wr .MMU_FLD_FAULT f v).wr .MMU_FLD_FAULT_VA f va

/-- The field at which a record that arrives at an offset is counted, R341; the field of the core or of the LPDDR controller that serves
it. -/
def fieldAt (o : Nat) : Nat :=
  match placeOf o with
  | .sram f _ _ => f
  | _ => deviceField (deviceOf o)

/-- Are a field's routers, controllers and link logic in service: is it not fenced (R184)? -/
def State.fieldUp (s : State) (f : Nat) : Bool := s.fld F.MSH_FLD_STATE_STATE f != 2

/-- Does the field that serves an offset answer? -/
def State.serves (s : State) (o : Nat) : Bool := s.fieldUp (fieldAt o)

/-! ## The table walk, R133 and R134 -/

/-- Read a 16-byte table entry at a global address of this module; code TIMEOUT where a fenced field's controller does not answer (R137, R184),
and TABLE_ERROR for an uncorrectable error. -/
def State.readEntry (s : State) (ga : Nat) : State × Except Nat Nat :=
  let o := ga % 2 ^ 50
  if !s.serves o then (s, .error 0x10)
  else
    let (s, r) := s.readLine o 0
    if r.ue || r.poison then (s, .error 0x08) else (s, .ok (leAt r.data (o % 64) 16))

/-- Does a global address lie in this module's reserved LPDDR region, with n bytes after it? -/
def State.inReserved (s : State) (ga n : Nat) : Bool :=
  ga / 2 ^ 50 == s.selfId && decide (reservedBase ≤ ga % 2 ^ 50) && decide (ga % 2 ^ 50 + n ≤ lpddrEnd)

/-- Does an entry break a rule of Table 5.3? `top` for an entry of the top level. -/
def State.pteBad (s : State) (top : Bool) (e : Nat) : Bool :=
  bits e 4 4 != 0 || bits e 20 57 != 0 ||
  (if bitOf e 1 then bits e 77 8 != 0 || (top && bits e 85 9 != 0)
   else !top || !s.inReserved (bits e 77 51 * 2 ^ 13) 8192)

/-- The leaf that a valid leaf entry holds. -/
def leafOf (slot va : Nat) (huge : Bool) (e : Nat) : Leaf :=
  { slot := slot, huge := huge, page := if huge then va / 2 ^ 30 else va / 2 ^ 21
    target := bits e 85 43, write := bitOf e 2, poison := bitOf e 3, slice := bits e 8 12 }

/-- Outcome of a walk: a leaf or a fault code. -/
inductive Walk where
  | leaf (l : Leaf)
  | fault (code : Nat)
deriving DecidableEq, Repr

/-- The walk of R133. -/
def State.walk (s : State) (slot va : Nat) : State × Walk :=
  let root := s.rd .MMU_SLOT_ROOT slot
  match s.readEntry (root + va / 2 ^ 30 * 16) with
  | (s, .error code) => (s, .fault code)
  | (s, .ok e1) =>
    if !bitOf e1 0 then (s, .fault 0x01)
    else if s.pteBad true e1 then (s, .fault 0x02)
    else if bitOf e1 1 then (s, .leaf (leafOf slot va true e1))
    else
      match s.readEntry (bits e1 77 51 * 2 ^ 13 + va / 2 ^ 21 % 512 * 16) with
      | (s, .error code) => (s, .fault code)
      | (s, .ok e2) =>
        if !bitOf e2 0 then (s, .fault 0x01)
        else if s.pteBad false e2 then (s, .fault 0x02)
        else (s, .leaf (leafOf slot va false e2))

/-- Does a cached leaf serve a slot's address, R135? -/
def Leaf.hits (l : Leaf) (slot va : Nat) : Bool :=
  l.slot == slot && l.page == (if l.huge then va / 2 ^ 30 else va / 2 ^ 21)

/-- A field's cache, most recently used first. -/
def State.cacheOf (s : State) (f : Nat) : List Leaf := mapGet (fun _ => []) s.mmuCache f

/-- Replace a field's cache. -/
def State.setCache (s : State) (f : Nat) (c : List Leaf) : State :=
  { s with mmuCache := mapSet (fun _ => []) f c s.mmuCache }

/-- The leaf for an address: from the cache, or from a walk that is counted as a miss and cached (R135). -/
def State.findLeaf (s : State) (f slot va : Nat) : State × Walk :=
  let c := s.cacheOf f
  match c.find? fun l => l.hits slot va with
  | some l => (s.setCache f (l :: c.filter fun x => !(x.hits slot va)), .leaf l)
  | none =>
    let s := s.bump .MMU_FLD_MISS f
    match s.walk slot va with
    | (s, .leaf l) => (s.setCache f ((l :: c).take 512), .leaf l)
    | r => r

/-- The global address a leaf gives, R133. -/
def Leaf.address (l : Leaf) (va : Nat) : Nat :=
  if l.huge then (l.target * 2 ^ 21 / 2 ^ 30 * 2 ^ 30) + va % 2 ^ 30 else l.target * 2 ^ 21 + va % 2 ^ 21

/-- Where an access goes: a module offset here, a module offset through a link slot, or a fault code. -/
inductive Access where
  | here (o : Nat)
  | away (ga link : Nat)
  | fault (code : Nat)
deriving DecidableEq, Repr

/-- Is a module offset of this module one that a slice may reach (R118, R120)? -/
def reachable (o : Nat) : Bool :=
  match placeOf o with
  | .job => true
  | .sram _ w _ => decide (w < 450)
  | _ => false

/-- The target of a global address for a slice: HOLE here, or the route away (R136 step 4). -/
def State.targetOf (s : State) (slice ga : Nat) : Access :=
  if ga / 2 ^ 50 = s.selfId then
    if reachable (ga % 2 ^ 50) then .here (ga % 2 ^ 50) else .fault 0x04
  else match s.routeSlice slice (ga / 2 ^ 50) with
    | .out l => .away ga l
    | .refused c => .fault c
    | .here => .here (ga % 2 ^ 50)

/-- Translate an address of a slot's slice at a field (R133 to R136, steps 2 to 4); in a fenced field, whose router carries no request, the
access meets TIMEOUT (R137, R184). -/
def State.translate (s : State) (f slot slice va : Nat) (write : Bool) : State × Access :=
  if !s.fieldUp f then (s, .fault 0x10)
  else match s.findLeaf f slot va with
  | (s, .fault c) => (s, .fault c)
  | (s, .leaf l) =>
    if l.slice ≠ slice then (s, .fault 0x03)
    else if l.poison then (s, .fault 0x09)
    else if write && !l.write then (s, .fault 0x05)
    else (s, s.targetOf slice (l.address va))

/-! ## At the target on this module -/

/-- What a read at its target gives: the data, the mask of poisoned lines, a fault code (0 for none), and the record of a whole tile. -/
structure TargetRead where
  data : List Byte
  mask : Nat
  code : Nat
  record : Option Sorrel
deriving DecidableEq, Repr

/-- Does an access of n lines at an offset cover one whole tile? -/
def wholeTile (o n : Nat) : Bool := n == 64 && o % 4096 == 0

/-- What tells of the poisoned lines of data that travel without a tile's record, POISON and one bit for each line, and of the FORMAT that data
of a FILL or a submitter gives its tile (log entry 91). -/
def poisonRecord (mask : Nat) (raw : Bool) : Option Sorrel :=
  if mask = 0 ∧ !raw then none
  else some { Sorrel.zero with crc := BitVec.ofNat 64 mask, poison := mask != 0, format := if raw then 0xF else 0 }

/-- The FORMAT that data of less than a tile gives the tile it is written to. -/
def packetFormat (p : Packet) : Option Nat :=
  match p.record with
  | some r => if !p.tile && r.format == 0xF then some 0xF else none
  | none => none

/-- The poisoned lines of a packet's data: all lines of a tile whose record has POISON, else those that are told. -/
def packetMask (p : Packet) : Nat :=
  match p.record with
  | some r => if !r.poison then 0 else if p.tile then lineMask 64 true else r.crc.toNat
  | none => 0

/-- Does this module refuse a slice's access to an offset: the frame's owner (R140) or the ingress filter (R276)? The
filter counts what it refuses. -/
def State.ownerCheck (s : State) (slice o : Nat) : State × Bool :=
  match placeOf o with
  | .job => (s, decide (s.mem.ownerOf (o / 2 ^ 21) = slice + 1))
  | .sram f _ _ => if s.fieldOwner f = some slice then (s, true) else (s.bump .RTE_FILTER_DROP, false)
  | _ => (s, false)

/-- Read lines at a target of this module for a slice: HOLE, TIMEOUT of a fenced field that does not answer (R137, R184), OWNER, DATA_UE or
RECORD, or the data (R136 step 5). `point` is the point of Table 14.2 at which a tile leaves SRAM. -/
def State.targetRead (s : State) (slice o n frame point : Nat) : State × TargetRead :=
  if !reachable o then (s, ⟨[], 0, 0x04, none⟩)
  else if !s.serves o then (s, ⟨[], 0, 0x10, none⟩)
  else
    match s.ownerCheck slice o with
    | (s, false) => (s, ⟨[], 0, 0x0C, none⟩)
    | (s, true) =>
      if wholeTile o n then
        let (s, t) := match placeOf o with
          | .sram _ _ _ => s.tileFromSram o frame (s.epochOf slice) point
          | _ => s.tileFromLpddr o frame (s.epochOf slice)
        (s, ⟨t.data, lineMask 64 t.record.poison, if t.bad then 0x0B else if t.ue then 0x0A else 0, some t.record⟩)
      else
        let (s, r) := s.readLines o frame n
        (s, ⟨r.data, r.mask, if r.ue then 0x0A else 0, none⟩)

/-- May a slice write lines at a target of this module (R62, R136 step 5)? The code that refuses it, or 0. -/
def State.targetMayWrite (s : State) (slice o n : Nat) : State × Nat :=
  if !reachable o then (s, 0x04)
  else if !s.serves o then (s, 0x10)
  else
    match s.ownerCheck slice o with
    | (s, false) => (s, 0x0C)
    | (s, true) =>
      let input := match placeOf o with
        | .sram f w b => (rangeFrom (b / 64) n).any (s.inputLine f w)
        | _ => false
      (s, if input then 0x06 else 0)

/-- Write lines at a target of this module for a slice: the code that refuses it, or 0 with the lines written and the
tile's side data kept (R62, R123, R127, R338; Table 14.2 point 5, or 6 for a mover). `format` is what part of a tile sets FORMAT to (R337). -/
def State.targetWrite (s : State) (slice epoch o n : Nat) (bs : List Byte) (mask : Nat) (record : Option Sorrel)
    (format : Option Nat) (point : Nat) : State × Nat :=
  match s.targetMayWrite slice o n with
  | (s, 0) =>
    match record, wholeTile o n with
    | some r, true =>
      if sorrelOk bs r then ({ s with mem := s.mem.storeTile o bs r }, 0)
      else (s.recordFailure (fieldAt o) point, 0x0B)
    | _, _ =>
      let m := s.mem.writeLines o n bs mask
      let m := match placeOf o with
        | .sram _ _ _ => m.touchSram o format
        | _ => m.touchLpddr o epoch
      ({ s with mem := m }, 0)
  | r => r

end Sys2Proof.Machine
end

