-- ==== Sys2Proof/Machine/Global.lean ====
section
/-!
DEFINITION. Sys2Proof/Machine/Global.lean: the steps that leave the core: SEND (R76, R277), GREAD and GWRITE (R74,
R136, R139). A GLOBAL step is carried out in pieces that do not cross a 4 KiB boundary of slice-virtual space, since a
remote request carries at most 4,096 bytes (R200).
-/
namespace Sys2Proof.Machine

/-- A piece of a GLOBAL step: slice-virtual address, first local line, lines. -/
structure Piece where
  va : Nat
  line : Nat
  n : Nat
deriving DecidableEq, Repr

/-- The pieces of a GLOBAL step; addresses are taken modulo 2^48 (R74). -/
def piecesOf (va line : Nat) : Nat → Nat → List Piece
  | 0, _ => []
  | _, 0 => []
  | fuel + 1, n =>
    let k := min n (64 - va / 64 % 64)
    { va := va, line := line, n := k } :: piecesOf ((va + 64 * k) % 2 ^ 48) (line + k) fuel (n - k)

/-- A core's slice, slot, frame number, replay count, epoch and step at an access. -/
structure Who where
  slice : Nat
  slot : Nat
  frame : Nat
  replay : Nat
  epoch : Nat
  step : Nat
deriving DecidableEq, Repr

/-- Who accesses from a core; without an owner, slice 0 of a slot that serves nothing. -/
def State.who (s : State) (f c : Nat) : Who :=
  let sl := s.sliceOfField f
  { slice := sl, slot := (s.slotOfField f).getD 56, frame := s.frameOfField f, replay := s.replayOfField f,
    epoch := s.epochOf sl, step := (s.core f c).pc }

/-- The packet of a request or exchange of this module. -/
def State.packetOf (s : State) (ptype : Nat) (w : Who) (addr tag lines : Nat) (data : List Byte)
    (record : Option Sorrel) : Packet :=
  { ptype := BitVec.ofNat 4 ptype, slice := BitVec.ofNat 12 w.slice, epoch := BitVec.ofNat 16 w.epoch
    replay := BitVec.ofNat 2 w.replay, segment := 0, mover := false, code := 0
    lines := Fin.ofNat 64 (lines - 1), tile := record.isSome, addr := BitVec.ofNat 64 addr
    src := BitVec.ofNat 14 s.selfId, tag := BitVec.ofNat 32 tag, frame := BitVec.ofNat 32 w.frame
    data := data, record := record }

/-- A fresh requester's tag: the field in its low 6 bits. -/
def State.freshTag (s : State) (f : Nat) : State × Nat :=
  ({ s with nextTag := (s.nextTag + 1) % 2 ^ 26 }, s.nextTag * 64 + f)

/-- Fill lines of a core with poisoned data: an access that faulted, R136. -/
def State.poisonFill (s : State) (f c line n : Nat) : State :=
  let m := forNats (fun i m => m.poisonLine (sramLine f c (line + i)) (s.free + 1)) (List.range n) s.mem
  { s with mem := m.touchLines f c line n (some 0xF), free := s.free + 1 }

/-- An access of a core faults: the MMU counts and captures it, and the frame takes the code's class (R136). -/
def State.accessFault (s : State) (f c : Nat) (w : Who) (write : Bool) (code va : Nat) (lines : Nat := 1) (link : Option Nat := none) :
    State :=
  (s.mmuFault f c false write w.slice w.frame code va).faultAt f c w.step (codeClass code) code va lines link

/-- Does the data of a response agree with the record that came with it (Table 14.2, point 4)? -/
def recordFits (bs : List Byte) : Option Sorrel → Bool
  | some r => sorrelOk bs r
  | none => true

/-- The lines of a GREAD that returned are written, poisoned or clean; a whole tile keeps the FORMAT of its record. -/
def State.greadPut (s : State) (f c line n : Nat) (bs : List Byte) (mask : Nat) (record : Option Sorrel) : State :=
  let fmt := match record with
    | some r => if n == 64 && line % 64 == 0 then r.format.toNat else 0xF
    | none => 0xF
  s.stepPut f c line n bs mask (some fmt)

/-- A GLOBAL step in the pieces of its address range, with the local lines that it covers and the group of its requests. -/
structure GlobalRun where
  who : Who
  line : Nat
  n : Nat
  group : Nat

/-- What the mesh does to the next access within the module; a dropped header and a failed payload are counted in the field that finds
them (R173). -/
def State.flitNext (s : State) (target : Nat) : State × Flit :=
  match s.flits with
  | [] => (s, .intact)
  | x :: xs =>
    let s : State := { s with flits := xs }
    match x with
    | .intact => (s, x)
    | .dropped f => (s.bump .MSH_FLD_FLIT_ERR f, x)
    | .spoilt => (s.bump .MSH_FLD_FLIT_ERR target, x)

/-- A core's access is outstanding; `link` is the slot through which its request left the module. -/
def State.noteRemote (s : State) (f c : Nat) (g : GlobalRun) (write : Bool) (p : Piece) (tag : Nat) (link : Option Nat) : State :=
  let rm : Remote := { tag := tag, group := g.group, field := f, core := c, write := write, line := p.line, count := p.n
                       base := g.line, total := g.n, live := true, spoiled := false, va := p.va, step := g.who.step
                       frame := g.who.frame, replay := g.who.replay, start := s.up, link := link }
  { s with remotes := s.remotes ++ [rm] }.updCore f c fun k => { k with outstanding := k.outstanding + 1 }

/-- A piece whose header the mesh has dropped: nobody answers it, and it times out (R137, R173). -/
def State.askNobody (s : State) (f c : Nat) (g : GlobalRun) (write : Bool) (p : Piece) : State :=
  let (s, tag) := s.freshTag f
  s.noteRemote f c g write p tag none

/-- Ask another module for one piece of a GLOBAL step; `mask` tells the poisoned lines of data that has no record. -/
def State.askAway (s : State) (f c : Nat) (g : GlobalRun) (write : Bool) (p : Piece) (ga l : Nat) (bs : List Byte) (record : Option Sorrel)
    (mask : Nat) : State :=
  let (s, tag) := s.freshTag f
  let pk := { s.packetOf (if write then 0x2 else 0x0) g.who ga tag p.n bs (record.orElse fun _ => poisonRecord mask false) with
              tile := wholeTile ga p.n && (!write || record.isSome) }
  (s.sendLink l pk).noteRemote f c g write p tag (some l)

/-- What the other requests of a group still bring is not used: the step has faulted. -/
def State.spoil (s : State) (group : Nat) : State :=
  { s with remotes := s.remotes.map fun r => if r.group = group then { r with spoiled := true } else r }

/-- A GREAD faults: all its target lines are filled with poisoned data (R136). -/
def State.greadFault (s : State) (f c : Nat) (g : GlobalRun) (code va : Nat) (lines : Nat := 1) : State :=
  ((s.spoil g.group).poisonFill f c g.line g.n).accessFault f c g.who false code va lines

/-- Translate the pieces of an access in turn, up to the first that faults (R136). -/
def State.translatePieces (s : State) (f : Nat) (w : Who) (write : Bool) :
    List Piece → State × List (Piece × Access) × Option (Nat × Nat)
  | [] => (s, [], none)
  | p :: ps =>
    match s.translate f w.slot w.slice p.va write with
    | (s, .fault code) => (s, [], some (code, p.va))
    | (s, a) =>
      let (s, as, x) := s.translatePieces f w write ps
      (s, (p, a) :: as, x)

/-- One piece of a GREAD, once every piece is translated; `true` when the step has faulted. -/
def greadPiece (f c : Nat) (g : GlobalRun) (x : State × Bool) (q : Piece × Access) : State × Bool :=
  if x.2 then x
  else
    let s := x.1
    let p := q.1
    match q.2 with
    | .fault _ => (s, false)
    | .here o =>
      match s.flitNext f with
      | (s, .dropped _) => (s.askNobody f c g false p, false)
      | (s, flit) =>
      let (s, r) := s.targetRead g.who.slice o p.n g.who.frame 1
      if r.code ≠ 0 then (s.greadFault f c g r.code p.va p.n, true)
      else if flit != .spoilt && recordFits r.data r.record then (s.greadPut f c p.line p.n r.data r.mask r.record, false)
      else ((s.recordFailure f 4).greadFault f c g 0x0B p.va, true)
    | .away ga l => (s.askAway f c g false p ga l [] none 0, false)

/-- The slice-virtual address of a GLOBAL step, R74. -/
def Core.globalVa (k : Core) (op : GlobalOp) : Nat :=
  (op.va.toNat + (match op.vreg with | some r => k.ptr r * 4096 | none => 0)) % 2 ^ 48

/-- What a GREAD does. -/
def greadEffect (f c : Nat) (op : GlobalOp) (s : State) : State :=
  let k := s.core f c
  let line := k.line op.mem
  let n := op.lines.val + 1
  let (s, ok) := s.stepMayWrite f c line n
  if ok then
    let g : GlobalRun := { who := s.who f c, line := line, n := n, group := s.nextTag }
    match s.translatePieces f g.who false (piecesOf (k.globalVa op) line (n + 1) n) with
    | (s, _, some (code, va)) => s.greadFault f c g code va
    | (s, as, none) => (as.foldl (greadPiece f c g) (s, false)).1
  else s

/-- GREAD copies lines from a slice-virtual address into local SRAM, R74; a VA off a line is rejected at load. -/
def execGread (a : CoreAt) (op : GlobalOp) (s : State) : Res :=
  if op.va.toNat % 64 ≠ 0 then .refused (.loadRejected 0x3)
  else .next (s.issueNet a (greadEffect a.field a.core op))

/-- The data of a piece as it leaves the core: a whole tile with its record (R127, R338), or the lines alone; a lost
line faults the reading frame. Only a SEND has a record formed over 64 lines that begin off a tile boundary (R338). -/
def State.pieceData (s : State) (f c : Nat) (w : Who) (p : Piece) (whole send : Bool) :
    State × List Byte × Bool × Option Sorrel :=
  let o := sramLine f c p.line
  if whole && p.line % 64 == 0 then
    let (s, t) := s.tileFromSram o w.frame w.epoch 1
    ((if t.ue then s.fault f c clsPoison codeOwnUe (p.line * 64) p.n else s), t.data, t.record.poison, some t.record)
  else
    let (s, r) := s.readLines o w.frame p.n
    let s := if r.ue then s.fault f c clsPoison codeOwnUe (p.line * 64) p.n else s
    (s, r.data, r.poison, if send then some (sorrelForm r.data 0xF r.poison w.epoch) else none)

/-- The code that a field's MMU gives a write before translation, R136 step 1: INPUT_REGION, OUTSIDE_OUTPUT, or 0. -/
def State.regionCode (s : State) (slot va : Nat) (outputs : Bool) : Nat :=
  if s.inputVa slot va then 0x06
  else if outputs && !s.outputVa slot va then 0x07
  else 0

/-- The code with which this module, as the target of a piece, refuses the write, and its address (R136 step 5). -/
def State.refusedHere (s : State) (slice : Nat) : List (Piece × Access) → State × Option (Nat × Nat)
  | [] => (s, none)
  | (p, a) :: as =>
    match a with
    | .here o =>
      match s.targetMayWrite slice o p.n with
      | (s, 0) => s.refusedHere slice as
      | (s, code) => (s, some (code, p.va))
    | _ => s.refusedHere slice as

/-- A piece of a GWRITE with its data read: where it goes, what the mesh does to it, the lines, whether they are poisoned, and the tile's
record. -/
structure PieceOut where
  piece : Piece
  access : Access
  flit : Flit
  data : List Byte
  poison : Bool
  record : Option Sorrel

/-- Read the data of every piece of a GWRITE. -/
def State.readPieces (s : State) (f c : Nat) (w : Who) : List (Piece × Access) → State × List PieceOut
  | [] => (s, [])
  | (p, a) :: as =>
    let (s, o, flit) := match a with
      | .here o => let (s, x) := s.flitNext (fieldAt o); (s, o, x)
      | .away ga _ => (s, ga, .intact)
      | .fault _ => (s, 1, .intact)
    let (s, bs, bad, rcd) := s.pieceData f c w p (wholeTile o p.n) false
    let (s, rest) := s.readPieces f c w as
    (s, ⟨p, a, flit, bs, bad, rcd⟩ :: rest)

/-- The field at which a piece that stays on this module fails its CRC-16 or its record check, and its address (R173, Table 14.2, point 5). -/
def PieceOut.failsHere (q : PieceOut) : Option (Nat × Nat) :=
  match q.access with
  | .here o =>
    match q.flit with
    | .intact => if recordFits q.data q.record then none else some (fieldAt o, q.piece.va)
    | .spoilt => some (fieldAt o, q.piece.va)
    | .dropped _ => none
  | _ => none

/-- One piece of a GWRITE leaves, or is written on this module. -/
def gwritePiece (f c : Nat) (g : GlobalRun) (s : State) (q : PieceOut) : State :=
  let w := g.who
  let p := q.piece
  match q.access with
  | .fault _ => s
  | .here o =>
    match q.flit with
    | .dropped _ => s.askNobody f c g true p
    | _ => (s.targetWrite w.slice w.epoch o p.n q.data (lineMask p.n q.poison) q.record none 5).1
  | .away ga l =>
    s.askAway f c g true p ga l q.data q.record (lineMask p.n q.poison)

/-- What a GWRITE does: the causes of R136 in their order, over all its lines, before any line of any target is written. A range
past the SRAM faults at its first line (DESIGN CHOICE, log entry 96). -/
def gwriteEffect (f c : Nat) (op : GlobalOp) (s : State) : State :=
  let k := s.core f c
  let line := k.line op.mem
  let n := op.lines.val + 1
  if line + n > sramLines then s.fault f c clsSramRange 0 (line * 64)
  else
    let g : GlobalRun := { who := s.who f c, line := line, n := n, group := s.nextTag }
    let ps := piecesOf (k.globalVa op) line (n + 1) n
    match ps.find? fun p => decide (g.who.slot < 56) && s.regionCode g.who.slot p.va true != 0 with
    | some p => s.accessFault f c g.who true (s.regionCode g.who.slot p.va true) p.va
    | none =>
      match s.translatePieces f g.who true ps with
      | (s, _, some (code, va)) => s.accessFault f c g.who true code va
      | (s, as, none) =>
        match s.refusedHere g.who.slice as with
        | (s, some (code, va)) => s.accessFault f c g.who true code va
        | (s, none) =>
          let (s, qs) := s.readPieces f c g.who as
          match qs.findSome? PieceOut.failsHere with
          | some (fld, va) => (s.recordFailure fld 5).accessFault f c g.who true 0x0B va
          | none => qs.foldl (gwritePiece f c g) s

/-- GWRITE copies local SRAM lines to a slice-virtual address, R74. -/
def execGwrite (a : CoreAt) (op : GlobalOp) (s : State) : Res :=
  if op.va.toNat % 64 ≠ 0 then .refused (.loadRejected 0x3)
  else .next (s.issueNet a (gwriteEffect a.field a.core op))

/-! ## SEND -/

/-- The module and field that a slice-relative field number names for a slice entry, R269. -/
def State.relField (s : State) (e rel : Nat) : Option (Nat × Nat) :=
  match s.memberOf e (rel / 56) with
  | some m => some (m, rel % 56)
  | none => none

/-- Does a slice own a field of a module: this one; another as that module or the slice's entry module told of it, or a free value where neither
did (log entry 91)? -/
def State.ownsFar (s : State) (slice m f : Nat) : Bool :=
  if m = s.selfId then s.fieldOwner f == some slice
  else match mapGet (fun _ => none) s.farFields (slice * 16384 + m) with
    | some mask => bitOf mask f
    | none => Config.ownsField slice m f

/-- The module and field of a SEND's DST, when it names a core of a field that the slice owns (R277). -/
def State.sendTarget (s : State) (slice rel core : Nat) : Option (Nat × Nat) :=
  if core > 449 then none
  else match s.entryOf slice with
    | none => none
    | some e =>
      match s.relField e rel with
      | some (m, f) => if s.ownsFar slice m f then some (m, f) else none
      | none => none

/-- What a SEND does: the 64 lines leave as one tile with its record and the frame number, replay count and epoch of the
sender, but from a fenced field, whose router carries nothing (R184); a DST that the slice does not own is dropped and counted (R277); a closed route faults the frame (R272). -/
def sendEffect (f c : Nat) (op : SendOp) (s : State) : State :=
  let line := (s.core f c).line op.mem
  if line + 64 > sramLines then s.fault f c clsSramRange 0 (line * 64)
  else
    let w := s.who f c
    let (s, bs, _, rcd) := s.pieceData f c w { va := 0, line := line, n := 64 } true true
    if !s.fieldUp f then s
    else match s.sendTarget w.slice op.dstField.toNat op.dstCore.toNat with
    | none => s.bump .RTE_NOSLICE_DROP
    | some (m, _) =>
      let addr := op.dstField.toNat * 512 + op.dstCore.toNat + op.slot.toNat * 2 ^ 28
      let pk := s.packetOf 0x4 w addr 0 64 bs rcd
      match s.routeSlice w.slice m with
      | .here => s.emit (.packet pk)
      | .out l => s.sendLink l pk
      | .refused code => s.accessFault f c w true code 0 1 ((s.entryOf w.slice).bind fun e => s.slotToward e m)

/-- SEND transmits 64 SRAM lines as one exchange tile to a core of the slice, R76. -/
def execSend (a : CoreAt) (op : SendOp) (s : State) : Res := .next (s.issueNet a (sendEffect a.field a.core op))

end Sys2Proof.Machine
end

