-- ==== Sys2Proof/Machine/Movers.lean ====
section
/-!
DEFINITION. Sys2Proof/Machine/Movers.lean: the movers of chapter 6: descriptors and their validation (R144 to R147),
posting and starting (R148 to R150), requests and their answers (R151 to R154), parking and resuming (R155 to R162),
completion, the byte audit and the completion ring (R163 to R166).
-/
namespace Sys2Proof.Machine

/-! ## Descriptors, Table 6.1 -/

/-- Values of STATE in word 5. -/
def descQueued : Nat := 0
/-- Posted by a frame program and not released. -/
def descPending : Nat := 1
/-- Running. -/
def descRunning : Nat := 2
/-- Parked. -/
def descParked : Nat := 3

/-- KIND. -/
def Desc.kind (d : Desc) : Nat := bits d.w0 0 4
/-- SRC_SPACE. -/
def Desc.srcSpace (d : Desc) : Nat := bits d.w0 4 2
/-- DST_SPACE. -/
def Desc.dstSpace (d : Desc) : Nat := bits d.w0 6 2
/-- LENGTH. -/
def Desc.length (d : Desc) : Nat := bits d.w0 16 40
/-- RKEY. -/
def Desc.rkey (d : Desc) : Nat := bits d.w3 0 32
/-- FE_CONN. -/
def Desc.conn (d : Desc) : Nat := bits d.w3 32 16

/-- TAG: word 6 bits [55:0]. -/
def Desc.tag (d : Desc) : Nat := d.core + d.step * 2 ^ 9 + d.frame * 2 ^ 23 + bit d.cc * 2 ^ 55

/-- Word 5. -/
def Desc.w5 (d : Desc) : Nat := d.progress + d.state * 2 ^ 40 + d.code * 2 ^ 43 + d.segment * 2 ^ 51

/-- The whole descriptor as MOV_MV_HEAD shows it. -/
def Desc.view (d : Desc) : Nat :=
  d.w0 + d.w1 * 2 ^ 64 + d.w2 * 2 ^ 128 + d.w3 * 2 ^ 192 + d.w4 * 2 ^ 256 + d.w5 * 2 ^ 320 + d.tag * 2 ^ 384 +
    (d.sent + d.poisoned * 2 ^ 40) * 2 ^ 448

/-- A descriptor as it enters a queue: a frame program's is pending, the control complex's is released (R148). -/
def Desc.ofWords (v core step frame prog : Nat) (cc : Bool) : Desc :=
  { w0 := bits v 0 64, w1 := bits v 64 64, w2 := bits v 128 64, w3 := bits v 192 64, w4 := bits v 256 64
    progress := 0, state := if cc then descQueued else descPending, code := 0, segment := 0
    core := core, step := step, frame := frame, prog := prog, slice := 0, cc := cc, sent := 0, poisoned := 0 }

/-- Line of a space 1 address, Table 6.3. -/
def sp1Line (a : Nat) : Nat := bits a 0 16
/-- Core index of a space 1 address. -/
def sp1Core (a : Nat) : Nat := bits a 16 9
/-- Slice-relative field number of a space 1 address. -/
def sp1Field (a : Nat) : Nat := bits a 25 19

/-- Is a space, for KIND, one that Table 6.2 allows? DESIGN CHOICE (log entry 102): a FILL, which has no source, may carry SRC_SPACE 0 to 2. -/
def spacesFit (kind src dst : Nat) : Bool :=
  if src = 3 ∨ dst = 3 then false
  else match kind with
    | 0 => decide (src < 2) && decide (dst < 2)
    | 1 => decide (dst < 2)
    | 2 => src == 2 && decide (dst < 2)
    | _ => decide (src < 2) && dst == 2

/-- Does a side of a descriptor break rule 0x43 of Table 6.4? -/
def State.sideBad (s : State) (slice space addr len : Nat) : Bool :=
  if space = 1 then
    decide (sp1Line addr + len / 64 > sramLines) || decide (sp1Core addr > 449) ||
      (match s.entryOf slice with
       | some e => match s.relField e (sp1Field addr) with
         | some (m, f) => m == s.selfId && s.fieldOwner f != some slice
         | none => true
       | none => true)
  else addr % 64 != 0

/-- Bits of an address that Table 6.3 has zero. DESIGN CHOICE (log entry 102): they are rejected with 0x44. -/
def sideReserved (space addr : Nat) : Bool :=
  (space == 0 && addr / 2 ^ 48 != 0) || (space == 1 && addr / 2 ^ 44 != 0)

/-- Is a connection an open connection of the job that a slice serves (R323)? -/
def State.connOfSlice (s : State) (slice conn : Nat) : Bool :=
  s.fld F.FEI_CONN_CFG_STATE conn == 1 &&
    s.jobs.any fun j => j.placed && j.slice == slice && j.conns.contains conn

/-- The rejection code of a descriptor of 512 bits for a slice, Table 6.4; 0 when it breaks no rule. The rules are taken
in the order of the table, after 0x47. -/
def State.rejectCode (s : State) (slice v : Nat) (poisoned : Bool) : Nat :=
  let d := Desc.ofWords v 0 0 0 0 false
  let fill := d.kind == 1
  let fe := (!fill && d.srcSpace == 2) || d.dstSpace == 2
  if poisoned then 0x47
  else if d.kind > 3 then 0x40
  else if !spacesFit d.kind d.srcSpace d.dstSpace then 0x41
  else if d.length = 0 ∨ d.length % 64 ≠ 0 then 0x42
  else if (!fill && s.sideBad slice d.srcSpace d.w1 d.length) || s.sideBad slice d.dstSpace d.w2 d.length then 0x43
  else if bits v 320 192 ≠ 0 ∨ bits d.w0 8 8 ≠ 0 ∨ bits d.w0 56 8 ≠ 0 ∨ bits d.w3 48 16 ≠ 0 ∨
      (!fill && sideReserved d.srcSpace d.w1) ∨ sideReserved d.dstSpace d.w2 then 0x44
  else if fe && !s.connOfSlice slice d.conn then 0x45
  else if (fill && d.w1 != 0) || (!fill && d.w4 != 0) || (!fe && (d.rkey != 0 || d.conn != 0)) then 0x46
  else 0

/-! ## Movers in the state -/

/-- A mover of a field. -/
def State.mover (s : State) (f m : Nat) : Mover := mapGet (fun _ => Mover.init) s.movers (f * 16 + m)

/-- Set a mover. -/
def State.setMover (s : State) (f m : Nat) (v : Mover) : State :=
  { s with movers := mapSet (fun _ => Mover.init) (f * 16 + m) v s.movers }

/-- Change a mover. -/
def State.updMover (s : State) (f m : Nat) (g : Mover → Mover) : State := s.setMover f m (g (s.mover f m))

/-- Change the head descriptor. -/
def Mover.updHead (v : Mover) (g : Desc → Desc) : Mover :=
  match v.queue with
  | d :: ds => { v with queue := g d :: ds }
  | [] => v

/-- STATE of MOV_MV_STATUS. -/
def Mover.status (v : Mover) : Nat :=
  if v.blocked then 4
  else match v.queue with
    | [] => 0
    | d :: _ => if d.state = descPending then 1 else if d.state = descRunning then 2
                else if d.state = descParked then 3 else 5

/-- MOV_MV_STATUS. -/
def Mover.statusView (v : Mover) : Nat :=
  match v.queue with
  | [] => v.status
  | d :: _ => v.status + d.code * 2 ^ 8 + v.queue.length * 2 ^ 16 + d.segment * 2 ^ 22

/-- MOV_MV_HEAD. -/
def Mover.headView (v : Mover) : Nat :=
  match v.queue with
  | [] => 0
  | d :: _ => d.view

/-- The completion of a descriptor, not visible yet. -/
def Desc.finish (d : Desc) (status code : Nat) : MoverDone :=
  { tag := d.tag, status := status, bytes := d.progress, count := if status = 0 then d.length else d.progress
    poisoned := d.poisoned, code := code, core := d.core, step := d.step, frame := d.frame, prog := d.prog, slice := d.slice, cc := d.cc
    closed := false }

/-- Statuses of Table 6.6. -/
def doneOk : Nat := 0
/-- REJECTED. -/
def doneRejected : Nat := 1
/-- CANCELLED. -/
def doneCancelled : Nat := 2
/-- AUDIT. -/
def doneAudit : Nat := 3
/-- FE_ERROR. -/
def doneFe : Nat := 4

/-- The head leaves the queue with a completion; what it had outstanding is abandoned. -/
def Mover.finishHead (v : Mover) (status code : Nat) : Mover :=
  match v.queue with
  | d :: ds => { v with queue := ds, reqs := [], acks := [], timedOut := [], parking := none
                        finished := v.finished ++ [d.finish status code] }
  | [] => v

/-- Every descriptor of the queue completes CANCELLED with its progress and its last park code, R162. -/
def Mover.cancelAll (v : Mover) : Mover :=
  { v with queue := [], reqs := [], acks := [], timedOut := [], parking := none, cancel := false
           finished := v.finished ++ v.queue.map fun d => d.finish doneCancelled d.code }

/-! ## Posting -/

/-- A descriptor enters a mover's queue, or is rejected (R147, R148). -/
def State.postDesc (s : State) (f m v core step frame : Nat) (cc poisoned : Bool) : State :=
  let d := { Desc.ofWords v core step frame (if cc then 0 else s.programOfField f) cc with slice := s.sliceOfField f }
  match s.rejectCode (s.sliceOfField f) v poisoned with
  | 0 => s.updMover f m fun x => { x with queue := x.queue ++ [d] }
  | code =>
    (s.updMover f m fun x => { x with finished := x.finished ++ [d.finish doneRejected code] }).bump .MOV_FLD_REJECT f

/-- Does a queue hold a frame program's posting of this tag, R149? -/
def Mover.hasTag (v : Mover) (core step frame : Nat) : Bool :=
  v.queue.any fun d => !d.cc && d.core == core && d.step == step && d.frame == frame

/-- POST copies a 64-byte descriptor into the posting queue of a mover of the field, R78 and R79. A full queue keeps
the step waiting; a field without an owner accepts no posting (R143). -/
def execPost (a : CoreAt) (mem : MemOp) (queue : Fin 16) (s : State) : Res :=
  let f := a.field.val
  let c := a.core.val
  let k := s.core f c
  let v := s.mover f queue
  let frame := s.frameOfField f % 2 ^ 32
  let again := v.hasTag c k.pc frame
  if !again && decide (v.queue.length ≥ 32) then .next s
  else .next (s.issueNet a fun s =>
    match s.stepRead f c (k.line mem) 1 with
    | (s, none) => s
    | (s, some r) =>
      if again || (s.fieldOwner f).isNone then s
      else s.postDesc f queue (ofBytes r.data) c k.pc frame false r.poison)

/-! ## Starting, R148 -/

/-- The head starts running. -/
def Mover.start (v : Mover) : Mover :=
  { v.updHead (fun d => { d with state := descRunning }) with
    reqs := [], acks := [], segStart := 0, readBytes := 0, ackBytes := 0, issued := 0, answered := 0
    timedOut := [], parking := none }

/-- MOVER_START: a released head starts at the tick, unless a completion waits for ring room (R164). -/
def Mover.startDue (v : Mover) : Bool :=
  !v.blocked && match v.queue with
    | d :: _ => d.state == descQueued
    | [] => false

/-- DESCRIPTOR_RELEASE: postings of a frame are released at the tick at which its slice advances past it, R148. -/
def Mover.release (v : Mover) (frame : Nat) : Mover :=
  { v with queue := v.queue.map fun d =>
      if d.state = descPending ∧ timeDiff (d.frame * 2 ^ 32) (frame * 2 ^ 32) ≤ 0 then { d with state := descQueued }
      else d }

/-- Resume a parked head: SEGMENT advances and SENT goes back to PROGRESS, R156. -/
def Mover.resume (v : Mover) : Mover :=
  match v.queue with
  | d :: ds =>
    { v with queue := { d with state := descRunning, segment := (d.segment + 1) % 256, sent := d.progress } :: ds
             reqs := [], acks := [], segStart := d.progress, readBytes := 0, ackBytes := 0, issued := 0, answered := 0
             timedOut := [], parking := none }
  | [] => v

/-! ## Requests, R151 to R154 -/

/-- Bytes from an address of a space to the next 4 KiB boundary. -/
def toBoundary (space addr off : Nat) : Nat :=
  if space = 1 then 4096 - (sp1Line addr * 64 + off) % 4096 else 4096 - (addr + off) % 4096

/-- Length of the request at an offset, R151. -/
def Desc.reqLen (d : Desc) (off : Nat) : Nat :=
  let n := min (d.length - off) (toBoundary d.dstSpace d.w2 off)
  if d.kind = 1 then n else min n (toBoundary d.srcSpace d.w1 off)

/-- Does a request stand at its destination? -/
def MoverReq.writes (r : MoverReq) : Bool := r.stage != .reading

/-- The slice, slot and epoch of a mover's field, with the frame of the posting. -/
def State.moverWho (s : State) (f : Nat) (d : Desc) : Who := { s.who f d.core with frame := d.frame % 2 ^ 32, step := d.step }

/-- Where an address of space 0 or 1 lies for a mover of a field. -/
def State.moverTarget (s : State) (f : Nat) (w : Who) (space addr off : Nat) (write : Bool) : State × Access :=
  if space = 1 then
    match s.entryOf w.slice with
    | none => (s, .fault codeNoRoute)
    | some e => match s.relField e (sp1Field addr) with
      | some (m, t) => (s, s.targetOf w.slice (m * 2 ^ 50 + sramLine t (sp1Core addr) (sp1Line addr) + off))
      | none => (s, .fault 0x04)
  else
    let va := (addr + off) % 2 ^ 48
    let rc := if write ∧ w.slot < 56 then s.regionCode w.slot va false else 0
    if rc ≠ 0 then (s, .fault rc) else s.translate f w.slot w.slice va write

/-- A cause of Table 6.5 met by a request: the first is kept, and an MMU code is captured (R155). -/
def State.moverCause (s : State) (f m : Nat) (w : Who) (write : Bool) (code va : Nat) : State :=
  let s := match (s.mover f m).parking with
    | none => if code < 0x20 then s.mmuFault f m true write w.slice w.frame code va else s
    | some _ => s
  s.updMover f m fun v => { v with parking := some (v.parking.getD code) }

/-- Take acknowledged parts that follow PROGRESS into it. -/
def takeAcks : Nat → Nat → List (Nat × Nat) → Nat × List (Nat × Nat)
  | 0, p, l => (p, l)
  | fuel + 1, p, l =>
    match l.find? fun a => a.1 == p with
    | some (_, n) => takeAcks fuel (p + n) (l.filter fun a => a.1 != p)
    | none => (p, l)

/-- A request's bytes are written and acknowledged, R151. -/
def Mover.ack (v : Mover) (r : MoverReq) : Mover :=
  match v.queue with
  | d :: ds =>
    let (p, l) := takeAcks (v.acks.length + 1) d.progress (v.acks ++ [(r.off, r.len)])
    { v with queue := { d with progress := p } :: ds
             acks := l, reqs := v.reqs.filter fun x => x.tag != r.tag
             ackBytes := v.ackBytes + r.len, answered := v.answered + 1 }
  | [] => v

/-- Drop a request that met a cause. -/
def Mover.dropReq (v : Mover) (tag : Nat) : Mover :=
  { v with reqs := v.reqs.filter (fun x => x.tag != tag), answered := v.answered + 1 }

/-- Put a request's stage. -/
def Mover.setStage (v : Mover) (tag : Nat) (g : ReqStage) : Mover :=
  { v with reqs := v.reqs.map fun x => if x.tag = tag then { x with stage := g } else x }

/-- Note the link slot through which a request leaves. -/
def Mover.setLink (v : Mover) (tag l : Nat) : Mover :=
  { v with reqs := v.reqs.map fun x => if x.tag = tag then { x with link := some l } else x }

/-- A mover's packet. -/
def State.moverPacket (s : State) (ptype : Nat) (w : Who) (d : Desc) (r : MoverReq) (ga : Nat) (bs : List Byte)
    (record : Option Sorrel) : Packet :=
  { s.packetOf ptype w ga r.tag (r.len / 64) bs record with
    mover := true, segment := BitVec.ofNat 8 d.segment, tile := r.len == 4096 }

/-- The data of a request goes to its destination: written here, its acknowledgement still to come, or sent away; from a fenced field it
meets TIMEOUT (R137, R184). -/
def State.moverPut (s : State) (f m : Nat) (w : Who) (d : Desc) (r : MoverReq) (bs : List Byte) (mask : Nat)
    (record : Option Sorrel) : State :=
  let count := fun (s : State) => s.updMover f m fun v =>
    (v.setStage r.tag .writing).updHead fun d => { d with poisoned := satAdd 65535 d.poisoned (popCount 64 mask) }
  let fail := fun (s : State) (code : Nat) =>
    (s.moverCause f m w true code (d.w2 + r.off)).updMover f m fun v => v.dropReq r.tag
  let raw := d.kind == 1 || d.srcSpace == 2
  if !s.fieldUp f then fail s 0x10
  else if d.dstSpace = 2 then
    if s.connUp d.conn then count (s.feWrite d.conn d.rkey (d.w2 + r.off) bs (.mover r.tag)) else fail s 0x23
  else
    match s.moverTarget f w d.dstSpace d.w2 r.off true with
    | (s, .fault code) => fail s code
    | (s, .here o) =>
      match s.flitNext (fieldAt o) with
      | (s, .dropped _) => s.updMover f m fun v => v.setStage r.tag .lost
      | (s, .spoilt) => fail (s.recordFailure (fieldAt o) 6) 0x0B
      | (s, .intact) =>
      match s.targetWrite w.slice w.epoch o (r.len / 64) bs mask record (if raw then some 0xF else none) 6 with
      | (s, 0) => count s
      | (s, code) => fail s code
    | (s, .away ga l) =>
      count ((s.updMover f m fun v => v.setLink r.tag l).sendLink l
        (s.moverPacket 0x2 w d r ga bs (record.orElse fun _ => poisonRecord mask raw)))

/-- The source data of a request has been read. -/
def State.moverRead (s : State) (f m : Nat) (w : Who) (d : Desc) (r : MoverReq) (bs : List Byte) (mask : Nat)
    (record : Option Sorrel) : State :=
  (s.updMover f m fun v => { v with readBytes := v.readBytes + r.len }).moverPut f m w d r bs mask record

/-- Repeat an 8-byte pattern. -/
def patternBytes (p n : Nat) : List Byte := ((List.range (n / 8)).map fun _ => toBytes 8 p).flatten

/-- Issue one request of a running head: read its source, here or away; in a fenced field it meets TIMEOUT (R137, R184). -/
def State.moverRequest (s : State) (f m : Nat) (d : Desc) : State :=
  let w := s.moverWho f d
  let n := d.reqLen d.sent
  let (s, tag) := s.freshTag f
  let r : MoverReq := { tag := tag, off := d.sent, len := n, start := s.up, stage := .reading, link := none }
  let s := s.updMover f m fun v =>
    { v.updHead (fun d => { d with sent := d.sent + n }) with reqs := v.reqs ++ [r], issued := v.issued + 1 }
  let fail := fun (s : State) (code : Nat) =>
    (s.moverCause f m w false code (d.w1 + r.off)).updMover f m fun v => v.dropReq r.tag
  if !s.fieldUp f then fail s 0x10
  else if d.kind = 1 then
    let bs := patternBytes d.w4 n
    s.moverRead f m w d r bs 0 (if n = 4096 then some (sorrelForm bs 0xF false w.epoch) else none)
  else if d.srcSpace = 2 then
    if s.connUp d.conn then s.feRead d.conn d.rkey (d.w1 + r.off) n (.mover r.tag) else fail s 0x23
  else
    match s.moverTarget f w d.srcSpace d.w1 r.off false with
    | (s, .fault code) => fail s code
    | (s, .here o) =>
      match s.flitNext f with
      | (s, .dropped _) => s
      | (s, flit) =>
      let (s, t) := s.targetRead w.slice o (n / 64) w.frame (if d.dstSpace = 2 then 7 else 1)
      if flit = .spoilt then fail (s.recordFailure f 6) 0x0B
      else if t.code = 0 then s.moverRead f m w d r t.data t.mask (if n = 4096 then t.record else none)
      else fail s t.code
    | (s, .away ga l) => (s.sendLink l (s.moverPacket 0x0 w d r ga [] none)).updMover f m fun v => v.setLink r.tag l

/-- Ask a running mover to park with a code; it waits for its outstanding requests (R155). -/
def State.parkMover (s : State) (f m code : Nat) : State :=
  let v := s.mover f m
  match v.queue with
  | d :: _ =>
    if d.state = descRunning ∧ v.parking = none then s.updMover f m fun v => { v with parking := some code } else s
  | [] => s

/-- Is a slot's context being saved or restored, or saved? -/
def Slot.moving (v : Slot) : Bool := v.phase == .saving || v.phase == .saved || v.phase == .restoring

/-- The cause of Table 6.5 that the slice of a field gives every request of its movers: it is pre-empted until the tick at which its restore
completes on every module (0x20, R161), or a rotation step of it
is in progress (0x22). -/
def State.sliceBars (s : State) (f : Nat) : Option Nat :=
  match s.slotOfField f with
  | none => none
  | some n =>
    if (s.slot n).moving || (s.slot n).phase == .restored then some 0x20
    else if (s.slot n).rotLeft ≠ 0 ∨ s.fld F.SEQ_STATUS_HOLD n = 5 then some 0x22
    else none

/-- Is a mover ready to issue its next request: running, not parking, with fewer than 32 outstanding and bytes left (R151)? -/
def Mover.ready (v : Mover) : Bool :=
  match v.queue with
  | d :: _ => d.state == descRunning && v.parking.isNone && decide (v.reqs.length < 32) && decide (d.sent < d.length)
  | [] => false

/-- The mover whose turn it is in a field: the first ready one in rotation (R152). -/
def State.moverTurn (s : State) (f : Nat) : Option Nat :=
  ((List.range 16).map fun i => (mapGet (fun _ => 0) s.moverNext f + i) % 16).find? fun m => (s.mover f m).ready

/-- MOVER_ISSUE: the field serves a ready mover whose turn it is: it issues its next request, or parks for the slice (R151, R152,
R155). -/
def execMoverIssue (f : Fin 56) (m : Fin 16) (s : State) : Res :=
  match (s.mover f m).queue with
  | d :: _ =>
    if s.moverTurn f = some m.val then
      let s := { s with moverNext := mapSet (fun _ => 0) f.val ((m.val + 1) % 16) s.moverNext }
      match s.sliceBars f with
      | some code => .next (s.parkMover f m code)
      | none => .next (s.moverRequest f m d)
    else .next s
  | [] => .next s

/-- The mover of a field that holds an outstanding request. -/
def State.moverOfTag (s : State) (f tag : Nat) : Option Nat :=
  (List.range 16).find? fun m => (s.mover f m).reqs.any fun r => r.tag == tag

/-- Is a response of a SEGMENT awaited by a mover? -/
def State.awaited (s : State) (tag segment : Nat) : Bool :=
  match s.moverOfTag (tag % 64) tag with
  | none => false
  | some m => match (s.mover (tag % 64) m).queue with
    | d :: _ => d.segment == segment
    | [] => false

/-- A response that no mover awaits is dropped: one to a request that timed out counts in MMU_FLD_LATE (R137), any other in MOV_FLD_LATE
(R154). -/
def State.moverLate (s : State) (tag : Nat) : State :=
  let f := tag % 64
  if (List.range 16).any fun m => (s.mover f m).timedOut.contains tag then s.bump .MMU_FLD_LATE f else s.bump .MOV_FLD_LATE f

/-- A NAK ends a running head; a command of MOV_FLD_CMD that waits for it is over, and a cancel that waits for it takes the rest. -/
def State.moverNak (s : State) (f m syndrome : Nat) : State :=
  let v := s.mover f m
  let s := if v.cmd then s.setFld F.MOV_FLD_CMD_BUSY f 0 else s
  s.updMover f m fun v =>
    let x := { v.finishHead doneFe syndrome with cmd := false }
    if v.cancel then x.cancelAll else x

/-- A response to a mover's request arrives: it advances PROGRESS or parks the mover, or is dropped and counted for a
stale SEGMENT (R154, R155). -/
def State.moverResponse (s : State) (tag segment : Nat) (b : MoverAnswer) : State :=
  let f := tag % 64
  match s.moverOfTag f tag with
  | none => s.moverLate tag
  | some m =>
    let v := s.mover f m
    match v.queue, v.reqs.find? fun r => r.tag == tag with
    | d :: _, some r =>
      let s := if d.srcSpace = 2 ∨ d.dstSpace = 2 then s.feAnswered d.conn (.mover tag) else s
      if segment ≠ d.segment then s.bump .MOV_FLD_LATE f
      else
        let w := s.moverWho f d
        match b with
        | .fault code =>
          (s.moverCause f m w r.writes code ((if r.writes then d.w2 else d.w1) + r.off)).updMover
            f m fun v => v.dropReq tag
        | .nak syndrome => s.moverNak f m syndrome
        | .done => if r.stage = .writing then s.updMover f m fun v => v.ack r else s
        | .data bs mask record intact =>
          if r.stage ≠ .reading then s
          else if !(intact && match record with | some x => sorrelOk bs x | none => true) then
            ((s.recordFailure f 6).moverCause f m w false 0x0B (d.w1 + r.off)).updMover f m fun v => v.dropReq tag
          else
            let record := if d.srcSpace = 2 ∧ r.len = 4096 then some (sorrelForm bs 0xF false w.epoch) else record
            s.moverRead f m w d r bs mask (if r.len = 4096 then record else none)
    | _, _ => s.bump .MOV_FLD_LATE f

/-! ## Parking, R155 -/

/-- Write STATE parked and CODE into the head and record the park (R155); a command of MOV_FLD_CMD that waits for it is over, and a cancel
that waits for it takes the queue (R162). -/
def State.parkNow (s : State) (f m code : Nat) : State :=
  let v := s.mover f m
  let s := s.updMover f m fun v =>
    { v.updHead fun d => { d with state := descParked, code := code } with
      reqs := [], acks := [], parking := none, parkedAt := s.up, cmd := false }
  let s := match (s.mover f m).queue with
    | d :: _ => s.log 0x07 0x3001 (f + m * 64) d.w5
    | [] => s
  let s := if v.cmd then s.setFld F.MOV_FLD_CMD_BUSY f 0 else s
  if v.cancel then s.updMover f m Mover.cancelAll else s

/-- MOVER_PARK_DONE: a parking mover whose outstanding requests are all answered or timed out parks, R155. -/
def execMoverParkDone (f : Fin 56) (m : Fin 16) (s : State) : Res :=
  let v := s.mover f m
  match v.parking with
  | some code => if v.reqs.isEmpty then .next (s.parkNow f m code) else .next s
  | none => .next s

/-- Park a running mover at once, without waiting for its outstanding requests (R158); the first cause met is kept. -/
def State.parkAtOnce (s : State) (f m code : Nat) : State :=
  let v := s.mover f m
  match v.queue with
  | d :: _ => if d.state = descRunning then s.parkNow f m (v.parking.getD code) else s
  | [] => s

/-- Every mover of the fields of a slot. -/
def State.moversOf (s : State) (n : Nat) : List (Nat × Nat) :=
  ((s.fieldsOf n).map fun f => (List.range 16).map fun m => (f, m)).flatten

/-- Apply an operation to every mover of a slot's fields. -/
def State.eachMover (s : State) (n : Nat) (g : State → Nat → Nat → State) : State :=
  (s.moversOf n).foldl (fun s p => g s p.1 p.2) s

/-- Cancel the queue of a mover: a running head first parks (R162), with its last park code, there being none for it. -/
def State.cancelMover (s : State) (f m : Nat) : State :=
  let v := s.mover f m
  match v.queue with
  | d :: _ =>
    if d.state = descRunning then
      let s := s.updMover f m fun v => { v with parking := some (v.parking.getD d.code), cancel := true }
      if v.reqs.isEmpty then s.parkNow f m (v.parking.getD d.code) else s
    else s.updMover f m Mover.cancelAll
  | [] => s

/-- Have the movers of a slot drained, with nothing outstanding and nothing about to park (R160, R162), and what its frame programs had
started run to completion (R81)? -/
def State.moversDrained (s : State) (n : Nat) : Bool :=
  ((s.moversOf n).all fun p => (s.mover p.1 p.2).reqs.isEmpty && (s.mover p.1 p.2).parking.isNone) &&
    s.remotes.all fun r => !(s.fieldsOf n).contains r.field

/-- Cancel every mover of a slot, R162. -/
def State.cancelMovers (s : State) (n : Nat) : State := s.eachMover n State.cancelMover

/-! ## Resuming, R156 -/

/-- Where the next request of a parked head reads, and where it writes; a side that no route bounds counts as here. -/
def State.nextSides (s : State) (f : Nat) (d : Desc) : Access × Access :=
  let w := s.moverWho f d
  (if d.kind = 1 ∨ d.srcSpace = 2 then .here 0 else (s.moverTarget f w d.srcSpace d.w1 d.progress false).2,
   if d.dstSpace = 2 then .here 0 else (s.moverTarget f w d.dstSpace d.w2 d.progress true).2)

/-- Does a side of a request meet a port that is closing, or down? -/
def Access.shut (a : Access) : Bool := a == .fault 0x0E || a == .fault 0x0F

/-- Are the ports of a parked head's next request open on both sides? -/
def State.portsOpen (s : State) (f : Nat) (d : Desc) : Bool :=
  let x := s.nextSides f d
  !x.1.shut && !x.2.shut

/-- Does the destination of a parked head's next request lie in no protected input region? -/
def State.clearOfInputs (s : State) (f : Nat) (d : Desc) : Bool :=
  match (s.nextSides f d).2 with
  | .fault c => c != 0x06
  | .here o => match placeOf o with
    | .sram g c b => !(rangeFrom (b / 64) (d.reqLen d.progress / 64)).any (s.inputLine g c)
    | _ => true
  | .away _ _ => true

/-- Has the cause of a parked head's code ended (the automatic rows of Table 6.5)? The codes of the slice itself end with what bars it. -/
def State.causeEnded (s : State) (f : Nat) (d : Desc) : Bool :=
  match d.code with
  | 0x06 => s.clearOfInputs f d
  | 0x0E => s.portsOpen f d
  | 0x10 => s.portsOpen f d
  | 0x20 => (s.slotOfField f).isSome
  | 0x21 => true
  | 0x22 => true
  | 0x23 => s.connUp d.conn
  | _ => false

/-- Is the module at the instant of a tick? -/
def State.atTick (s : State) : Bool := s.now == s.rd .FTK_LAST

/-- Does a mover resume by itself at a tick: it parked before this instant, its slice is neither being pre-empted nor in a rotation step
(R167), and its cause has ended? -/
def State.resumesAlone (s : State) (f m : Nat) : Bool :=
  let v := s.mover f m
  match v.queue with
  | d :: _ => d.state == descParked && v.parkedAt != s.up && (s.sliceBars f).isNone && s.causeEnded f d
  | [] => false

/-- MOVER_AUTO_RESUME: at a tick, a mover parked under an automatic code resumes once its cause has ended, R156 and Table 6.5. -/
def execMoverAutoResume (f : Fin 56) (m : Fin 16) (s : State) : Res :=
  if s.atTick && s.resumesAlone f m then .next (s.updMover f m Mover.resume) else .next s

/-- Every mover that resumes by itself at the tick. -/
def State.autoResumes (s : State) : State :=
  (s.movers.map (·.1)).foldl (fun s k =>
    if s.resumesAlone (k / 16) (k % 16) then s.updMover (k / 16) (k % 16) Mover.resume else s) s

/-! ## Completion, R163 to R166 -/

/-- The byte audit of R165. -/
def Mover.auditOk (v : Mover) (d : Desc) : Bool :=
  v.segStart + v.readBytes == d.length && v.segStart + v.ackBytes == d.length && v.issued == v.answered

/-- MOVER_COMPLETE: a descriptor whose PROGRESS reaches LENGTH runs its byte audit and completes, R163, R165, R166. -/
def execMoverComplete (f : Fin 56) (m : Fin 16) (s : State) : Res :=
  let v := s.mover f m
  match v.queue with
  | d :: _ =>
    if d.state = descRunning ∧ v.parking = none ∧ d.progress = d.length then
      if v.auditOk d then .next (s.updMover f m fun v => v.finishHead doneOk 0)
      else .next (((s.updMover f m fun v => v.finishHead doneAudit 0).bump .MOV_FLD_AUDIT f).log 0x07 0x3002
        (f.val + m.val * 64) d.tag)
    else .next s
  | [] => .next s

/-- The completion record of Table 6.6 as a number. -/
def MoverDone.record (x : MoverDone) (m : Nat) : Nat :=
  x.tag + m * 2 ^ 56 + x.status * 2 ^ 60 + x.bytes * 2 ^ 64 + x.poisoned * 2 ^ 104 + x.code * 2 ^ 120

/-- Write a field's completion ring record at TAIL; a ring that has no base in the reserved region is written nowhere. -/
def State.ringPut (s : State) (f v : Nat) : State :=
  let base := s.fld F.MOV_FLD_CRING_BASE_BASE f
  let tail := s.fld F.MOV_FLD_CRING_PTR_TAIL f
  let o := base % 2 ^ 50 + 16 * tail
  let s := if s.inReserved base 65536 then { s with mem := s.mem.writeIn o (toBytes 16 v) 0 } else s
  s.setFld F.MOV_FLD_CRING_PTR_TAIL f ((tail + 1) % 4096)

/-- Is a field's completion ring full? -/
def State.ringFull (s : State) (f : Nat) : Bool :=
  (s.fld F.MOV_FLD_CRING_PTR_TAIL f + 1) % 4096 == s.fld F.MOV_FLD_CRING_PTR_HEAD f

/-- COMPLETION_VISIBLE: the completions of a mover that a close has followed become visible while the ring has room,
R163 and R164; those that did are also answered. -/
def State.showDone (s : State) (f m : Nat) : Nat → State × List MoverDone
  | 0 => (s, [])
  | fuel + 1 =>
    match (s.mover f m).finished with
    | x :: xs =>
      if !x.closed then (s.updMover f m fun v => { v with blocked := false }, [])
      else if s.ringFull f then (s.updMover f m fun v => { v with blocked := true }, [])
      else
        let s := (s.updMover f m fun v => { v with finished := xs, blocked := false }).ringPut f (x.record m)
        let s := s.wr .MOV_MV_DONE (f * 16 + m) (s.rd .MOV_MV_DONE (f * 16 + m) + 1)
        let s := s.bump .MOV_FLD_BYTES f x.count
        let (s, l) := s.showDone f m fuel
        (s, x :: l)
    | [] => (s.updMover f m fun v => { v with blocked := false }, [])

/-! ## Commands of MOV_FLD_CMD -/

/-- Answer a command in RESULT. -/
def State.movResult (s : State) (f r : Nat) : State := s.setFld F.MOV_FLD_CMD_RESULT f r

/-- OP 0: post the staged descriptor, R148. -/
def State.movPost (s : State) (f m ident : Nat) : State :=
  if (s.mover f m).queue.length ≥ 32 then s.movResult f 1
  else
    (s.postDesc f m (s.rd .MOV_FLD_STAGE f) 0x1FF (bits ident 0 14) (bits ident 14 7) true false).movResult f 0

/-- May a parked head be resumed by RESUME (RESULT 2 of MOV_FLD_CMD)? -/
def State.mayResume (s : State) (f : Nat) (d : Desc) : Bool :=
  d.state == descParked && d.code != 0x05 && d.code != 0x09 &&
    !(d.code == 0x20 && match s.slotOfField f with
      | some n => (s.slot n).phase != .placed
      | none => true)

/-- OP 1: resume the parked head, R156. -/
def State.movResume (s : State) (f m : Nat) : State :=
  match (s.mover f m).queue with
  | d :: _ => if s.mayResume f d then (s.updMover f m Mover.resume).movResult f 0 else s.movResult f 2
  | [] => s.movResult f 2

/-- OP 2: cancel the queue, R162; BUSY while a running head parks. -/
def State.movCancel (s : State) (f m : Nat) : State :=
  if (s.mover f m).queue.isEmpty then s.movResult f 2
  else
    let s := (s.cancelMover f m).movResult f 0
    if (s.mover f m).cancel then (s.updMover f m fun v => { v with cmd := true }).setFld F.MOV_FLD_CMD_BUSY f 1 else s

/-- OP 3: park the running head with code 0x24. -/
def State.movStop (s : State) (f m : Nat) : State :=
  match (s.mover f m).queue with
  | d :: _ =>
    if d.state = descRunning ∧ (s.mover f m).parking = none then
      (((s.parkMover f m 0x24).updMover f m fun v => { v with cmd := true }).movResult f 0).setFld F.MOV_FLD_CMD_BUSY f 1
    else s.movResult f 2
  | [] => s.movResult f 2

/-- A write of MOV_FLD_CMD with START = 1: OP, MOVER and ID take the values written, then OP runs; ignored while BUSY. -/
def State.movCmd (s : State) (f op m ident : Nat) : State :=
  if s.flag F.MOV_FLD_CMD_BUSY f then s
  else
    let s := ((s.setFld F.MOV_FLD_CMD_OP f op).setFld F.MOV_FLD_CMD_MOVER f m).setFld F.MOV_FLD_CMD_ID f ident
    if (s.fieldOwner f).isNone then s.movResult f 3
    else match op with
      | 0 => s.movPost f m ident
      | 1 => s.movResume f m
      | 2 => s.movCancel f m
      | _ => s.movStop f m

/-- MOVER_POST: MOV_FLD_CMD with OP 0, R148. -/
def execMoverPost (f : Fin 56) (m : Fin 16) (ident : BitVec 21) (s : State) : Res :=
  .next (s.movCmd f 0 m ident.toNat)

/-- MOVER_RESUME: MOV_FLD_CMD with OP 1, R156. -/
def execMoverResume (f : Fin 56) (m : Fin 16) (ident : BitVec 21) (s : State) : Res :=
  .next (s.movCmd f 1 m ident.toNat)

/-- MOVER_CANCEL: MOV_FLD_CMD with OP 2, R162. -/
def execMoverCancel (f : Fin 56) (m : Fin 16) (ident : BitVec 21) (s : State) : Res :=
  .next (s.movCmd f 2 m ident.toNat)

/-- MOVER_STOP: MOV_FLD_CMD with OP 3, R155. -/
def execMoverStop (f : Fin 56) (m : Fin 16) (ident : BitVec 21) (s : State) : Res :=
  .next (s.movCmd f 3 m ident.toNat)

end Sys2Proof.Machine
end

