-- ==== Sys2Proof/Machine/Packets.lean ====
section
/-!
DEFINITION. Sys2Proof/Machine/Packets.lean: packets as they arrive at the place they are for: requests at their target
(R173, R187, R200, R275, R276, R341), responses at their requester (R136, R137), exchanges at their receiving field (R75
to R77, Table 3.11), and the timeout of a remote access (R137).
-/
namespace Sys2Proof.Machine

/-- The link slot through which a packet came in. -/
def arrivalSlot (a : Arrival) : Option Nat :=
  match a.via with
  | .mesh => none
  | .link n => some n.val

/-- A packet for another module is forwarded when its slice has a member entry here; else it is dropped (R274). -/
def State.forward (s : State) (p : Packet) (m : Nat) : State :=
  match s.entryOf p.slice.toNat with
  | some e =>
    if s.flag F.RTE_SLICE_ROLE e then s.bump .RTE_TRANSIT_DROP
    else match s.routeOnward e m with
      | .out l => s.sendLink l p
      | _ => s.bump .RTE_TRANSIT_DROP
  | none => s.bump .RTE_TRANSIT_DROP

/-- The response to a request goes toward the module that sent it, R273; one that finds no open route is lost, and the
requester times out. -/
def State.respond (s : State) (a : Arrival) (p : Packet) (ptype code : Nat) (bs : List Byte) (record : Option Sorrel) :
    State :=
  let r : Packet :=
    { p with ptype := BitVec.ofNat 4 ptype, epoch := BitVec.ofNat 16 (s.epochOf p.slice.toNat)
             code := BitVec.ofNat 5 code, addr := BitVec.ofNat 64 (p.src.toNat * 2 ^ 50)
             src := BitVec.ofNat 14 s.selfId, data := bs, record := record, tile := p.tile && record.isSome && ptype == 1 }
  match s.routeResponse p.slice.toNat p.src.toNat (arrivalSlot a) with
  | .out l => s.sendLink l r
  | .here => s.emit (.packet r)
  | .refused _ => s

/-- A packet whose header a router found uncorrectable is dropped and counted there (R173). -/
def State.flitDrop (s : State) (f : Fin 56) : State := s.bump .MSH_FLD_FLIT_ERR f

/-- Lines of a packet's data. -/
def packetLines (p : Packet) : Nat := p.lines.val + 1

/-- The checks of a request at its target: another module's is forwarded, one without an entry is dropped (R275), one of
another epoch is dropped and counted (R187), one for a fenced field finds nobody (R184); the module offset of any other. -/
def State.requestIn (s : State) (a : Arrival) (p : Packet) : State × Option Nat :=
  let ga := p.addr.toNat
  let o := ga % 2 ^ 50
  if let some f := a.lost then (s.flitDrop f, none)
  else if ga / 2 ^ 50 ≠ s.selfId then (s.forward p (ga / 2 ^ 50), none)
  else if (s.entryOf p.slice.toNat).isNone then (s.bump .RTE_TRANSIT_DROP, none)
  else if p.epoch.toNat ≠ s.epochOf p.slice.toNat then (s.bump .MSH_FLD_STALE (fieldAt o), none)
  else if reachable o && !s.serves o then (s, none)
  else (s, some o)

/-- READ: answered with READ_DATA, or with FAULT_RSP and its code (R136, R200, R276). -/
def execRead (a : Arrival) (p : Packet) (s : State) : Res :=
  match s.requestIn a p with
  | (s, none) => .next s
  | (s, some o) =>
    let (s, t) := s.targetRead p.slice.toNat o (packetLines p) p.frame.toNat 1
    if t.code = 0 then
      .next (s.respond a p 0x1 0 t.data (t.record.orElse fun _ => poisonRecord t.mask false))
    else .next (s.respond a p 0x9 t.code [] none)

/-- WRITE: verified and written, and answered with WRITE_DONE or FAULT_RSP (R136, R200, R276, Table 14.2 points 5
and 6). A payload that fails its CRC-16 is handled as a record failure (R173). -/
def execWrite (a : Arrival) (p : Packet) (s : State) : Res :=
  match s.requestIn a p with
  | (s, none) => .next s
  | (s, some o) =>
    let point := if p.mover then 6 else 5
    if !a.crcOk then
      .next (((s.bump .MSH_FLD_FLIT_ERR (fieldAt o)).recordFailure (fieldAt o) point).respond a p 0x9 0x0B [] none)
    else
      let record := if p.tile then p.record else none
      match s.targetWrite p.slice.toNat p.epoch.toNat o (packetLines p) p.data (packetMask p) record (packetFormat p) point with
      | (s, 0) => .next (s.respond a p 0x3 0 [] none)
      | (s, code) => .next (s.respond a p 0x9 code [] none)

/-! ## Responses -/

/-- A remote access of a core by its tag. -/
def State.remoteOf (s : State) (tag : Nat) : Option Remote := s.remotes.find? fun r => r.tag == tag

/-- A remote access of a core is over. -/
def State.endRemote (s : State) (r : Remote) : State :=
  { s with remotes := s.remotes.filter fun x => x.tag != r.tag }.updCore r.field r.core
    fun k => if r.live then { k with outstanding := k.outstanding - 1 } else k

/-- Who made a remote access. -/
def State.remoteWho (s : State) (r : Remote) : Who :=
  { s.who r.field r.core with frame := r.frame, replay := r.replay, step := r.step }

/-- The checks of a response: another module's is forwarded, one without an entry is dropped (R275), as is one of another epoch
(R187), which counts among a mover's late ones where its request is abandoned (R154, R158); one for a fenced field is lost (R184). -/
def State.responseIn (s : State) (a : Arrival) (p : Packet) : State × Bool :=
  let m := p.addr.toNat / 2 ^ 50
  if let some f := a.lost then (s.flitDrop f, false)
  else if m ≠ s.selfId then (s.forward p m, false)
  else if (s.entryOf p.slice.toNat).isNone then (s.bump .RTE_TRANSIT_DROP, false)
  else if !s.fieldUp (p.tag.toNat % 64) then (s, false)
  else if p.epoch.toNat ≠ s.epochOf p.slice.toNat then
    let s := s.bump .MSH_FLD_STALE (p.tag.toNat % 64)
    (if p.mover && !s.awaited p.tag.toNat p.segment.toNat then s.moverLate p.tag.toNat else s, false)
  else (s, true)

/-- A remote access of a core faults: all lines of its GREAD are filled with poisoned data (R136), and the frame is marked while its
attempt runs. A step that has faulted already faults once. -/
def State.remoteFault (s : State) (r : Remote) (code : Nat) : State :=
  let s := s.endRemote r
  if r.spoiled then s
  else
    let s := s.spoil r.group
    let s := if r.write then s else s.poisonFill r.field r.core r.base r.total
    let w := s.remoteWho r
    if r.live then s.accessFault r.field r.core w r.write code r.va r.count
    else s.mmuFault r.field r.core false r.write w.slice w.frame code r.va

/-- The lines that a request of a GREAD asked for arrive: written, unless the step has faulted; a failed CRC-16 or record faults it. -/
def State.remoteData (s : State) (r : Remote) (bs : List Byte) (mask : Nat) (record : Option Sorrel) (intact : Bool) : State :=
  if r.spoiled then s.endRemote r
  else if intact && recordFits bs record then (s.endRemote r).greadPut r.field r.core r.line r.count bs mask record
  else (s.recordFailure r.field 4).remoteFault r 0x0B

/-- READ_DATA: verified and written to the requester's lines, or passed to the mover that asked (R136, R137, R341). -/
def execReadData (a : Arrival) (p : Packet) (s : State) : Res :=
  match s.responseIn a p with
  | (s, false) => .next s
  | (s, true) =>
    let tag := p.tag.toNat
    let s := if a.crcOk then s else s.bump .MSH_FLD_FLIT_ERR (tag % 64)
    let record := if p.tile then p.record else none
    if p.mover then .next (s.moverResponse tag p.segment.toNat (.data p.data (packetMask p) record a.crcOk))
    else match s.remoteOf tag with
      | some r =>
        if r.write then .next s
        else .next (s.remoteData r p.data (packetMask p) record a.crcOk)
      | none => .next (s.bump .MMU_FLD_LATE (tag % 64))

/-- WRITE_DONE completes a remote write at its requester. -/
def execWriteDone (x : Arrived) (s : State) : Res :=
  let p := x.packet
  match s.responseIn x.arrival p with
  | (s, false) => .next s
  | (s, true) =>
    let tag := p.tag.toNat
    if p.mover then .next (s.moverResponse tag p.segment.toNat .done)
    else match s.remoteOf tag with
      | some r => .next (s.endRemote r)
      | none => .next (s.bump .MMU_FLD_LATE (tag % 64))

/-- FAULT_RSP faults its requester's frame or parks its mover with the carried code, R136. -/
def execFaultRsp (x : Arrived) (s : State) : Res :=
  let p := x.packet
  match s.responseIn x.arrival p with
  | (s, false) => .next s
  | (s, true) =>
    let tag := p.tag.toNat
    if p.mover then .next (s.moverResponse tag p.segment.toNat (.fault p.code.toNat))
    else match s.remoteOf tag with
      | some r => .next (s.remoteFault r p.code.toNat)
      | none => .next (s.bump .MMU_FLD_LATE (tag % 64))

/-! ## The timeout of a remote access, R137 -/

/-- MMU_TIMEOUT in units of machine time. -/
def State.mmuLimit (s : State) : Nat := s.fld F.MMU_TIMEOUT_LIMIT * 100 * ns

/-- A request of a mover has timed out: it meets code TIMEOUT (R155). -/
def State.moverTimeout (s : State) (tag : Nat) : State :=
  let f := tag % 64
  match s.moverOfTag f tag with
  | none => s
  | some m =>
    let v := s.mover f m
    match v.queue, v.reqs.find? fun r => r.tag == tag with
    | d :: _, some r =>
      if s.up < r.start + s.mmuLimit then s
      else (s.moverCause f m (s.moverWho f d) r.writes 0x10
        ((if r.writes then d.w2 else d.w1) + r.off)).updMover f m fun v =>
          { v.dropReq tag with timedOut := v.timedOut ++ [tag] }
    | _, _ => s

/-- REMOTE_TIMEOUT: a remote access without a response within MMU_TIMEOUT faults or parks with code TIMEOUT, R137. -/
def execRemoteTimeout (tag : BitVec 32) (s : State) : Res :=
  match s.remoteOf tag.toNat with
  | some r => if s.up < r.start + s.mmuLimit then .next s else .next (s.remoteFault r 0x10)
  | none => .next (s.moverTimeout tag.toNat)

/-! ## Exchanges -/

/-- Class XCHG_SLOT at a receiving core; no step faulted, and the class has no address. -/
def State.exchangeFault (s : State) (f c : Nat) : State := s.faultAt f c 0 clsXchgSlot 0 0

/-- RECV_BASE of a program header. -/
def headerRecvBase (h : Nat) : Nat := bits h 80 16
/-- RECV_SLOTS of a program header. -/
def headerRecvSlots (h : Nat) : Nat := bits h 96 8
/-- XCHG_IN of a program header. -/
def headerXchgIn (h : Nat) : Nat := bits h 72 8

/-- An exchange is written to its slot with its record; a failed CRC-16 or record poisons it and faults the receiving
frame (R76, R127, R173, Table 14.2 point 3). -/
def State.exchangePut (s : State) (f c line : Nat) (p : Packet) (crcOk : Bool) : State :=
  let r := p.record.getD Sorrel.zero
  let ok := crcOk && p.record.isSome && sorrelOk p.data r
  let o := sramLine f c line
  let m := if ok && line % 64 == 0 then s.mem.storeTile o p.data r
           else (s.mem.writeLines o 64 p.data (lineMask 64 (!ok || r.poison))).touchLines f c line 64 none
  let s := { s with mem := m }
  if ok then s
  else
    let s := if crcOk then s else s.bump .MSH_FLD_FLIT_ERR f
    (s.recordFailure f 3).faultAt f c 0 clsPoison 0x0B (line * 64)

/-- What a receiving core does with an exchange, Table 3.11. DESIGN CHOICE (log entry 98): a superseded replay count goes before a slot at
or above RECV_SLOTS. -/
def State.exchangeIn (s : State) (n f c slot : Nat) (p : Packet) (crcOk : Bool) : State :=
  let fr := s.rd .SEQ_FRAME n
  let rep := s.fld F.SEQ_STATUS_REPLAY n
  let k := s.core f c
  let h := k.header (s.fld F.SEQ_STATUS_INDEX n)
  let key := fr % 2 * 256 + slot
  let line := headerRecvBase h + (fr % 2 * headerRecvSlots h + slot) * 64
  if p.frame.toNat = fr ∧ p.replay.toNat < rep then s.bump .SEQ_FLD_XSUPER f
  else if p.frame.toNat ≠ fr ∨ p.replay.toNat > rep then s.bump .SEQ_FLD_XDROP f
  else if slot ≥ headerRecvSlots h then (s.bump .SEQ_FLD_XDROP f).exchangeFault f c
  else if mapGet (fun _ => none) k.recv key = some ⟨fr, rep⟩ then s.exchangeFault f c
  else
    (s.exchangePut f c line p crcOk).updCore f c fun k =>
      { k with recv := mapSet (fun _ => none) key (some ⟨fr, rep⟩) k.recv }

/-- EXCHANGE: an exchange arrives at its receiving field and is written, dropped or faulted (R77, R187, R276). -/
def execExchange (a : Arrival) (p : Packet) (s : State) : Res :=
  let sl := p.slice.toNat
  let x := p.addr.toNat
  let c := bits x 0 9
  if let some f := a.lost then .next (s.flitDrop f)
  else match s.entryOf sl with
  | none => .next (s.bump .RTE_TRANSIT_DROP)
  | some e =>
    match s.relField e (bits x 9 19) with
    | none => .next (s.bump .RTE_TRANSIT_DROP)
    | some (m, f) =>
      if m ≠ s.selfId then .next (s.forward p m)
      else if !s.fieldUp f then .next s
      else if s.fieldOwner f ≠ some sl ∨ c > 449 then .next (s.bump .RTE_FILTER_DROP)
      else if p.epoch.toNat ≠ s.fld F.RTE_SLICE_EPOCH e then .next (s.bump .MSH_FLD_STALE f)
      else match s.slotOfSlice sl with
        | some n => .next (s.exchangeIn n f c (bits x 28 8) p a.crcOk)
        | none => .next (s.bump .SEQ_FLD_XDROP f)

end Sys2Proof.Machine
end

