-- ==== Sys2Proof/Machine/MemoryCmds.lean ====
section
/-!
DEFINITION. Sys2Proof/Machine/MemoryCmds.lean: the memory commands of chapter 5: the SRAM clear and the scrubs (R124,
R125, R132), the page tables as the control complex keeps them (R135, R499, R500), and LPDDR frames and quotas (R140,
R141).
-/
namespace Sys2Proof.Machine

/-! ## SRAM clear, R124 -/

/-- Does a program of any slice run on a field? -/
def State.fieldRuns (s : State) (f : Nat) : Bool :=
  match s.slotOfField f with
  | some n => s.flag F.SEQ_STATUS_RUNNING n
  | none => false

/-- A write of SRM_FLD_CLEAR with START = 1; ignored and recorded while a program runs on the field or BUSY = 1. -/
def State.clearStart (s : State) (f v : Nat) : State :=
  if s.fieldRuns f ∨ s.flag F.SRM_FLD_CLEAR_BUSY f then s.refuse .SRM_FLD_CLEAR f v
  else s.setFld F.SRM_FLD_CLEAR_BUSY f 1

/-- SRM_FLD_CLEAR_START: START of SRM_FLD_CLEAR clears every line of the field's cores, R124. -/
def execSrmFldClearStart (f : Fin 56) (s : State) : Res := .next (s.clearStart f 1)

/-- A field's clear ends: zero, mark 0 and records that are not current in every line of its 480 cores. -/
def State.clearDone (s : State) (f : Nat) : State :=
  { s with mem := s.mem.clearField f }.setFld F.SRM_FLD_CLEAR_BUSY f 0

/-- FIELD_CLEAR_DONE: a field SRAM clear ends and BUSY clears, R124. -/
def execFieldClearDone (f : Fin 56) (s : State) : Res :=
  if s.flag F.SRM_FLD_CLEAR_BUSY f then .next (s.clearDone f) else .next s

/-! ## Scrubs -/

/-- Drop the bit errors a line holds. -/
def Memory.correct (m : Memory) (o : Nat) : Memory := { m with upset := mapSet (fun _ => 0) (o / 64) 0 m.upset }

/-- SRAM_SCRUB: scrub reads and corrects a line; a line uncorrectable twice takes mark 2 and is captured, R125. -/
def execSramScrub (f : Fin 56) (w : Fin 480) (line : Fin 49152) (s : State) : Res :=
  let o := sramLine f w line
  if !s.flag F.SRM_FLD_CTRL_SCRUB_EN f then .next s
  else match mapGet (fun _ => 0) s.mem.upset (o / 64) with
    | 0 => .next s
    | 1 => .next ({ s with mem := s.mem.correct o }.bump .SRM_FLD_CE f)
    | _ => .next ({ s with mem := (s.mem.correct o).setMark o 2 }.sramUe f w line 1 0)

/-- LPDDR_SCRUB: scrub reads and corrects a line; an uncorrectable one is captured and left, R132. -/
def execLpddrScrub (line : BitVec 44) (s : State) : Res :=
  let o := line.toNat * 64
  if !s.flag F.LPD_SCRUB_EN ∨ s.mem.mark o ≠ 0 ∨ o ≥ lpddrEnd then .next s
  else match mapGet (fun _ => 0) s.mem.upset (o / 64) with
    | 0 => .next s
    | 1 => .next ({ s with mem := s.mem.correct o }.bump .LPD_DEV_CE (deviceOf o))
    | _ => .next (s.lpddrUe o 1)

/-! ## Invalidation and roots, R135 -/

/-- Invalidate on every field the cached translations of a slot: all, or the one that covers an address. -/
def State.invalidate (s : State) (n : Nat) (va : Option Nat) : State :=
  { s with mmuCache := (s.mmuCache.map fun e => (e.1, e.2.filter fun l =>
      !(l.slot == n && match va with | none => true | some a => l.hits n a))).filter fun e => !e.2.isEmpty }

/-- A write of MMU_SLOT_INVAL with START = 1. -/
def State.invalStart (s : State) (n : Nat) (all : Bool) (va : Nat) : State :=
  let s := (s.setFld F.MMU_SLOT_INVAL_ALL n (bit all)).setFld F.MMU_SLOT_INVAL_VA n (va / 2 ^ 21)
  s.invalidate n (if all then none else some va)

/-- MMU_SLOT_INVAL_START: START of MMU_SLOT_INVAL invalidates cached translations of a slot on every field, R135.
`page` is the value of VA, address bits [47:21]. -/
def execMmuSlotInvalStart (n : Fin 56) (all : Bool) (page : BitVec 27) (s : State) : Res :=
  .next (s.invalStart n all (page.toNat * 2 ^ 21))

/-- A write of MMU_SLOT_ROOT: a root that is not aligned to 4 MiB in the module's reserved region, or that comes while
the slot runs, is ignored and recorded, unless it is the root in force (R501). -/
def State.rootWrite (s : State) (n v : Nat) : State :=
  if v ≠ s.rd .MMU_SLOT_ROOT n ∧ (v % 2 ^ 22 ≠ 0 ∨ !s.inReserved v (2 ^ 22) ∨ s.flag F.SEQ_STATUS_RUNNING n) then
    s.refuse .MMU_SLOT_ROOT n v
  else (s.wr .MMU_SLOT_ROOT n v).invalidate n none

/-- MMU_SLOT_ROOT_WRITE: a write of MMU_SLOT_ROOT that takes effect invalidates every cached translation of the slot. -/
def execMmuSlotRootWrite (n : Fin 56) (root : BitVec 64) (s : State) : Res := .next (s.rootWrite n root.toNat)

/-! ## LPDDR frames, R140 and R141 -/

/-- The active quota entry of a slice. -/
def State.quotaOf (s : State) (slice : Nat) : Option Nat :=
  (List.range 64).find? fun i => s.flag F.LPD_QUOTA_ACTIVE i && s.fld F.LPD_QUOTA_SLICE_ID i == slice

/-- Frames of job LPDDR on the module. -/
def jobFrames : Nat := 1933312

/-- RESULT of an allocation, R140 and R141. DESIGN CHOICE (log entry 114): where several hold, 5 comes before 4, 4 before 2 and 2
before 1. -/
def State.allocCheck (s : State) (slice frame : Nat) : Nat :=
  if frame ≥ jobFrames then 5
  else match s.quotaOf slice with
    | none => 4
    | some q =>
      if s.mem.ownerOf frame ≠ 0 then 2
      else if s.fld F.LPD_QUOTA_HELD q + 1 > s.fld F.LPD_QUOTA_LIMIT q then 1
      else 0

/-- Allocate a frame: zero data, mark 0, owner, HELD + 1. -/
def State.allocFrame (s : State) (slice frame : Nat) : State × Nat :=
  match s.allocCheck slice frame, s.quotaOf slice with
  | 0, some q =>
    let m := s.mem.clearFrame frame
    let s := { s with mem := { m with owner := mapSet (fun _ => 0) frame (slice + 1) m.owner }
                      ccRecord := { s.ccRecord with frames := mapSet (fun _ => 0) frame (slice + 1) s.ccRecord.frames } }
    (s.setFld F.LPD_QUOTA_HELD q (s.fld F.LPD_QUOTA_HELD q + 1), 0)
  | r, _ => (s, r)

/-- RESULT of a free. DESIGN CHOICE (log entry 114): where several hold, 5 comes before 4 and 4 before 3. -/
def State.freeCheck (s : State) (slice frame : Nat) : Nat :=
  if frame ≥ jobFrames then 5
  else if (s.quotaOf slice).isNone then 4
  else if s.mem.ownerOf frame ≠ slice + 1 then 3
  else 0

/-- Free a frame: no owner, HELD − 1. -/
def State.freeFrame (s : State) (slice frame : Nat) : State × Nat :=
  match s.freeCheck slice frame, s.quotaOf slice with
  | 0, some q =>
    let s := { s with mem := { s.mem with owner := mapSet (fun _ => 0) frame 0 s.mem.owner }
                      ccRecord := { s.ccRecord with frames := mapSet (fun _ => 0) frame 0 s.ccRecord.frames } }
    (s.setFld F.LPD_QUOTA_HELD q (s.fld F.LPD_QUOTA_HELD q - 1), 0)
  | r, _ => (s, r)

/-- A write of LPD_ALLOC with START = 1. -/
def State.allocCmd (s : State) (free : Bool) (slice frame : Nat) : State :=
  let s := ((s.setFld F.LPD_ALLOC_OP 0 (bit free)).setFld F.LPD_ALLOC_SLICE_ID 0 slice).setFld F.LPD_ALLOC_FRAME 0 frame
  let (s, r) := if free then s.freeFrame slice frame else s.allocFrame slice frame
  s.setFld F.LPD_ALLOC_RESULT 0 r

/-- LPD_ALLOCATE: LPD_ALLOC with OP allocate, R140. -/
def execLpdAllocate (slice : BitVec 12) (frame : BitVec 21) (s : State) : Res :=
  .next (s.allocCmd false slice.toNat frame.toNat)

/-- LPD_FREE: LPD_ALLOC with OP free, R140. -/
def execLpdFree (slice : BitVec 12) (frame : BitVec 21) (s : State) : Res :=
  .next (s.allocCmd true slice.toNat frame.toNat)

/-- The first n frames of job LPDDR without an owner, from a number on. -/
def Memory.freeFrames (m : Memory) : Nat → Nat → Nat → List Nat
  | 0, _, _ => []
  | _, _, 0 => []
  | fuel + 1, k, n =>
    if k ≥ jobFrames then []
    else if m.ownerOf k = 0 then k :: m.freeFrames fuel (k + 1) (n - 1)
    else m.freeFrames fuel (k + 1) n

/-- Allocate n frames to a slice, the lowest free ones; none when quota or memory does not allow it (reason QUOTA). -/
def State.allocFrames (s : State) (slice n : Nat) : Option (State × List Nat) :=
  let l := s.mem.freeFrames jobFrames 0 n
  if l.length < n then none
  else l.foldl (fun r k => match r with
    | some (s, done) => match s.allocFrame slice k with
      | (s, 0) => some (s, done ++ [k])
      | _ => none
    | none => none) (some (s, []))

/-! ## Page tables as the control complex writes them, R134, R499 -/

/-- A leaf entry. -/
def leafEntry (slice target : Nat) (write poison : Bool) : Nat :=
  3 + bit write * 4 + bit poison * 8 + slice * 2 ^ 8 + target * 2 ^ 85

/-- An entry that names a second-level table. -/
def nextEntry (slice ga : Nat) : Nat := 1 + slice * 2 ^ 8 + ga / 2 ^ 13 * 2 ^ 77

/-- Write a page-table entry at a module offset, and into the control complex's record. -/
def State.putEntry (s : State) (o e : Nat) : State :=
  { s with mem := s.mem.writeIn o (toBytes 16 e) 0
           ccRecord := { s.ccRecord with pages := mapSet (fun _ => 0) o e s.ccRecord.pages } }

/-- Read a page-table entry as it stands. -/
def State.rawEntry (s : State) (o : Nat) : Nat := ofBytes (s.mem.bytes o 16)

/-- Module offset of the top-level table that the control complex gives the slice of entry e. -/
def rootOffset (e : Nat) : Nat := reservedBase + e * 2 ^ 22

/-- Module offset of the k-th second-level table. -/
def tableOffset (k : Nat) : Nat := reservedBase + 2 ^ 28 + k * 2 ^ 13

/-- Global address of a module offset of this module. -/
def State.globalOf (s : State) (o : Nat) : Nat := s.selfId * 2 ^ 50 + o

/-- Map the 2 MiB page of an address to a target (global address bits [63:21]), writing a second-level table first
where the top-level entry is not valid. -/
def State.mapPage (s : State) (n slice va target : Nat) (write : Bool) : State :=
  let top := s.rd .MMU_SLOT_ROOT n % 2 ^ 50 + va / 2 ^ 30 * 16
  let e1 := s.rawEntry top
  let (s, tab) :=
    if bitOf e1 0 then (s, bits e1 77 51 * 2 ^ 13 % 2 ^ 50)
    else
      let t := tableOffset s.nextTable
      let s := { s with mem := s.mem.zeroRange t (t + 8192), nextTable := s.nextTable + 1 }
      (s.putEntry top (nextEntry slice (s.globalOf t)), t)
  s.putEntry (tab + va / 2 ^ 21 % 512 * 16) (leafEntry slice target write false)

/-- Map a 1 GiB page. -/
def State.mapHuge (s : State) (n slice va target : Nat) (write : Bool) : State :=
  s.putEntry (s.rd .MMU_SLOT_ROOT n % 2 ^ 50 + va / 2 ^ 30 * 16) (leafEntry slice target write false)

/-- Give slot n, for the slice of entry e, an empty top-level table. -/
def State.newRoot (s : State) (n e : Nat) : State :=
  let o := rootOffset e
  { s with mem := s.mem.zeroRange o (o + 2 ^ 22)
           ccRecord := { s.ccRecord with pages := mapDelRange o (o + 2 ^ 22) s.ccRecord.pages } }.rootWrite n (s.globalOf o)

end Sys2Proof.Machine
end

