-- ==== Sys2Proof/Machine/Mesh.lean ====
section
/-!
DEFINITION. Sys2Proof/Machine/Mesh.lean: column maps (R175), rotation steps and shifts (R177 to R180), the repairs of
Table 7.2, field retirement (R183), service requests (R361) and the positions of a field as in-field test sees them.
-/
namespace Sys2Proof.Machine

/-! ## Service requests, R361 -/

/-- The module records that a read gives: device A, or B when A's copy is not valid (R414). -/
def State.savedRecords (s : State) : Option ModuleRecords :=
  match s.flashA.records with
  | some r => some r
  | none => s.flashB.records

/-- Is the condition of a cause of Table 14.5 present: a field retired or fenced, or in the repair map as such; EXCEEDED; a feed lost; 720 hours
untraced; an optical engine out of service; an LPDDR device failed; servo fault SUPPLY or DECK_ENGINE; no library? -/
def State.condHolds (s : State) (cause : Nat) : Bool :=
  match cause with
  | 0 => ((List.range 56).any fun f => s.fld F.MSH_FLD_STATE_STATE f != 0) ||
      (match s.savedRecords with | some r => r.fields.any fun e => e.2 % 4 != 0 | none => false)
  | 1 => s.flag F.INT_STATUS_EXCEEDED
  | 2 => !s.flag F.PWR_STATUS_FEED_A || !s.flag F.PWR_STATUS_FEED_B
  | 3 => s.flag F.CAL_STATUS_UNTRACED && decide (s.fld F.CAL_UNTRACED_H_HOURS ≥ 720)
  | 4 => s.lanes.any fun e => e.2.engineOut && s.fld F.MSH_FLD_STATE_STATE (e.1 / 24) != 2
  | 5 => (List.range 32).any fun d => s.flag F.LPD_DEV_STATUS_FAILED d
  | 6 => s.fld F.SRV_STATUS_SUPPLY != 0 || s.flag F.SRV_STATUS_ENGINE
  | _ => s.fld F.INT_LIB_STATE == 2

/-- A new occurrence of a cause of Table 14.5: its bit is set, its condition is present, and it is recorded. -/
def State.service (s : State) (cause : Nat) : State :=
  let s := s.setFld F.INT_SVC_PEND_CAUSE 0 (s.fld F.INT_SVC_PEND_CAUSE ||| 2 ^ cause)
  (s.setFld F.INT_SVC_COND_CAUSE 0 (s.fld F.INT_SVC_COND_CAUSE ||| 2 ^ cause)).log 0x0F 0x8002 0 cause

/-- The condition of a cause may have ended. -/
def State.serviceOver (s : State) (cause : Nat) : State :=
  s.setFld F.INT_SVC_COND_CAUSE 0 (setBits (s.fld F.INT_SVC_COND_CAUSE) cause 1 (bit (s.condHolds cause)))

/-- INT_SVC_COND shows which conditions are present. -/
def State.refreshCond (s : State) : State := (List.range 8).foldl State.serviceOver s

/-- SVC_REQ_N is asserted while any bit of INT_SVC_PEND is 1. -/
def State.svcReq (s : State) : Bool := s.fld F.INT_SVC_PEND_CAUSE != 0

/-! ## Paths on the wafer, R171 and R174

A wafer position is (x, y): column x, 0 to 239, and physical row y, 0 to 111, over 8 × 7 fields of 30 columns and 16 rows. -/

/-- The field of a wafer position. -/
def waferField (x y : Nat) : Nat := y / 16 * 8 + x / 30

/-- The numbers from one to another, in order of travel. -/
def legOf (a b : Nat) : List Nat := if a ≤ b then rangeFrom a (b - a + 1) else (rangeFrom b (a - b + 1)).reverse

/-- The stitched link that crosses N–S boundary b (0 to 5) in column x. -/
def stitchNS (b x : Nat) : Nat := b * 240 + x

/-- The stitched link that crosses E–W boundary b (0 to 6) in row y. -/
def stitchEW (b y : Nat) : Nat := 1440 + b * 112 + y

/-- The fields whose routers a packet meets: N or S in the column of its source to the row of its destination, then E or W (R171). -/
def meshFields (a b : Nat × Nat) : List Nat :=
  ((legOf (a.2 / 16) (b.2 / 16)).map fun r => r * 8 + a.1 / 30) ++ ((legOf (a.1 / 30) (b.1 / 30)).map fun c => b.2 / 16 * 8 + c)

/-- The boundaries that a leg between two field rows or columns crosses. -/
def bounds (a b : Nat) : List Nat := rangeFrom (min a b) (max a b - min a b)

/-- The stitched links that a packet crosses on its path of R171. -/
def meshLinks (a b : Nat × Nat) : List Nat :=
  ((bounds (a.2 / 16) (b.2 / 16)).map fun i => stitchNS i a.1) ++ ((bounds (a.1 / 30) (b.1 / 30)).map fun i => stitchEW i b.2)

/-- Does a path meet no fenced element? -/
def State.pathClear (s : State) (a b : Nat × Nat) : Bool :=
  (meshFields a b).all s.fieldUp && (meshLinks a b).all fun l => !s.fencedLinks.contains l

/-- Columns that stand for all of them: of each field column, the first without a fenced stitched link, and those with one. -/
def State.waferCols (s : State) : List Nat :=
  ((List.range 8).map fun c =>
    let cut := fun x => (List.range 6).any fun b => s.fencedLinks.contains (stitchNS b x)
    ((rangeFrom (30 * c) 30).find? fun x => !cut x).toList ++ (rangeFrom (30 * c) 30).filter cut).flatten

/-- Rows that stand for all of them, likewise. -/
def State.waferRows (s : State) : List Nat :=
  ((List.range 7).map fun r =>
    let cut := fun y => (List.range 7).any fun b => s.fencedLinks.contains (stitchEW b y)
    ((rangeFrom (16 * r) 16).find? fun y => !cut y).toList ++ (rangeFrom (16 * r) 16).filter cut).flatten

/-- Positions of fields in service that stand for all of them. -/
def State.waferSpots (s : State) : List (Nat × Nat) :=
  ((s.waferRows.map fun y => s.waferCols.map fun x => (x, y)).flatten).filter fun a => s.fieldUp (waferField a.1 a.2)

/-- How a packet travels between two positions: on its path of R171, in two phases through an intermediate position, or not at all. -/
inductive MeshRoute where
  | direct
  | through (x y : Nat)
  | none
deriving DecidableEq, Repr

/-- The route tables (R174): the first intermediate position that serves is taken (log entry 92). -/
def State.meshRoute (s : State) (a b : Nat × Nat) : MeshRoute :=
  if s.pathClear a b then .direct
  else match s.waferSpots.find? fun c => s.pathClear a c && s.pathClear c b with
    | some c => .through c.1 c.2
    | none => .none

/-- From how many positions can no packet reach some position of a field? -/
def State.cutOff (s : State) (f : Nat) : Nat :=
  let spots := s.waferSpots
  (spots.filter fun a => (spots.filter fun b => waferField b.1 b.2 == f).any fun b => s.meshRoute a b == .none).length

/-- The field that cannot be reached: the one that most positions cannot reach, the lowest among equals (log entry 92). -/
def State.unreached (s : State) : Option Nat :=
  ((List.range 56).filter s.fieldUp).foldl (fun best f =>
    let n := s.cutOff f
    match best with
    | some g => if n > s.cutOff g then some f else best
    | none => if n > 0 then some f else none) none

/-! ## Column maps, R175 -/

/-- Index of the column map of column c of field f. -/
def colIdx (f c : Nat) : Nat := f * 30 + c

/-- SPARE of a column. -/
def State.spareOf (s : State) (f c : Nat) : Nat := s.fld F.MSH_COL_MAP_SPARE (colIdx f c)
/-- BASE of a column. -/
def State.baseOf (s : State) (f c : Nat) : Nat := s.fld F.MSH_COL_MAP_BASE (colIdx f c)
/-- FENCE of a column. -/
def State.fenceOf (s : State) (f c : Nat) : Nat := s.fld F.MSH_COL_MAP_FENCE (colIdx f c)
/-- NOSPARE of a column. -/
def State.noSpare (s : State) (f c : Nat) : Bool := s.flag F.MSH_COL_MAP_NOSPARE (colIdx f c)

/-- The physical rows of logical rows 0 to 14 of a column, by the loop of R175. -/
def physRows (base spare fence : Nat) (noSpare : Bool) : List Nat :=
  (((List.range 16).map fun i => (base + i) % 16).filter fun p =>
    !(bitOf fence p) && (noSpare || p != spare)).take 15

/-- The physical rows of a column. -/
def State.physOf (s : State) (f c : Nat) : List Nat :=
  physRows (s.baseOf f c) (s.spareOf f c) (s.fenceOf f c) (s.noSpare f c)

/-- The physical row of a core, R9 and R175. -/
def State.prowOf (s : State) (f core : Nat) : Option Nat := (s.physOf f (core % 30))[core / 30]?

/-- The core that lies on a physical row of a column. -/
def State.coreAtRow (s : State) (f c p : Nat) : Option Nat :=
  match firstIdx (fun q => q == p) 0 (s.physOf f c) with
  | some r => some (r * 30 + c)
  | none => none

/-! ## Positions -/

/-- Is a field in service? -/
def State.inService (s : State) (f : Nat) : Bool := s.fld F.MSH_FLD_STATE_STATE f == 0

/-- Key of a position. -/
def posKey (f c p : Nat) : Nat := (f * 30 + c) * 16 + p

/-- A position. -/
def State.position (s : State) (f c p : Nat) : Position := mapGet (fun _ => Position.init) s.positions (posKey f c p)

/-- Change a position. -/
def State.updPosition (s : State) (f c p : Nat) (g : Position → Position) : State :=
  { s with positions := mapSet (fun _ => Position.init) (posKey f c p) (g (s.position f c p)) s.positions }

/-- Is a physical position its column's spare? -/
def State.isSpare (s : State) (f c p : Nat) : Bool := !s.noSpare f c && p == s.spareOf f c

/-- The positions of a field that are not fenced and satisfy a test of their column and row. -/
def State.positionsWhere (s : State) (f : Nat) (q : Nat → Nat → Position → Bool) : List (Nat × Nat) :=
  ((List.range 30).map fun c => ((List.range 16).filter fun p =>
    !(bitOf (s.fenceOf f c) p) && q c p (s.position f c p)).map fun p => (c, p)).flatten

/-- INT_FLD_TEST of a field: tests running, positions due and cores marked, and HELD (R358), while a field without an owner has a
due or marked position that is no spare. -/
def State.refreshTest (s : State) (f : Nat) : State :=
  let open_ := s.positionsWhere f fun c p x => (x.dueAt.isSome || x.markedAt.isSome) && !s.isSpare f c p
  let s := s.setFld F.INT_FLD_TEST_RUNNING f (min 30 (s.positionsWhere f fun _ _ x => x.testing.isSome).length)
  let s := s.setFld F.INT_FLD_TEST_DUE f (s.positionsWhere f fun _ _ x => x.dueAt.isSome).length
  let s := s.setFld F.INT_FLD_TEST_MARKED f (min 30 (s.positionsWhere f fun _ _ x => x.markedAt.isSome).length)
  s.setFld F.INT_FLD_TEST_HELD f (bit (s.inService f && (s.fieldOwner f).isNone && !open_.isEmpty))

/-- The tests of a field are abandoned; its positions keep their ages (Table 14.6). -/
def State.dropTests (s : State) (f : Nat) : State :=
  let s := (List.range 30).foldl (fun s c => (List.range 16).foldl (fun s p =>
    s.updPosition f c p fun x => { x with testing := none }) s) s
  s.refreshTest f

/-! ## The repair map, R182 -/

/-- Records of a module that has saved none. -/
def ModuleRecords.init : ModuleRecords :=
  { columns := [], fields := [], ages := [], untraced := 0, nextSeq := none, faceMaps := [], links := [] }

/-- Column i of the repair map as a repair leaves it: FENCE and NOSPARE as they are, SPARE and BASE as they were saved last. -/
def State.repairColumn (s : State) (saved : List (Nat × Nat)) (i : Nat) : Nat :=
  mapGet (fun _ => 0xF) saved i % 256 + bits (s.rd .MSH_COL_MAP i) 8 17 * 256

/-- The control complex writes the repair map into both flash devices when a repair takes effect: fenced positions, links and fields. What
else the records hold stays, the rotation positions among it (R182). -/
def State.saveRepairs (s : State) : State :=
  let old := s.savedRecords.getD ModuleRecords.init
  let r : ModuleRecords := { old with
    columns := (List.range 1680).map fun i => (i, s.repairColumn old.columns i)
    fields := (List.range 56).map fun f => (f, s.rd .MSH_FLD_STATE f)
    links := s.fencedLinks }
  { s with flashA := { s.flashA with records := some r }, flashB := { s.flashB with records := some r } }

/-! ## Operations on columns -/

/-- Is an operation on a column begun? -/
def State.colBusy (s : State) (f c : Nat) : Bool := s.colOps.any fun o => o.field == f && o.col == c && o.begun

/-- Is a repair of a column waiting or running? -/
def State.colRepair (s : State) (f c : Nat) : Bool :=
  s.colOps.any fun o => o.field == f && o.col == c && (o.kind != .rotate)

/-- The end of the map change of a rotation step, R178. -/
def State.rotateMap (s : State) (f c : Nat) : State :=
  let sp := s.spareOf f c
  let s := if s.baseOf f c = (sp + 1) % 16 then s.setFld F.MSH_COL_MAP_BASE (colIdx f c) sp else s
  s.setFld F.MSH_COL_MAP_SPARE (colIdx f c) ((sp + 1) % 16)

/-- The end of a column shift that makes physical row p the spare (R180): the cores of the shorter arc move one position toward the old
spare, down on the arc that rises from it; of two equal arcs those whose cores move upward. -/
def State.shiftMap (s : State) (f c p : Nat) : State :=
  let sp := s.spareOf f c
  let b := s.baseOf f c
  let up := (p + 16 - sp) % 16
  let down := (sp + 16 - p) % 16
  let base :=
    if up < down then (if (b + 16 - sp) % 16 ≠ 0 ∧ (b + 16 - sp) % 16 ≤ up then (b + 15) % 16 else b)
    else (if (sp + 16 - b) % 16 ≠ 0 ∧ (sp + 16 - b) % 16 ≤ down then (b + 1) % 16 else b)
  (s.setFld F.MSH_COL_MAP_BASE (colIdx f c) base).setFld F.MSH_COL_MAP_SPARE (colIdx f c) p

/-- A core lies on other hardware, or its hardware has passed a test: failures of the check row are counted anew (R109). -/
def State.cleanCheck (s : State) (f core : Nat) : State := s.updCore f core fun k => { k with misses := [] }

/-- After a column's map has changed: the cores that moved lie on other check rows, and the new spare awaits its test (R354). -/
def State.remapped (s old : State) (f c : Nat) : State :=
  let s := (List.range 15).foldl (fun t r =>
    if (t.physOf f c)[r]? = (old.physOf f c)[r]? then t else t.cleanCheck f (r * 30 + c)) s
  if s.noSpare f c then s else s.updPosition f c (s.spareOf f c) fun x => { x with fresh := true }

/-! ## Retirement, R183 -/

/-- A field is retired (STATE 1) or fenced (STATE 2) for a cause: counted, recorded, and a service is asked for. -/
def State.retireField (s : State) (f state cause : Nat) : State :=
  let was := s.fld F.MSH_FLD_STATE_STATE f
  if was ≥ state then s
  else
    let s := (s.setFld F.MSH_FLD_STATE_STATE f state).setFld F.MSH_FLD_STATE_CAUSE f cause
    let s := if was = 0 then s.setFld F.MSH_MOD_REPAIR_RETIRED 0 (s.fld F.MSH_MOD_REPAIR_RETIRED + 1) else s
    let s := if state = 2 then s.setFld F.MSH_MOD_REPAIR_FENCED 0 (s.fld F.MSH_MOD_REPAIR_FENCED + 1) else s
    (((s.log 0x10 0x4002 f (s.rd .MSH_FLD_STATE f)).service 0).dropTests f).saveRepairs

/-- Does an operation wait for the spare of a column? -/
def ColOp.wantsSpare (o : ColOp) (f c : Nat) : Bool := o.field == f && o.col == c && (o.kind != .rotate || !o.begun)

/-- Operations that wait in a column that has lost its spare end: a command with RESULT 1, a step or a shift for a marked core in silence, since
R358 governs that core now (Table 7.3, Table 14.6). A row that is still to be fenced is now a failed core without a spare: the field is
retired (R183). -/
def State.dropShifts (s : State) (f c : Nat) : State :=
  let ops := s.colOps.filter fun o => o.wantsSpare f c
  let s : State := { s with colOps := s.colOps.filter fun o => !o.wantsSpare f c }
  let s := if ops.any (·.command) then (s.setFld F.MSH_FLD_CMD_BUSY f 0).setFld F.MSH_FLD_CMD_RESULT f 1 else s
  if ops.any fun o => o.kind == .fenceCore || o.kind == .fenceSpare then s.retireField f 1 1 else s

/-- A column loses its spare. -/
def State.consumeSpare (s : State) (f c : Nat) : State :=
  let s := s.setFld F.MSH_COL_MAP_NOSPARE (colIdx f c) 1
  let s := s.setFld F.MSH_FLD_STATE_NOSPARE f (s.fld F.MSH_FLD_STATE_NOSPARE f + 1)
  (s.setFld F.MSH_MOD_REPAIR_NOSPARE 0 (s.fld F.MSH_MOD_REPAIR_NOSPARE + 1)).dropShifts f c

/-- Fence a physical row of a column. -/
def State.fenceRow (s : State) (f c p : Nat) : State :=
  s.setFld F.MSH_COL_MAP_FENCE (colIdx f c) (s.fenceOf f c ||| 2 ^ p)

/-- Record a repair, REPAIR of Table 19.3: OP, column, physical row, new epoch. -/
def State.logRepair (s : State) (f c p op : Nat) : State :=
  s.log 0x10 0x4001 (f + c * 64) (op + c * 8 + p * 2 ^ 8 + s.epochOf (s.sliceOfField f) * 2 ^ 12)

/-- Is the core on a physical row of a column to be fenced? -/
def State.fenceAsked (s : State) (f c p : Nat) : Bool :=
  s.colOps.any fun o => o.field == f && o.col == c && o.kind == .fenceCore && o.prow == p

/-- The map of a rotation step comes into force; a core that failed while it moved has its position fenced at once (Table 7.3). -/
def State.rotateEnds (s : State) (f c : Nat) : State :=
  let p := (s.spareOf f c + 1) % 16
  let s := s.rotateMap f c
  if s.fenceAsked f c p then (s.fenceRow f c p).saveRepairs else s

/-- The new map of an operation comes into force (R178, R180, Table 7.2). -/
def State.applyOp (s : State) (o : ColOp) : State :=
  let s := { s with colOps := s.colOps.filter fun x => x != o }
  let s := s.setFld F.MSH_COL_MAP_STEPPING (colIdx o.field o.col) 0
  let s := if o.command then
      (s.setFld F.MSH_FLD_CMD_BUSY o.field 0).setFld F.MSH_FLD_CMD_RESULT o.field 0 else s
  let old := s
  let s := match o.kind with
  | .rotate => s.rotateEnds o.field o.col
  | .shift => (s.shiftMap o.field o.col o.prow).logRepair o.field o.col o.prow 0
  | .fenceCore =>
    ((((s.shiftMap o.field o.col o.prow).fenceRow o.field o.col o.prow).consumeSpare o.field o.col).logRepair
      o.field o.col o.prow 2).saveRepairs
  | .fenceSpare =>
    (((s.fenceRow o.field o.col o.prow).consumeSpare o.field o.col).logRepair o.field o.col o.prow 1).saveRepairs
  s.remapped old o.field o.col

/-- Does an operation change the placement, so that the epoch of the slice increments (Table 7.2)? -/
def ColKind.placement : ColKind → Bool
  | .shift => true
  | .fenceCore => true
  | _ => false

/-- SRAM lines of a failed core that read uncorrectable arrive at their new position with mark 2, R181. -/
def Memory.rescueCore (m : Memory) (f core : Nat) : Memory :=
  let lo := sramLine f core 0 / 64
  let bad := (m.upset.filter fun e => decide (lo ≤ e.1) && decide (e.1 < lo + sramLines) && e.2 == 2).map (·.1)
  let m := { m with upset := m.upset.filter fun e => !(bad.contains e.1) }
  bad.foldl (fun m l => m.setMark (l * 64) 2) m

/-- The move of an operation begins. -/
def State.beginOp (s : State) (o : ColOp) : State :=
  let s := { s with colOps := s.colOps.map fun x => if x = o then { o with begun := true } else x }
  s.setFld F.MSH_COL_MAP_STEPPING (colIdx o.field o.col) 1

/-- The rotation interval in machine time. -/
def State.rotInterval (s : State) : Nat := s.fld F.MSH_ROT_INTERVAL * 60 * second

/-- Does a column's step fall due now (R177)? It has a spare and no fenced row; INTERVAL minutes, if not 0, have passed since its last step
fell due, and 1/1,680 of them since the module's last step did. -/
def State.rotateDue (s : State) (f c : Nat) : Bool :=
  let last := mapGet (fun _ => 0) s.rotLast (colIdx f c)
  s.fld F.MSH_ROT_INTERVAL != 0 && !s.noSpare f c && s.fenceOf f c == 0 &&
    !(s.colOps.any fun o => o.field == f && o.col == c && o.kind == .rotate) &&
    (last == 0 || decide (last - 1 + s.rotInterval ≤ s.up)) &&
    match s.rotStep with
    | some t => decide (1680 * t + s.rotInterval ≤ 1680 * s.up)
    | none => true

/-- ROTATION_DUE: the rotation interval of a column expires and its step falls due, R177. -/
def execRotationDue (f : Fin 56) (c : Fin 30) (s : State) : Res :=
  if s.rotateDue f c then
    let o : ColOp := { field := f, col := c, prow := s.spareOf f c, kind := .rotate, begun := false, moved := false, command := false }
    .next { s with colOps := s.colOps ++ [o], rotLast := mapSet (fun _ => 0) (colIdx f c) (s.up + 1) s.rotLast, rotStep := some s.up }
  else .next s

/-- The core that a begun operation moves although it has failed: the one to be fenced, or one that failed as its rotation step moved it
(Table 7.3). -/
def State.failedMover (s : State) (o : ColOp) : Option Nat :=
  match o.kind with
  | .fenceCore => s.coreAtRow o.field o.col o.prow
  | .rotate =>
    let p := (s.spareOf o.field o.col + 1) % 16
    if s.fenceAsked o.field o.col p then s.coreAtRow o.field o.col p else none
  | _ => none

/-- The state move of a begun operation ends; lines of a failed core that read uncorrectable arrive with mark 2 (R181). -/
def State.moveDone (s : State) (f c : Nat) : State :=
  let s : State := { s with colOps := s.colOps.map fun o =>
    if o.field = f ∧ o.col = c ∧ o.begun then { o with moved := true } else o }
  match s.colOps.find? fun o => o.field == f && o.col == c && o.begun with
  | some o => match s.failedMover o with
    | some core => { s with mem := s.mem.rescueCore f core }
    | none => s
  | none => s

/-- STATE_MOVE_DONE: the state move of a rotation step or shift completes; its map takes effect at the next tick, R178. -/
def execStateMoveDone (f : Fin 56) (c : Fin 30) (s : State) : Res := .next (s.moveDone f c)

/-! ## Commands of MSH_FLD_CMD, Table 7.2 -/

/-- RESULT of a command of MSH_FLD_CMD; the causes are judged in the order 4, 3, 5, 1, 2. DESIGN CHOICE (log entry 116): a repair that
waits to begin counts as running (RESULT 5). -/
def State.meshCheck (s : State) (f op col prow : Nat) : Nat :=
  if op > 3 ∨ (op ≠ 3 ∧ col > 29) then 4
  else if !s.inService f then 3
  else if op = 3 then 0
  else if s.colBusy f col ∨ s.colRepair f col then 5
  else if s.noSpare f col then 1
  else if op = 1 then (if prow = s.spareOf f col then 0 else 2)
  else if (s.coreAtRow f col prow).isNone then 2
  else 0

/-- A repair is asked for. -/
def State.addRepair (s : State) (f col prow : Nat) (k : ColKind) (command : Bool) : State :=
  { s with colOps :=
    { field := f, col := col, prow := prow, kind := k, begun := false, moved := false, command := command } :: s.colOps }

/-- A core in service is to be fenced: the running frame is marked faulted with class CHECK (R181). -/
def State.fenceStart (s : State) (f col prow : Nat) (command : Bool) : State :=
  let s := match s.coreAtRow f col prow with
    | some core => s.faultAt f core 0 clsCheck 0 0
    | none => s
  s.addRepair f col prow .fenceCore command

/-- A write of MSH_FLD_CMD with START = 1; ignored while BUSY = 1. A refusal for a running step or repair is also
recorded (Table 7.3). -/
def State.meshCmd (s : State) (f op col prow : Nat) : State :=
  if s.flag F.MSH_FLD_CMD_BUSY f then s
  else
    let s := ((s.setFld F.MSH_FLD_CMD_OP f op).setFld F.MSH_FLD_CMD_COLUMN f col).setFld F.MSH_FLD_CMD_PROW f prow
    match s.meshCheck f op col prow with
    | 0 =>
      match op with
      | 0 => (s.addRepair f col prow .shift true).setFld F.MSH_FLD_CMD_BUSY f 1
      | 1 => (s.addRepair f col prow .fenceSpare true).setFld F.MSH_FLD_CMD_BUSY f 1
      | 2 => (s.fenceStart f col prow true).setFld F.MSH_FLD_CMD_BUSY f 1
      | _ => (s.retireField f 1 5).setFld F.MSH_FLD_CMD_RESULT f 0
    | r =>
      let s := s.setFld F.MSH_FLD_CMD_RESULT f r
      if r = 5 then s.refuse .MSH_FLD_CMD f (1 + op * 4 + col * 32 + prow * 2 ^ 10) else s

/-- DIRECTED_SHIFT: MSH_FLD_CMD OP 0, R180. -/
def execDirectedShift (f : Fin 56) (col : BitVec 5) (prow : Fin 16) (s : State) : Res :=
  .next (s.meshCmd f 0 col.toNat prow)

/-- FENCE_SPARE: MSH_FLD_CMD OP 1, R180. -/
def execFenceSpare (f : Fin 56) (col : BitVec 5) (prow : Fin 16) (s : State) : Res :=
  .next (s.meshCmd f 1 col.toNat prow)

/-- FENCE_CORE: MSH_FLD_CMD OP 2, R181. -/
def execFenceCore (f : Fin 56) (col : BitVec 5) (prow : Fin 16) (s : State) : Res :=
  .next (s.meshCmd f 2 col.toNat prow)

/-- RETIRE_FIELD: MSH_FLD_CMD OP 3, R183. -/
def execRetireField (f : Fin 56) (s : State) : Res := .next (s.meshCmd f 3 0 0)

/-! ## Core marked for test, R109 and R357 -/

/-- Mark a core: its position counts as marked, and in a column with a spare a directed shift is asked for. -/
def State.markCore (s : State) (f core : Nat) : State :=
  match s.prowOf f core with
  | none => s
  | some p =>
    let c := core % 30
    if (s.position f c p).markedAt.isSome then s
    else
      let s := (s.updPosition f c p fun x => { x with markedAt := some s.up }).refreshTest f
      if s.noSpare f c then s else { s with colOps := s.colOps ++
        [{ field := f, col := c, prow := p, kind := .shift, begun := false, moved := false, command := false }] }

/-- CORE_MARKED_FOR_TEST: a check row that reported failures on more than 4 of the core's latest 1,024 MMAs marks the core,
R109. -/
def execCoreMarkedForTest (a : CoreAt) (s : State) : Res :=
  let k := s.core a.field a.core
  if ((k.misses.filter fun m => decide (m + 1024 > k.mmas)).length > 4) then .next (s.markCore a.field a.core) else .next s

end Sys2Proof.Machine
end

