-- ==== Sys2Proof/Machine/LinkOps.lean ====
section
/-!
DEFINITION. Sys2Proof/Machine/LinkOps.lean: links and lanes as the deck, the audits and the training change them: the
routing entries of link slots (R217, R231, R233), retrains (R218, R219), lanes that leave (R216), and the time state as
far as the parent link decides it (R292, R293, R297).
-/
namespace Sys2Proof.Machine

/-! ## The time state, Table 12.2 -/

/-- States of TIM_STATUS. -/
def timeFree : Nat := 0
/-- ACQUIRING. -/
def timeAcquiring : Nat := 1
/-- LOCKED. -/
def timeLocked : Nat := 2
/-- HOLDOVER. -/
def timeHoldover : Nat := 3

/-- STATE of TIM_STATUS. -/
def State.timeState (s : State) : Nat := s.fld F.TIM_STATUS_STATE

/-- Enter a time state, recorded as TIME_STATE with a cause; entries into HOLDOVER are counted (Table 12.2). -/
def State.enterTime (s : State) (st why : Nat) : State :=
  if s.timeState = st then s
  else
    let s := (s.setFld F.TIM_STATUS_STATE 0 st).log 0x0C 0x7002 0 (st + (Config.timeCause why).toNat * 4)
    let s : State := { s with time := { s.time with good := 0, lost := 0, mismatch := 0 } }
    if st = timeHoldover then { s with time := { s.time with heldAt := s.up, losses := s.time.losses + 1 } }.bump .TIM_SYNC_LOSS else s

/-- The source is lost: HOLDOVER from LOCKED or ACQUIRING. -/
def State.sourceLost (s : State) (why : Nat) : State :=
  if s.timeState = timeLocked ∨ s.timeState = timeAcquiring then s.enterTime timeHoldover why else s

/-- The source is present: ACQUIRING from FREE or HOLDOVER. -/
def State.sourceFound (s : State) (why : Nat) : State :=
  if s.timeState = timeFree ∨ s.timeState = timeHoldover then s.enterTime timeAcquiring why else s

/-- Number of modules of the machine, R265. -/
def State.machineSize (s : State) : Nat := let (x, y, z) := s.dims; x * y * z

/-- Does the module follow a parent neighbour, R292? -/
def State.followsLinks (s : State) : Bool :=
  s.fld F.TIM_CTRL_SOURCE == 0 && !s.flag F.TIM_CTRL_MASTER && decide (s.machineSize ≤ 128)

/-- Distance and direction (0 for +, 1 for −) from p to q on a ring of n: the shorter way, + on a tie (R297). -/
def ringWay (n p q : Nat) : Nat × Nat :=
  let up := (q + n - p) % n
  let down := (p + n - q) % n
  if up ≤ down then (up, 0) else (down, 1)

/-- Port of each way one hop nearer the master, on the axes in order X, Y, Z, and then the other ways of equal length, with the hop
distance (R297). -/
def State.parentWays (s : State) : List (Nat × Nat) × Nat :=
  let (dx, dy, dz) := s.dims
  let (x, y, z) := coordsOf s.selfId
  let (mx, my, mz) := coordsOf (Config.timeMaster s.time.losses)
  let w := [(0, dx, ringWay dx x mx), (2, dy, ringWay dy y my), (4, dz, ringWay dz z mz)]
  let far := w.filter fun a => a.2.2.1 != 0
  let tied := far.filter fun a => 2 * a.2.2.1 == a.2.1
  ((far.map fun a => (a.1 + a.2.2.2, a.2.2.1)) ++ tied.map (fun a => (a.1 + 1 - a.2.2.2, a.2.2.1)), w.foldl (fun n a => n + a.2.2.1) 0)

/-- The module next to a module over a face, in a machine of a size (R266). -/
def nextOver (d : Nat × Nat × Nat) (m face : Nat) : Nat :=
  let (dx, dy, dz) := d
  let (x, y, z) := coordsOf m
  match face with
  | 0 => idOf ((x + 1) % dx) y z
  | 1 => idOf ((x + dx - 1) % dx) y z
  | 2 => idOf x ((y + 1) % dy) z
  | 3 => idOf x ((y + dy - 1) % dy) z
  | 4 => idOf x y ((z + 1) % dz)
  | _ => idOf x y ((z + dz - 1) % dz)

/-- Module id of the neighbour at a port. -/
def State.neighbour (s : State) (port : Nat) : Nat := nextOver s.dims s.selfId port

/-- The direct link in state UP to the neighbour at a port: a link slot of the port whose peer is that neighbour. -/
def State.directLink (s : State) (port : Nat) : Option Nat :=
  (rangeFrom (4 * port) 4).find? fun n =>
    s.linkState n == linkUp && s.fld F.LNK_LINK_STATUS_PEER n == s.neighbour port

/-- Choose the parent again (R297): the first way whose direct link is UP; without one the source is lost. -/
def State.reparent (s : State) : State :=
  if !s.followsLinks then s
  else
    let (ways, depth) := s.parentWays
    match (ways.map fun w => s.directLink w.1).find? (·.isSome) with
    | some (some l) =>
      let s := ((s.setFld F.TIM_STATUS_PARENT 0 l).setFld F.TIM_STATUS_PARENT_VALID 0 1).setFld F.TIM_STATUS_DEPTH 0 depth
      s.sourceFound 1
    | _ => (s.setFld F.TIM_STATUS_PARENT_VALID 0 0).sourceLost 2

/-! ## Lanes, R209 and R216 -/

/-- A lane starts training again with its light present: it has signal, and times run from now. -/
def State.laneTrain (s : State) (l : Nat) : State :=
  if s.laneState l = laneDark ∨ s.laneState l = laneFailed then s
  else (s.setFld F.LNK_LANE_STATUS_STATE l laneSignal).updLane l fun x =>
    { x with lightAt := some s.up, fecAt := none, ident := [], identCount := 0, delay := none, echoes := 0, echoSent := none }

/-! ## Routing entries of link slots -/

/-- Do the routing entries of slice entry e name a link slot? -/
def State.entryNames (s : State) (e n : Nat) : Bool :=
  ((List.range 6).any fun d => bits (s.fld F.RTE_SLICE_HOP_HOP e) (6 * d) 6 == n + 32) ||
    ((List.range 8).any fun i =>
      s.flag F.RTE_SLICE_PEER_VALID (8 * e + i) && !s.flag F.RTE_SLICE_PEER_VIA (8 * e + i) &&
        s.fld F.RTE_SLICE_PEER_LINK (8 * e + i) == n)

/-- Set STATE of RTE_LINK: 0 closed, 1 open, 2 closing. -/
def State.routeState (s : State) (n v : Nat) : State := s.setFld F.RTE_LINK_STATE n v

/-- Code CLOSING. -/
def codeClosing : Nat := 0x0E

/-- The slots whose slices' routing entries name a link slot. -/
def State.usersOf (s : State) (n : Nat) : List Nat :=
  (List.range 56).filter fun k => s.flag F.SEQ_SLOT_CFG_ACTIVE k && match s.entryOf (s.fld F.SEQ_SLOT_CFG_SLICE_ID k) with
    | some e => s.entryNames e n
    | none => false

/-- The close that follows faults the running frames of the slices that use a link slot (R217). -/
def State.markUsers (s : State) (n : Nat) : State :=
  (s.usersOf n).foldl (fun s k => s.updSlot k fun v =>
    { v with linkDue := if v.linkDue.contains n then v.linkDue else v.linkDue ++ [n] }) s

/-- A link has drained: no request through it is outstanding and its replay buffer is empty, or MMU_TIMEOUT has passed
since a time (R231). -/
def State.linkDrained (s : State) (n since : Nat) : Bool :=
  (decide (s.up ≥ since + s.fld F.MMU_TIMEOUT_LIMIT * 100 * ns)) ||
    ((s.link n).replay.isEmpty && !(s.remotes.any fun r => r.link == some n) &&
      !(s.movers.any fun e => e.2.reqs.any fun r => r.link == some n))

/-! ## Retrains, R217 to R219 -/

/-- Causes of Table 8.8. -/
def causeAudit : Nat := 1
/-- ERRORS. -/
def causeErrors : Nat := 2
/-- COMMAND. -/
def causeCommand : Nat := 3
/-- PEER. -/
def causePeer : Nat := 4
/-- DARK. -/
def causeDark : Nat := 5
/-- DEADLINE. -/
def causeDeadline : Nat := 6
/-- PATH. -/
def causePath : Nat := 7

/-- Initial credits per lane group, Table 8.5. -/
def initialCredits (v : Nat) : Nat :=
  match v with
  | 0 => 512
  | 1 => 1024
  | 2 => 1024
  | _ => 64

/-- The receiving side at a retrain: frames of incomplete packets are discarded, and the first sequence number discarded
is expected next (R218). -/
def Link.receiverRestart (l : Link) : Link :=
  let e := (List.range 4).foldl (fun e v =>
    if (l.buffered.get v).isEmpty then e
    else if signed 24 (l.heldSeq.get v + 2 ^ 24 - e) < 0 then l.heldSeq.get v else e) l.expect
  { l with expect := e, buffered := .all [], heldSeq := .all 0, hold := [], gapSince := none, nakAt := none
           recv := .all 0, freed := .all 0, returned := .all 0, granted := .all 0 }

/-- The sending side at a retrain: sequence numbers and the replay buffer are kept, credits and counts restart. -/
def Link.senderRestart (l : Link) : Link :=
  { l with sent := .all 0, credRecv := .all 0, credHand := .all 0, retSeen := .all 0, creditIn := false, creditOut := false
           peerLeft := false, auditDue := false }

/-- Lies the link logic of a link in a field that is out of service? Such a link stays DOWN (R193). -/
def State.linkFenced (s : State) (n : Nat) : Bool := s.fld F.MSH_FLD_STATE_STATE (linkField n) == 2

/-- A link that carries only MGMT packets, R212. -/
def State.mgmtOnly (s : State) (n : Nat) : Bool := s.linkState n == linkMiswired || s.linkState n == linkQuarantined

/-- Training of a link begins: its lanes train. The first light is there already where one of them has light (R209). -/
def State.beginTraining (s : State) (n st : Nat) : State :=
  let s := ((s.setFld F.LNK_LINK_STATUS_STATE n st).setFld F.LNK_LINK_STATUS_LANES n 0).setFld F.LNK_LINK_STATUS_SWAPPED n 0
  let lit := (s.lanesOf n).any fun l => s.laneState l != laneDark
  let s := s.updLink n fun l => { l.receiverRestart.senderRestart with litAt := if lit then some s.up else none }
  (s.lanesOf n).foldl State.laneTrain s

/-- A RETRAIN frame with its cause on every lane of a link (R218). -/
def State.sendRetrain (s : State) (n : Nat) : State :=
  let cause := s.fld F.LNK_LINK_CAUSE_LAST n
  (s.lanesOf n).foldl (fun s l => s.sendOnLane n l 7 [BitVec.ofNat 8 cause, 0]) s

/-- A link retrains for a cause: counted and recorded, its entries closing, and for every cause but PATH the frames
faulted at the close that follows (R217). RETRAIN frames go to the peer. MISWIRED and QUARANTINED last until the path changes (R212). -/
def State.retrain (s : State) (n cause : Nat) : State :=
  if s.linkFenced n ∨ (s.mgmtOnly n ∧ cause ≠ causePath ∧ !(s.link n).pathClosing) then s
  else
    let cause := if (s.link n).pathClosing then causePath else cause
    let s := (s.bump .LNK_LINK_RETRAIN n).setFld F.LNK_LINK_CAUSE_LAST n cause
    let s := s.log 0x08 0x5002 n (cause + linkRetraining * 16)
    let s := ((s.sendRetrain n).beginTraining n linkRetraining).routeState n 2
    let s := if cause = causePath then s else s.markUsers n
    s.reparent

/-- A link goes DOWN for a cause: its entries fault with LINK_DOWN. -/
def State.linkGoesDown (s : State) (n cause : Nat) : State :=
  let s := ((s.setFld F.LNK_LINK_STATUS_STATE n linkDown).setFld F.LNK_LINK_STATUS_LANES n 0).setFld F.LNK_LINK_CAUSE_LAST n cause
  let s := (s.updLink n fun l => { l with pathClosing := false, failures := 0 }).routeState n 0
  (s.log 0x08 0x5002 n (cause + linkDown * 16)).reparent

/-! ## Lanes that leave, R216 -/

/-- A lane's bit in LANES of its link. -/
def laneBit (l : Nat) : Nat := l % 32

/-- A lane leaves its link at once; a link that loses all its lanes retrains with cause DARK. -/
def State.laneOut (s : State) (l : Nat) : State :=
  match s.linkOfLane l with
  | none => s
  | some n =>
    let was := s.fld F.LNK_LINK_STATUS_LANES n
    if !bitOf was (laneBit l) then s
    else
      let s := s.setFld F.LNK_LINK_STATUS_LANES n (setBits was (laneBit l) 1 0)
      if s.fld F.LNK_LINK_STATUS_LANES n = 0 ∧ s.linkState n = linkUp then s.retrain n causeDark else s

/-- A lane loses its light: it leaves its link and is dark. -/
def State.laneGoesDark (s : State) (l : Nat) : State :=
  let s := (s.setFld F.LNK_LANE_STATUS_STATE l laneDark).updLane l fun x =>
    { x with lightAt := none, fecAt := none, ident := [], identCount := 0, delay := none, echoes := 0, echoSent := none }
  s.laneOut l

/-- A lane leaves its link and trains alone. -/
def State.laneRetrains (s : State) (l : Nat) : State := (s.laneTrain l).laneOut l

/-- A lane fails, recorded with the identity code. -/
def State.laneFails (s : State) (l code : Nat) : State :=
  ((s.setFld F.LNK_LANE_STATUS_STATE l laneFailed).log 0x08 0x5001 l code).laneOut l

/-- Has a lane gone through the phases of Table 8.6 up to the measurement of its delay: identified, with 16 round trips measured? -/
def State.laneReady (s : State) (l : Nat) : Bool := s.laneState l == laneIdentified && decide (16 ≤ (s.lane l).echoes)

/-- The least delay measured among the lanes of a link. -/
def State.leastDelay (s : State) (n : Nat) : Nat :=
  match (s.lanesOf n).filterMap fun l => (s.lane l).delay with
  | [] => 0
  | d :: ds => ds.foldl min d

/-- A lane that is ready becomes active in its link, unless its delay exceeds that of the fastest lane by more than 100 ns: then it is
EXCLUDED (R199). -/
def State.admitLane (s : State) (n l : Nat) : State :=
  if (s.lane l).delay.getD 0 > s.leastDelay n + 100 then s.setFld F.LNK_LANE_STATUS_STATE l laneExcluded
  else (s.setFld F.LNK_LANE_STATUS_STATE l laneActive).setFld F.LNK_LINK_STATUS_LANES n
    (s.fld F.LNK_LINK_STATUS_LANES n ||| 2 ^ laneBit l)

/-- Lanes that are ready join their link, in state UP, at the tick (R216). -/
def State.joinLanes (s : State) : State :=
  (List.range 192).foldl (fun s l =>
    if s.laneReady l then
      match s.linkOfLane l with
      | some n => if s.linkState n = linkUp then s.admitLane n l else s
      | none => s
    else s) s

end Sys2Proof.Machine
end

