-- ==== Sys2Proof/Machine/Servo.lean ====
section
/-!
DEFINITION. Sys2Proof/Machine/Servo.lean: the mirror servo of chapter 10: axes and mirrors (R247), the engine's step at a
tick (R249 to R251, R260), gain sets (R252), profiles and rests (R256, R257, R262), windows (R258, R259), the supply
(R263) and the failure of paths (R261).
-/
namespace Sys2Proof.Machine

/-! ## Axes -/

/-- An axis. -/
def State.axis (s : State) (a : Nat) : Axis := mapGet (fun _ => Axis.init) s.axes a

/-- Change an axis. -/
def State.updAxis (s : State) (a : Nat) (g : Axis → Axis) : State :=
  { s with axes := mapSet (fun _ => Axis.init) a (g (s.axis a)) s.axes }

/-- States of SRV_AXIS. -/
def axisResting : Nat := 0
/-- Moving. -/
def axisMoving : Nat := 1
/-- Settled. -/
def axisSettled : Nat := 2
/-- Lost. -/
def axisLost : Nat := 3
/-- Resting after a fault. -/
def axisFaultRest : Nat := 4
/-- Failed. -/
def axisFailed : Nat := 5

/-- STATE of an axis. -/
def State.axisState (s : State) (a : Nat) : Nat := s.fld F.SRV_AXIS_STATE a

/-- Does an axis rest: no drive and no closed loop (R254)? -/
def Axis.rests (x : Axis) : Bool := !x.loop && x.restAt.isNone

/-- The axes of a path on a physical input and an output, R247. -/
def pathAxes (i o : Nat) : List Nat := [2 * i, 2 * i + 1, 960 + 2 * o, 961 + 2 * o]

/-- Gain set of a tick period: the last whose range begins at or below it (Table 10.3). -/
def gainSet (p : Nat) : Nat :=
  ([4238, 4757, 5340, 5994, 6728, 7551, 8476, 9514, 10679, 11987, 13455, 15102].filter fun lo => decide (lo ≤ p)).length

/-! ## Profiles, R256 and R257 -/

/-- One millisecond of machine time. -/
def msec : Nat := 1000000 * ns

/-- A square root rounded up. -/
def ceilSqrt (x : Nat) : Nat := let r := isqrt x; if r * r < x then r + 1 else r

/-- T_axis of a swing in units of 0.5 µrad, in ns, rounded up: the larger of 0.30 ms and √(2π|Δ| ÷ α_max). -/
def axisTime (d : Int) : Nat := max 300000 (ceilSqrt (ceilDiv (d.natAbs * 1427996660722633) (10 ^ 8)))

/-- The profile time of a set of swings: the largest, rounded up to whole ticks, in machine time. -/
def profileTime (period : Nat) (ds : List Int) : Nat :=
  ceilDiv (ds.foldl (fun t d => max t (axisTime d)) 0) period * period * ns

/-- A profile from the present angle to a goal. The runs of ticks that Table 10.4 counts go on. -/
def Axis.plan (x : Axis) (now dur : Nat) (goal : Int) : Axis :=
  { x with start := x.th, goal := goal, profAt := now, profFor := dur, loop := true, restAt := none, restFor := 0, restOpen := false
           dwell := 0, away := 0 }

/-- A closed-loop rest: a profile to angle zero, then a ramp of the drive over 0.5 ms (R257). DESIGN CHOICE (log entry 119): each resting axis
has a profile time T of its own. -/
def Axis.restClosed (x : Axis) (now period : Nat) : Axis :=
  if x.loop then
    let dur := profileTime period [x.th]
    { x.plan now dur 0 with restAt := some (now + dur), restFor := msec / 2 }
  else x

/-- An open-loop rest: the drive ramps to zero over 2 ms (R262). -/
def Axis.openRest (x : Axis) (now : Nat) : Axis :=
  { x with loop := false, goal := 0, restAt := some now, restFor := 2 * msec, restFrom := x.drive, restOpen := true }

/-- Does an axis hold code 0x1 or 0x5, which only SRV_AXIS.CLEAR and a deck reset end (Table 10.4)? -/
def State.axisHeld (s : State) (a : Nat) : Bool := s.fld F.SRV_AXIS_FAULT a == 1 || s.fld F.SRV_AXIS_FAULT a == 5

/-- A mirror rests: its axes, closed-loop or open-loop, toward angle zero. An axis whose loop is open rests on as it does where no other
rest is asked of it. -/
def State.restMirror (s : State) (m : Nat) (isOpen : Bool) (st : Nat) : State :=
  [2 * m, 2 * m + 1].foldl (fun s a =>
    if (s.axis a).rests ∨ (s.axisHeld a ∧ !(s.axis a).loop ∧ s.axisState a = axisFaultRest) then s
    else
      let s := s.updAxis a fun x => if isOpen then x.openRest s.deck.clock else x.restClosed s.deck.clock s.deck.period
      (s.setFld F.SRV_AXIS_TARGET a 0).setFld F.SRV_AXIS_STATE a st) s

/-! ## Paths as registers -/

/-- TYPE of a path by its ends, Table 9.2: LAUNCH, LAND, PASS or LOOP. -/
def pathType (i o : Nat) : Nat :=
  if i < 192 then (if o < 192 then 4 else 1) else (if o < 192 then 2 else 3)

/-- Face of a trunk index. -/
def faceOf (x : Nat) : Nat := (x - 192) / 48

/-- The physical input that a path's INPUT names, R225. -/
def State.physInput (s : State) (i : Nat) : Nat :=
  if i < 192 then i else 192 + 48 * faceOf i + s.fld F.DCK_FACE_MAP_PHYS (48 * faceOf i + (i - 192) % 48)

/-- Does an output hold a path? -/
def State.hasPath (s : State) (o : Nat) : Bool := s.fld F.DCK_PATH_TYPE o != 0

/-- INPUT of an output's path. -/
def State.pathInput (s : State) (o : Nat) : Nat := s.fld F.DCK_PATH_INPUT o

/-- The outputs that hold a path, ascending. -/
def State.paths (s : State) : List Nat := (List.range 480).filter s.hasPath

/-- The axes of an output's path. -/
def State.axesOfPath (s : State) (o : Nat) : List Nat := pathAxes (s.physInput (s.pathInput o)) o

/-- The output whose path uses an axis. -/
def State.pathOfAxis (s : State) (a : Nat) : Option Nat := s.paths.find? fun o => (s.axesOfPath o).contains a

/-- What a tap reads in whose light went out: some power below −20.0 dBm, in 0.01 dBm (R228). -/
def State.darkReading (s : State) : Nat := unsigned 16 (-2001 - ((Config.darkPower s.free % 30768 : Nat) : Int))

/-- Set an input's tap, R228. -/
def State.tapIn (s : State) (i : Nat) (p : BitVec 16) : State :=
  (s.setFld F.DCK_TAP_IN_POWER i p.toNat).setFld F.DCK_TAP_IN_PRESENT i (bit (decide (-2000 ≤ p.toInt)))

/-- Set an output's tap. -/
def State.tapOut (s : State) (o : Nat) (p : BitVec 16) : State :=
  (s.setFld F.DCK_TAP_OUT_POWER o p.toNat).setFld F.DCK_TAP_OUT_PRESENT o (bit (decide (-2000 ≤ p.toInt)))

/-- An input's tap sees no light. -/
def State.tapInDark (s : State) (i : Nat) : State :=
  let s := (s.setFld F.DCK_TAP_IN_POWER i s.darkReading).setFld F.DCK_TAP_IN_PRESENT i 0
  { s with free := s.free + 1 }

/-- An output's tap sees no light. -/
def State.tapOutDark (s : State) (o : Nat) : State :=
  let s := (s.setFld F.DCK_TAP_OUT_POWER o s.darkReading).setFld F.DCK_TAP_OUT_PRESENT o 0
  { s with free := s.free + 1 }

/-- The light of an output goes out, at its tap too (R228); a receiver's lane goes dark. -/
def State.lightOut (s : State) (o : Nat) : State :=
  let s := if s.flag F.DCK_TAP_OUT_PRESENT o then s.tapOutDark o else s
  let s := s.setFld F.DCK_PATH_LIGHT o 0
  if o < 192 ∧ s.laneState o ≠ laneDark then s.laneGoesDark o else s

/-- The transmitter of a lane goes dark: its input's tap, and the output of the path that takes it (R228). -/
def State.laneUnlit (s : State) (l : Nat) : State :=
  let s := if s.flag F.DCK_TAP_IN_PRESENT l then s.tapInDark l else s
  (s.paths.filter fun o => s.pathInput o == l).foldl State.lightOut s

/-- No optical engine carries light until a run of group 3 is judged (R381). -/
def State.lasersDark (s : State) : Bool :=
  s.cal.laser.isSome || match s.cal.run with
    | some r => r.groups.contains 3
    | none => false

/-- The transmitter of a lane carries light, where its engine and its field are in service: its input's tap sees it, and the output's of a
settled path that leads it to a trunk fibre (R228). -/
def State.laneLit (s : State) (l : Nat) : State :=
  if s.lasersDark ∨ (s.lane l).engineOut ∨ s.laneFenced l ∨ s.flag F.DCK_TAP_IN_PRESENT l then s
  else
    let p : Int := ((Config.lightPower s.free % 34768 : Nat) : Int) - 2000
    let q := BitVec.ofInt 16 (max (-32768) (p - Config.lightLoss s.free))
    let s : State := { s.tapIn l (BitVec.ofInt 16 p) with free := s.free + 1 }
    (s.paths.filter fun o => s.pathInput o == l && decide (192 ≤ o) && s.fld F.DCK_PATH_STATE o == 2).foldl (fun s o =>
      (s.tapOut o q).setFld F.DCK_PATH_LIGHT o (bit (decide (-2000 ≤ q.toInt)))) s

/-- Every transmitter that may carries light. -/
def State.lasersOn (s : State) : State := (List.range 192).foldl State.laneLit s

/-- FAULTED of SRV_STATUS counts the axes that hold a code; SERVO_FAULT of DCK_STATUS shows any of them or a supply or
engine fault (R261). -/
def State.setFaulted (s : State) : State :=
  let n := ((List.range 1920).filter fun a => s.fld F.SRV_AXIS_FAULT a != 0).length
  let s := s.setFld F.SRV_STATUS_FAULTED 0 n
  s.setFld F.DCK_STATUS_SERVO_FAULT 0
    (bit (n != 0 || s.fld F.SRV_STATUS_SUPPLY == 2 || s.flag F.SRV_STATUS_ENGINE))

/-- Give the axes of new paths one profile; codes 0x2 to 0x4 of their axes clear (Table 10.4). A path on a mirror whose
axis holds code 0x1 or 0x5 fails at once and its mirrors do not move (R262). -/
def State.movePaths (s : State) (outs : List Nat) : State :=
  let bad := outs.filter fun o => (s.axesOfPath o).any s.axisHeld
  let good := outs.filter fun o => !(bad.contains o)
  let target := fun (s : State) (o k : Nat) => Config.alignment (s.physInput (s.pathInput o)) o k
  let swings := (good.map fun o => (s.axesOfPath o).mapIdx fun k a => target s o k - (s.axis a).th).flatten
  let dur := profileTime s.deck.period swings
  let s := bad.foldl (fun s o => s.setFld F.DCK_PATH_STATE o 3) s
  let s := good.foldl (fun s o =>
    let s := s.setFld F.DCK_PATH_STATE o 1
    let s := (List.range 4).foldl (fun s k =>
      let a := (s.axesOfPath o).getD k 0
      let g := target s o k
      let s := s.updAxis a fun x => x.plan s.deck.clock dur g
      ((s.setFld F.SRV_AXIS_TARGET a (unsigned 20 g)).setFld F.SRV_AXIS_STATE a axisMoving).setFld F.SRV_AXIS_FAULT a 0) s
    { s with deck := { s.deck with moves := mapIns o ⟨s.deck.clock, false⟩ s.deck.moves } }) s
  s.setFaulted

/-! ## Failures, R261 -/

/-- Count and record a fault of an axis. -/
def State.servoFaultNote (s : State) (a code : Nat) : State := (s.bump .SRV_FAULT_CNT).log 0x0A 0x6003 a code

/-- A path fails: its mirrors rest, the one whose axis faulted open-loop for code 0x1 or 0x5 and the others closed-loop;
the path keeps its place in the table. -/
def State.failPath (s : State) (o a code : Nat) : State :=
  let i := s.physInput (s.pathInput o)
  let openAxis := code == 1 || code == 5
  let s := (s.setFld F.DCK_PATH_STATE o 3).setFld F.SRV_AXIS_FAULT a code
  let s := { s with deck := { s.deck with moves := mapDel o s.deck.moves } }
  let s := s.restMirror i (openAxis && a / 2 == i) axisFaultRest
  let s := s.restMirror (480 + o) (openAxis && a / 2 == 480 + o) axisFaultRest
  ((s.servoFaultNote a code).lightOut o).setFaulted

/-- Every mirror rests open-loop and every path fails (codes 0x6 and 0x7); a service is asked for. -/
def State.failAll (s : State) (code : Nat) : State :=
  let s := s.paths.foldl (fun s o => (s.setFld F.DCK_PATH_STATE o 3).lightOut o) s
  let s := (List.range 960).foldl (fun s m => s.restMirror m true axisFaultRest) s
  let s := { s with deck := { s.deck with moves := [] } }
  ((s.servoFaultNote 0 code).service 6).setFaulted

/-! ## The arithmetic of the servo -/

/-- A quotient in the servo's number format: exact where it is a whole number, and otherwise one of the two beside it (log entry 8). -/
def quotient (place : Nat) (n : Int) (d : Nat) : Int :=
  n / d + (if n % d = 0 then 0 else if Config.roundUp place n d then 1 else 0)

/-- A value in the engine's 32-bit fixed point; what does not fit is a free value (R249). -/
def fix32 (place : Nat) (x : Int) : Int :=
  if -(2 : Int) ^ 31 ≤ x ∧ x < 2 ^ 31 then x else signed 32 (Config.servoOverflow place x).toNat

/-- One in the fixed point of the sine: 2⁶². -/
def sineOne : Nat := 2 ^ 62

/-- The terms of the sine's series from the k-th on, for x and x² in the fixed point of `sineOne`. -/
def sineTerms (x2 : Nat) : Nat → Nat → Int → Int
  | 0, _, _ => 0
  | fuel + 1, k, term => term + sineTerms x2 fuel (k + 1) (-(term * x2 / ((sineOne * ((2 * k + 2) * (2 * k + 3)) : Nat) : Int)))

/-- The sine of num ÷ den of a quarter turn, num at most den. -/
def sineQuarter (num den : Nat) : Int :=
  let x := num * 7244019458077122842 / den
  sineTerms (x * x / sineOne) 13 0 x

/-- The sine of num ÷ den of a turn. -/
def sineTurn (num den : Nat) : Int :=
  let n := 4 * num % (4 * den)
  let r := n % den
  match n / den with
  | 0 => sineQuarter r den
  | 1 => sineQuarter (den - r) den
  | 2 => -sineQuarter r den
  | _ => -sineQuarter (den - r) den

/-- The cosine of num ÷ den of a turn. -/
def cosineTurn (num den : Nat) : Int := sineTurn (4 * num + den) (4 * den)

/-- The cycloid of R256 from `a` to `b` over T at a time t: angle (0), rate (1) and acceleration (2), in units of 0.5 µrad and
seconds. -/
def cycloid (k : Nat) (a b : Int) (T t : Nat) : Int :=
  let d := b - a
  match k with
  | 0 => a + quotient 0 (d * ((t * sineOne / T : Nat) - sineTurn t T * 733972625820500306 / (sineOne : Nat))) sineOne
  | 1 => quotient 1 (d * (sineOne - cosineTurn t T) * (second : Nat)) (T * sineOne)
  | _ => quotient 2 (d * (sineTurn t T * 28976077832308491370 / (sineOne : Nat)) * ((second * second : Nat) : Int)) (T * T * sineOne)

/-- The drive of a ramp at a time after its beginning: falling evenly (R257; DESIGN CHOICE, log entry 119), or along a raised cosine (R262). -/
def rampDrive (raised : Bool) (from_ : Int) (dur t : Nat) : Int :=
  if raised then quotient 3 (from_ * (sineOne + cosineTurn t (2 * dur))) (2 * sineOne)
  else quotient 3 (from_ * ((dur - t : Nat) : Int)) dur

/-! ## The servo's tick, Table 10.2 -/

/-- The planner's reference angle, rate and acceleration. -/
def Axis.reference (x : Axis) (now : Nat) (k : Nat) : Int :=
  if now < x.profAt + x.profFor then fix32 k (cycloid k x.start x.goal x.profFor (now - x.profAt))
  else if k = 0 then x.goal else 0

/-- Row r of the matrix of a gain set and an axis: the observer's three rows, and the row of b_cmd with the feedback, the model's spring
and damping along the planned path, the disturbance and the acceleration (R250). -/
def matrixRow (set a r : Nat) : List Int :=
  let k := Config.servoGain set a
  let one : Int := (2 ^ Config.servoFraction : Nat)
  (if r < 3 then (List.range 8).map (Config.servoObserver set a r)
  else [-k 0, -k 1, -one, 0, 0, k 0 + Config.axisModel a 0, k 1 + Config.axisModel a 1, one]).map (fix32 11)

/-- The exact product of a row with z. -/
def rowTimes (row z : List Int) : Int := (List.zipWith (· * ·) row z).foldl (· + ·) 0

/-- Row r of the product of R250, in the engine's accumulator of 64 bits (R249). -/
def engineSum (set a r : Nat) (z : List Int) : Int := signed 64 (unsigned 64 (rowTimes (matrixRow set a r) z))

/-- The fifth row: the column sum of the other four (R250). -/
def checkRow (set a : Nat) : List Int :=
  (List.range 8).map fun j => ((List.range 4).map fun r => (matrixRow set a r).getD j 0).foldl (· + ·) 0

/-- The check of R260: chk equals the sum of the other four outputs modulo 2⁶⁴. `slip` is the error that an upset adds to chk. -/
def checkHolds (set a : Nat) (z : List Int) (slip : BitVec 64) : Bool :=
  unsigned 64 (rowTimes (checkRow set a) z + slip.toNat) ==
    unsigned 64 (((List.range 4).map fun r => engineSum set a r z).foldl (· + ·) 0)

/-- Row r of the product in the engine's 32-bit fixed point. -/
def engineRow (set a r : Nat) (z : List Int) : Int := fix32 (4 + r) (quotient (4 + r) (engineSum set a r z) (2 ^ Config.servoFraction))

/-- The drive for a commanded torque at a supply in 0.01 V: b_cmd × (200 ÷ v)² ÷ b_max, in units of 2⁻¹⁷ (R250). -/
def driveFor (a : Nat) (b : Int) (volts : Nat) : Int :=
  let d := volts * volts * Config.axisModel a 2
  if d = 0 then Config.servoDrive a b else quotient 8 (b * ((20000 * 20000 * 131072 : Nat) : Int)) d

/-- The drive clipped to −1 … +1, in units of 2⁻¹⁷ (R250). DESIGN CHOICE (log entry 119): in 18 bits +1 is 131,071. -/
def clipDrive (u : Int) : Int := max (-131072) (min 131071 u)

/-- The torque that a drive applies: u × b_max × (v ÷ 200)² (R250, R251). -/
def torqueOf (a : Nat) (u : Int) (volts : Nat) : Int :=
  fix32 9 (quotient 9 (u * ((Config.axisModel a 2 * volts * volts : Nat) : Int)) (131072 * 20000 * 20000))

/-- Windows of SRV_CFG in units of 0.5 µrad. -/
structure Windows where
  settle : Nat
  lost : Nat
deriving DecidableEq, Repr

/-- The windows' counts of an axis at a tick (R258, R259); a failed check counts as outside. -/
def Axis.windows (x : Axis) (w : Windows) (now : Nat) (missed : Bool) : Axis :=
  let err := (x.th - x.goal).natAbs
  let ended := decide (x.profAt + x.profFor ≤ now)
  { x with dwell := if !missed && ended && decide (err ≤ w.settle) then x.dwell + 1 else 0
           away := if missed || decide (err > w.lost) then x.away + 1 else 0 }

/-- The eight inputs z of the engine for a sample, R250. -/
def Axis.inputs (x : Axis) (now : Nat) (y : Int) : List Int :=
  [x.th, x.om, x.dist, x.torque, y, x.reference now 0, x.reference now 1, x.reference now 2]

/-- A sample is taken; one at full scale or more than 200 µrad from the predicted angle is bad (R261). DESIGN CHOICE (log entry 119): full
scale is either end of the 20-bit sample. -/
def Axis.take (x : Axis) (y : Int) : Axis :=
  let bad := decide (y ≥ 524287) || decide (y ≤ -524288) || decide ((y - x.th).natAbs > 400)
  { x with sample := y, bad := if bad then x.bad + 1 else 0 }

/-- The ramp of a rest begins: the loop opens, and the drive that remains is where it begins (R257). -/
def Axis.beginRamp (x : Axis) (now : Nat) : Axis :=
  match x.restAt with
  | some t => if x.loop ∧ t ≤ now then { x with loop := false, restFrom := x.drive } else x
  | none => x

/-- The drive of an axis without a loop: the ramp of its rest, and zero once it is over (R254, R257, R262). -/
def Axis.ramp (x : Axis) (now : Nat) : Axis :=
  match x.restAt with
  | some t =>
    if now ≥ t + x.restFor then { x with drive := 0, restAt := none, restFor := 0, restFrom := 0, restOpen := false }
    else { x with drive := rampDrive x.restOpen x.restFrom x.restFor (now - t) }
  | none => { x with drive := 0 }

/-- The engine's step of one axis (R249 to R251): the estimate, and the drive of the next tick, from the row of b_cmd where its loop is
closed. An axis that fails its check keeps its drive and its state (R260). DESIGN CHOICE (log entry 119): such a tick neither counts in a run
of clipped ticks nor ends it, and shows CLIPPED 0. -/
def Axis.engine (x : Axis) (set a now volts : Nat) (w : Windows) (y : Int) (slip : BitVec 64) : Axis :=
  let x := (x.take y).beginRamp now
  let z := x.inputs now y
  if !checkHolds set a z slip then { x with miss := x.miss + 1 }.windows w now true
  else
    let u := driveFor a (engineRow set a 3 z) volts
    let e := { x with th := engineRow set a 0 z, om := engineRow set a 1 z, dist := engineRow set a 2 z, miss := 0 }
    let e := if x.loop then { e with drive := clipDrive u, clip := if u = clipDrive u then 0 else x.clip + 1 }
             else { e.ramp now with clip := 0 }
    { e with torque := torqueOf a e.drive volts }.windows w now false

/-- Does the check of R260 fail at a sample? -/
def State.sampleFails (s : State) (p : AxisSample) : Bool :=
  let x := ((s.axis p.axis).take p.angle.toInt).beginRamp s.deck.clock
  !checkHolds (s.fld F.SRV_STATUS_SET) p.axis (x.inputs s.deck.clock p.angle.toInt) p.slip

/-- STATE of an axis after a tick: resting or failed once it rests, settled once it has dwelt (R258). -/
def State.axisNext (s : State) (a : Nat) (x : Axis) : Nat :=
  let st := s.axisState a
  let dwell := ceilDiv (s.fld F.SRV_CFG_DWELL_US * 10000) s.deck.period
  if x.rests then (if st = axisFaultRest ∨ st = axisFailed then axisFailed else axisResting)
  else if x.restAt.isNone ∧ (st = axisMoving ∨ st = axisLost) ∧ x.dwell ≥ dwell then axisSettled
  else st

/-- What the drive converter of an axis takes for a drive: corrected by the gain and offset trims in force (group 1 of Table 16.1, R253). A resting axis has no drive. -/
def State.converterOf (s : State) (a : Nat) (u : Int) : Int :=
  if (s.axis a).rests then 0
  else
  let t := mapGet (fun _ => 0) s.cal.dacs (1 + a)
  u + quotient 12 (u * (signed 10 (bits t 0 10) * Config.trimStep 1 0) + 131072 * (signed 10 (bits t 10 10) * Config.trimStep 1 1)) (10 ^ 8)

/-- One axis at a tick: its converter takes the drive of the tick before, and the engine computes the next. One without a sample of its own reads as it did. -/
def State.axisTick (volts : Nat) (samples : List AxisSample) (s : State) (a : Nat) : State :=
  let x := s.axis a
  let w : Windows := { settle := 2 * s.fld F.SRV_CFG_SETTLE_WIN, lost := 2 * s.fld F.SRV_CFG_LOST_WIN }
  let (y, slip) := match samples.find? fun p => p.axis.val == a with
    | some p => (p.angle.toInt, p.slip)
    | none => (x.sample, 0)
  let x' := x.engine (s.fld F.SRV_STATUS_SET) a s.deck.clock volts w y slip
  let clipped := x'.loop && x'.clip != 0 && x'.miss == 0
  let s := if x'.miss != 0 then s.bump .SRV_ENG_MISS else s
  let s := if clipped then s.bump .SRV_SAT_CNT else s
  let st := s.axisNext a x'
  let s := s.updAxis a fun _ => { x' with taken := s.converterOf a x.drive }
  ((s.setFld F.SRV_AXIS_ANGLE a (unsigned 20 x'.th)).setFld F.SRV_AXIS_STATE a st).setFld F.SRV_AXIS_CLIPPED a (bit clipped)

/-- The supply at a tick, R263: SUPPLY and the counts that fault SUPPLY and its recovery rest on. -/
def State.supplyTick (s : State) (volts : Nat) : State :=
  let s := s.setFld F.SRV_HV_VOLTS 0 volts
  let normal := decide (18000 ≤ volts) && decide (volts ≤ 22000)
  let wild := decide (volts < 17000) || decide (volts > 23000)
  let s := { s with deck := { s.deck with supplyBad := if wild then s.deck.supplyBad + 1 else 0
                                          supplyGood := if normal then s.deck.supplyGood + 1 else 0 } }
  match s.fld F.SRV_STATUS_SUPPLY, normal with
  | 0, false => (s.setFld F.SRV_STATUS_SUPPLY 0 1).log 0x0A 0x6004 0 (volts + 2 ^ 16)
  | 1, true => s.setFld F.SRV_STATUS_SUPPLY 0 0
  | _, _ => s

/-- The supply as sampled, with the gain correction of the trim in force (group 0 of Table 16.1, R253). -/
def State.supplyOf (s : State) (volts : Nat) : Nat :=
  (volts + quotient 10 (volts * (signed 12 (mapGet (fun _ => 0) s.cal.dacs 0) * Config.trimStep 0 0)) (10 ^ 8)).toNat

/-- The axes that a tick can change: those that are not at rest at zero, and those with a sample. An axis at rest at zero whose sample is
zero stays as it is, since the engine's product of zeros is zero. -/
def State.axesDue (s : State) (samples : List AxisSample) : List Nat :=
  samples.foldl (fun known p => if known.contains p.axis.val then known else known ++ [p.axis.val]) (s.axes.map (·.1))

/-- SERVO_UPDATE: at every tick the servo samples every axis, updates its observer, checks the result and computes the
drive of the next tick (R249, R250). While the deck is DETACHED the gain set stays (R252, R255). -/
def State.servoTick (s : State) (raw : Nat) (samples : List AxisSample) : State :=
  let s := if s.flag F.DCK_STATUS_DETACHED then s else s.setFld F.SRV_STATUS_SET 0 (gainSet s.deck.period)
  let volts := s.supplyOf raw
  let s := s.supplyTick volts
  let missed := (samples.filter s.sampleFails).length
  let fails := (s.deck.clock :: s.deck.engineFails).filter fun t => decide (s.deck.clock < t + second)
  let s := if missed > 64 then { s with deck := { s.deck with engineFails := fails } } else s
  (s.axesDue samples).foldl (State.axisTick volts samples) s

end Sys2Proof.Machine
end

