-- ==== Sys2Proof/Machine/Deck.lean ====
section
/-!
DEFINITION. Sys2Proof/Machine/Deck.lean: the commands of the light deck (chapter 9) and of its servo (chapter 10): path
sets (R229 to R234), swap corrections (R235, R236), parking (R238, R239), detachment (R241), the deck's resets (R242,
R253), and the servo's faults (R259, R261 to R263).
-/
namespace Sys2Proof.Machine

/-! ## Named ticks, R288 and R290 -/

/-- Is a machine time that of a tick of the period in force? -/
def State.isTick (s : State) (t : Nat) : Bool :=
  let d := signed 64 (t + 2 ^ 64 - s.rd .FTK_ANCHOR)
  decide (0 ≤ d) && d.toNat % (s.period * ns) == 0

/-- States of DCK_STATUS. -/
def deckEmpty : Nat := 0
/-- Running. -/
def deckRunning : Nat := 1
/-- Moving. -/
def deckMoving : Nat := 2
/-- Parking. -/
def deckParking : Nat := 3
/-- Parked. -/
def deckParked : Nat := 4
/-- Unparking. -/
def deckUnparking : Nat := 5

/-- STATE of the deck. -/
def State.deckState (s : State) : Nat := s.fld F.DCK_STATUS_STATE

/-- Change the deck's own state. -/
def State.updDeck (s : State) (g : Deck → Deck) : State := { s with deck := g s.deck }

/-- PATHS of DCK_STATUS. -/
def State.countPaths (s : State) : State := s.setFld F.DCK_STATUS_PATHS 0 s.paths.length

/-! ## Path command entries, Table 9.4 -/

/-- OUTPUT of an entry. -/
def entryOut (e : Nat) : Nat := bits e 0 9
/-- INPUT of an entry. -/
def entryIn (e : Nat) : Nat := bits e 9 9
/-- OP of an entry: 0 CONNECT, 1 RELEASE. -/
def entryOp (e : Nat) : Nat := bits e 18 2

/-- The first COUNT entries of DCK_CMD_BUF. -/
def State.cmdEntries (s : State) (n : Nat) : List Nat := (List.range n).map fun i => s.rd .DCK_CMD_BUF i

/-- Is the face of a trunk input or output without a plan? -/
def State.noPlan (s : State) (x : Nat) : Bool := decide (192 ≤ x) && !s.flag F.DCK_FACE_PLAN_VALID (faceOf x)

/-- Would an entry make a trunk path while the coordinates lie outside the machine (R267)? -/
def State.trunkBarred (s : State) (o i : Nat) : Bool := (decide (192 ≤ o) || decide (192 ≤ i)) && !s.flag F.RTE_COORD_VALID

/-- The code of Table 9.5 of one entry of a set, judged in the order of the codes; 0 for none. `pre` are the entries
before it. -/
def State.entryCode (s : State) (es pre : List Nat) (e : Nat) : Nat :=
  let o := entryOut e
  let i := entryIn e
  let connect := entryOp e == 0
  if entryOp e > 1 ∨ bits e 21 11 ≠ 0 then 1
  else if o > 479 ∨ i > 479 then 2
  else if connect && ((pre.any fun x => entryOp x == 0 && entryIn x == i) ||
      s.paths.any fun p => s.pathInput p == i && !(es.any fun x => entryOut x == p)) then 3
  else if pre.any fun x => entryOut x == o then 4
  else if !(bitOf e 20) && (s.fld F.DCK_PATH_TYPE o == 3 || (connect && pathType i o == 3)) then 5
  else if s.noPlan o || (connect && (s.noPlan i || s.trunkBarred o i)) then 8
  else 0

/-- The first entry at fault, with its code. -/
def State.firstFault (s : State) (es : List Nat) : List Nat → List Nat → Nat → Option (Nat × Nat)
  | _, [], _ => none
  | pre, e :: rest, k =>
    match s.entryCode es pre e with
    | 0 => s.firstFault es (pre ++ [e]) rest (k + 1)
    | c => some (c, k)

/-- Result and entry of a whole set (R230): the codes of the set as a whole come first. -/
def State.setCode (s : State) (count : Nat) : Nat × Nat :=
  let t := s.rd .DCK_CMD_TIME
  let d := timeDiff t s.now
  let lo := s.fld F.MMU_TIMEOUT_LIMIT * 100 + s.period
  if count = 0 ∨ count > 480 then (2, 0)
  else if (s.deckState ≠ deckEmpty ∧ s.deckState ≠ deckRunning) ∨ s.flag F.DCK_CMD_CTRL_BUSY ∨
      s.flag F.DCK_STATUS_DETACHED then (6, 0)
  else if t ≠ 0 ∧ (!s.isTick t ∨ d < (lo * ns : Nat) ∨ d > (second : Nat)) then (7, 0)
  else
    let es := s.cmdEntries count
    (s.firstFault es [] es 0).getD (0, 0)

/-- Local lanes at the ends of the paths that an entry removes, replaces or makes (R231). -/
def State.entryLanes (s : State) (e : Nat) : List Nat :=
  let o := entryOut e
  let old := if s.hasPath o then [s.pathInput o, o] else []
  let new := if entryOp e = 0 then [entryIn e, o] else []
  (old ++ new).filter fun x => decide (x < 192)

/-- Link slots that hold one of some lanes, ascending; a lane on LOOP counts with the slot that has its group (R237). -/
def State.linksOfLanes (s : State) (ls : List Nat) : List Nat :=
  (List.range 24).filter fun n => ls.any fun l => s.slotOfLane l == some n

/-- The link slots affected by a set close: their entries are marked closing and their users fault at each close (R231). -/
def State.closeLinks (s : State) (ns : List Nat) : State :=
  ns.foldl (fun s n => (if s.fld F.RTE_LINK_STATE n = 1 then s.routeState n 2 else s).updLink n fun l =>
    { l with pathClosing := true }) s

/-- A write of DCK_CMD_CTRL with START = 1: the whole set is checked, and refused whole or accepted (R230, R231). -/
def State.deckStart (s : State) (count : Nat) : State :=
  let s := s.setFld F.DCK_CMD_CTRL_COUNT 0 count
  let (code, k) := s.setCode count
  let s := (s.setFld F.DCK_CMD_CTRL_RESULT 0 code).setFld F.DCK_CMD_CTRL_ENTRY 0 k
  if code ≠ 0 then s.bump .DCK_REJECT_CNT
  else
    let es := s.cmdEntries count
    let links := s.linksOfLanes (es.map s.entryLanes).flatten
    let new : DeckSet := { entries := es, startTick := s.rd .DCK_CMD_TIME, acceptedAt := s.up, links := links
                           begun := false, unpark := false }
    let s := s.updDeck fun d => { d with set := some new }
    ((s.setFld F.DCK_CMD_CTRL_BUSY 0 1).setFld F.DCK_CMD_CTRL_DRAINED 0 (bit links.isEmpty)).closeLinks links

/-- PATH_SET_START: START of DCK_CMD_CTRL checks a set of path commands and, if accepted, closes the affected link slots,
R230. -/
def execPathSetStart (count : BitVec 9) (s : State) : Res := .next (s.deckStart count.toNat)

/-! ## The start tick, R232 -/

/-- Have all the links of the set drained? -/
def State.setDrained (s : State) (d : DeckSet) : Bool := d.links.all fun n => s.linkDrained n d.acceptedAt

/-- Codes 0x2 to 0x4 of the axes of a path that a set replaces or releases clear; an axis that rests is no longer failed (Table 10.4). -/
def State.clearAxis (s : State) (a : Nat) : State :=
  if s.axisHeld a then s
  else
    let s := s.setFld F.SRV_AXIS_FAULT a 0
    if s.axisState a = axisFailed then s.setFld F.SRV_AXIS_STATE a axisResting else s

/-- A path is removed: its light goes out and its mirrors rest unless a new path takes them. -/
def State.removePath (s : State) (o : Nat) : State :=
  if !s.hasPath o then s
  else
    let i := s.physInput (s.pathInput o)
    let s := s.lightOut o
    let s := (s.axesOfPath o).foldl State.clearAxis s
    let s := (s.restMirror i false axisMoving).restMirror (480 + o) false axisMoving
    let s := s.updDeck fun d => { d with moves := mapDel o d.moves }
    s.wr .DCK_PATH o 0

/-- A new path enters the table. -/
def State.addPath (s : State) (e : Nat) : State :=
  let o := entryOut e
  (s.wr .DCK_PATH o 0).setFld F.DCK_PATH_INPUT o (entryIn e) |>.setFld F.DCK_PATH_TYPE o (pathType (entryIn e) o)

/-- Every path of the set has settled or failed: BUSY clears (R233). A path that is lost again has settled before, and a path that a swap
correction re-steers is none of the set's. -/
def State.deckIdle (s : State) : State :=
  match s.deck.set with
  | some d =>
    if d.begun ∧ s.deck.moves.all (fun m => m.2.lost || !((d.entries.map entryOut).contains m.1)) then
      let s := s.updDeck fun k => { k with set := none }
      (s.setFld F.DCK_CMD_CTRL_BUSY 0 0).setFld F.DCK_STATUS_STATE 0 deckRunning
    else s
  | none => s

/-- The start tick of a set: affected links retrain with cause PATH, old paths go, and new paths move. The matrices are computed before the
deck leaves empty (R253). -/
def State.beginSet (s : State) (d : DeckSet) : State :=
  let s := (s.updDeck fun k => { k with set := some { d with begun := true } }).setFld F.SRV_STATUS_READY 0 1
  let s := s.setFld F.DCK_CMD_CTRL_DRAINED 0 1
  let news := d.entries.filter fun e => entryOp e == 0
  let s := d.links.foldl (fun s n => if s.linkState n = linkDisabled then s else s.retrain n causePath) s
  let s := if d.unpark then s else
    news.foldl State.addPath (d.entries.foldl (fun s e => s.removePath (entryOut e)) s)
  let s := s.setFld F.DCK_STATUS_STATE 0 (if d.unpark then deckUnparking else deckMoving)
  ((s.movePaths (news.map entryOut)).countPaths).deckIdle

/-- Does a run of groups 0 to 2 go on? An unpark waits for its end (Table 16.4). -/
def State.deckCalRun (s : State) : Bool :=
  match s.cal.run with
  | some r => r.groups.any fun g => decide (g ≤ 2)
  | none => false

/-- SET_START_TICK: at the named tick, or the first tick after the drain, the deck removes old paths and moves the mirrors
of new ones, R232. Groups 0 to 2 are judged before STATE leaves empty (R381). -/
def execSetStartTick (s : State) : Res :=
  match s.deck.set with
  | some d =>
    let due := if d.startTick = 0 then s.setDrained d else s.passed d.startTick
    if d.begun ∨ !due ∨ (s.deckState = deckEmpty ∧ s.deckCalRun) then .next s else .next (s.beginSet d)
  | none => .next s

/-! ## Settling, R228 and R258 -/

/-- A path has settled; its traversal loss is taken. -/
def State.pathSettled (s : State) (o : Nat) (pin pout : BitVec 16) : State :=
  let s := (s.tapIn (s.physInput (s.pathInput o)) pin).tapOut o pout
  let s := (s.setFld F.DCK_PATH_STATE o 2).setFld F.DCK_PATH_LIGHT o (bit (decide (-2000 ≤ pout.toInt)))
  let s := s.updDeck fun d => { d with moves := mapDel o d.moves }
  let loss := pin.toInt - pout.toInt
  let s :=
    if loss > 200 then ((s.setFld F.DCK_PATH_LOSSY o 1).bump .DCK_LOSSY_CNT).log 0x09 0x6001 o (unsigned 16 loss)
    else s.setFld F.DCK_PATH_LOSSY o 0
  s.deckIdle

/-- PATH_SETTLED: the last axis of a path dwells in its window and the path becomes settled, R258. The operands are the
powers at its input and output taps, in 0.01 dBm. -/
def execPathSettled (o : Fin 480) (pin pout : BitVec 16) (s : State) : Res :=
  if s.fld F.DCK_PATH_STATE o = 1 ∧ (s.axesOfPath o).all (fun a => s.axisState a == axisSettled) then
    .next (s.pathSettled o pin pout)
  else .next s

/-! ## Swapped fibres, R235 and R236 -/

/-- Does a path of type PASS use a physical pair of a face? -/
def State.passOnPair (s : State) (face pair : Nat) : Bool :=
  s.paths.any fun o => s.fld F.DCK_PATH_TYPE o == 3 && s.physInput (s.pathInput o) == 192 + 48 * face + pair

/-- Physical pair of a logical pair. -/
def State.physPair (s : State) (face q : Nat) : Nat := s.fld F.DCK_FACE_MAP_PHYS (48 * face + q)

/-- Can the deck re-steer pairs p and q of a face? -/
def State.canSwap (s : State) (face p q : Nat) : Bool :=
  !s.passOnPair face (s.physPair face p) && !s.passOnPair face (s.physPair face q)

/-- The correction of a swap is counted at the link of the lane that reported it (R210, R235). -/
def State.countSwap (s : State) (l : Nat) : State :=
  match s.linkOfLane l with
  | some n => (s.setFld F.LNK_LINK_STATUS_SWAPPED n 1).bump .LNK_LINK_SWAP n
  | none => s

/-- Exchange the face-map entries of two logical pairs, mark both corrected, and re-steer the paths that use them; lane l reported the
swap. -/
def State.swapNow (s : State) (l face p q : Nat) : State :=
  let s := s.countSwap l
  let pp := s.physPair face p
  let pq := s.physPair face q
  let outs := s.paths.filter fun o =>
    s.pathInput o == 192 + 48 * face + p || s.pathInput o == 192 + 48 * face + q
  let set := fun (s : State) (l ph : Nat) =>
    (s.setFld F.DCK_FACE_MAP_PHYS (48 * face + l) ph).setFld F.DCK_FACE_MAP_CORRECTED (48 * face + l) 1
  let s := (outs.map fun o => s.physInput (s.pathInput o)).foldl (fun s i => s.restMirror i false axisMoving) s
  let s := set (set s p pq) q pp
  let s := outs.foldl State.lightOut s
  ((s.movePaths outs).bump .DCK_SWAP_CNT).log 0x09 0x5004 0 (face + p * 2 ^ 3 + q * 2 ^ 9)

/-- Does the running set move a path of one of two logical pairs of a face: one that it makes, replaces or removes? -/
def State.setMovesPair (s : State) (face p q : Nat) : Bool :=
  match s.deck.set with
  | none => false
  | some d =>
    let ours := fun (i : Nat) => i == 192 + 48 * face + p || i == 192 + 48 * face + q
    d.entries.any fun e => (entryOp e == 0 && ours (entryIn e)) || (s.hasPath (entryOut e) && ours (s.pathInput (entryOut e)))

/-- Is a correction of two pairs of a face waiting already? The two lanes of one swap report it both. -/
def Deck.awaitsSwap (d : Deck) (face p q : Nat) : Bool :=
  d.swaps.any fun w => w.2.1 == face && ((w.2.2.1 == p && w.2.2.2 == q) || (w.2.2.1 == q && w.2.2.2 == p))

/-- A swap correction that a lane's identity calls for: at once, or after a running set that moves one of its paths has settled (Table
9.6). -/
def State.swapPairs (s : State) (l face p q : Nat) : State :=
  if s.deck.awaitsSwap face p q then s
  else if s.setMovesPair face p q then s.updDeck fun d => { d with swaps := d.swaps ++ [(l, face, p, q)] }
  else s.swapNow l face p q

/-- The deck cannot re-steer: the lane takes state FAILED under code 0x3 and the face map is left unchanged (R236). -/
def State.swapFails (s : State) (l : Nat) : State :=
  let s := match s.linkOfLane l with
    | some n => s.setFld F.LNK_LINK_CAUSE_IDCHK n 3
    | none => s
  s.laneFails l 3

/-- Corrections whose set has settled; the pairs are judged again, since the set may have put a PASS path on one. -/
def State.swapsDue (s : State) : State :=
  let (wait, due) := s.deck.swaps.partition fun w => s.setMovesPair w.2.1 w.2.2.1 w.2.2.2
  due.foldl (fun s w => if s.canSwap w.2.1 w.2.2.1 w.2.2.2 then s.swapNow w.1 w.2.1 w.2.2.1 w.2.2.2 else s.swapFails w.1)
    (s.updDeck fun d => { d with swaps := wait })

/-! ## Parking, R238 and R239 -/

/-- Enabled link slots. -/
def State.enabledLinks (s : State) : List Nat := (List.range 24).filter fun n => s.flag F.LNK_LINK_CFG_ENABLE n

/-- PARK = 1: every link slot closes and drains; parking begins after BUSY clears (Table 9.6). -/
def State.parkOn (s : State) : State :=
  let s := s.setFld F.DCK_CTRL_PARK 0 1
  if s.deckState = deckParking ∨ s.deckState = deckParked ∨ s.deck.parkAt.isSome then s
  else (s.updDeck fun d => { d with parkAt := some s.up }).closeLinks s.enabledLinks

/-- PARK = 0: a parked deck is unparking, its kept table one set whose start tick is the next tick (R239). DESIGN CHOICE (log entry 118): while
the park still drains, PARK = 0 withdraws it and leaves the links that it marked closing. -/
def State.parkOff (s : State) : State :=
  let s := (s.setFld F.DCK_CTRL_PARK 0 0).updDeck fun d => { d with parkAt := none }
  if s.deckState ≠ deckParked then s
  else
    let es := s.paths.map fun o => o + s.pathInput o * 2 ^ 9
    let kept : DeckSet := { entries := es, startTick := s.time.next, acceptedAt := s.up, links := s.enabledLinks
                            begun := false, unpark := true }
    let s := s.updDeck fun d => { d with set := some kept }
    (s.setFld F.DCK_STATUS_STATE 0 deckUnparking).setFld F.DCK_CMD_CTRL_BUSY 0 1

/-- PARK: a write of PARK = 1, R238. -/
def execPark (s : State) : Res := .next s.parkOn

/-- PARK = 0 during a run of groups 0 to 2 waits until the run is judged and applied (Table 16.4). -/
def State.unpark (s : State) : State := if s.deckCalRun then { s with cal := { s.cal with unpark := true } } else s.parkOff

/-- UNPARK: a write of PARK = 0 to a parked deck restores the kept paths from the next tick, R239. -/
def execUnpark (s : State) : Res := .next s.unpark

/-- Every path is removed and the mirrors come to rest; the table is kept. -/
def State.parkDeck (s : State) : State :=
  let s := s.paths.foldl (fun s o =>
    let i := s.physInput (s.pathInput o)
    let s := if s.fld F.DCK_PATH_STATE o = 3 then s else s.setFld F.DCK_PATH_STATE o 0
    ((s.lightOut o).restMirror i false axisMoving).restMirror (480 + o) false axisMoving) s
  let s := s.updDeck fun d => { d with parkAt := none, moves := [] }
  s.setFld F.DCK_STATUS_STATE 0 deckParking

/-- PARKING: at the first tick after the drain every path is removed and the mirrors come to rest, R238. -/
def execParking (s : State) : Res :=
  match s.deck.parkAt with
  | some t =>
    if !s.flag F.DCK_CMD_CTRL_BUSY ∧ s.enabledLinks.all (fun n => s.linkDrained n t) then .next s.parkDeck else .next s
  | none => .next s

/-- DECK_PARKED: every mirror rests and the deck state becomes parked, R238. -/
def execDeckParked (s : State) : Res :=
  if s.deckState = deckParking ∧ s.axes.all (fun a => a.2.rests) then
    .next (s.setFld F.DCK_STATUS_STATE 0 deckParked)
  else .next s

/-! ## Reset of the deck, R242 -/

/-- Registers of a block. -/
def regsOf (b : Block) : List Reg := Reg.all.filter fun r => decide (r.block = b)

/-- Put every register of a block back to its reset value. -/
def State.resetBlock (s : State) (b : Block) : State :=
  let lo := fun (r : Reg) => r.code * 65536
  { s with regs := s.regs.filter fun e => !((regsOf b).any fun r => decide (lo r ≤ e.1) && decide (e.1 < lo r + 65536)) }

/-- A deck reset: path table, face maps and plans are cleared, every mirror rests, the deck is empty; it loads the staged
firmware (R243), and computes its matrices again before READY (R253). Every lane loses its light; the calibration that follows is
`State.deckRestart`. -/
def State.deckReset (s : State) : State :=
  let staged := s.fld F.DCK_FW_STAGED
  let s := (List.range 192).foldl (fun s o => if s.laneState o ≠ laneDark then s.laneGoesDark o else s) s
  let s := (s.resetBlock .DCK).resetBlock .SRV
  let s := (s.setFld F.DCK_FW_RUN 0 staged).setFld F.DCK_FW_STAGED 0 staged
  let s := (s.setFld F.SRV_STATUS_SET 0 (gainSet s.period)).setFld F.SRV_STATUS_READY 0 1
  { s with deck := Deck.init, axes := [] }.serviceOver 6

/-! ## Ticks lost and found, R241 -/

/-- DETACHED: ticks absent for 2 periods make the deck run its servo from its own oscillator, R241. -/
def execDetached (s : State) : Res :=
  if s.flag F.DCK_STATUS_DETACHED then .next s
  else .next ((s.setFld F.DCK_STATUS_DETACHED 0 1).log 0x09 0x6005 0 1)

/-- TICKS_RETURN: returning ticks make the deck realign within 16 ticks and clear DETACHED, R241. -/
def execTicksReturn (s : State) : Res :=
  if s.flag F.DCK_STATUS_DETACHED ∧ s.deck.realign = 0 then .next (s.updDeck fun d => { d with realign := 16 })
  else .next s

/-- The realignment at a tick. -/
def State.realignTick (s : State) : State :=
  match s.deck.realign with
  | 0 => s
  | 1 => ((s.updDeck fun d => { d with realign := 0 }).setFld F.DCK_STATUS_DETACHED 0 0).log 0x09 0x6005 0 0
  | n + 1 => s.updDeck fun d => { d with realign := n }

/-! ## The servo's losses and faults, R259 to R263 -/

/-- A settled axis of a path is lost, counted and recorded. Its path, if it had settled, is moving again within the bound of 4 ms; one that
moves already keeps its bound. -/
def State.loseAxis (s : State) (o a : Nat) : State :=
  let x := s.axis a
  let s := (s.setFld F.SRV_AXIS_STATE a axisLost).updAxis a fun x => { x with dwell := 0 }
  let s := (s.bump .SRV_LOST_CNT).log 0x0A 0x6002 a (unsigned 20 (x.th - x.goal).natAbs)
  if s.fld F.DCK_PATH_STATE o = 2 then
    (s.setFld F.DCK_PATH_STATE o 1).updDeck fun d => { d with moves := mapIns o ⟨s.deck.clock, true⟩ d.moves }
  else s

/-- AXIS_LOST: a settled axis outside LOST_WIN at 4 consecutive ticks puts its path back to moving, R259. -/
def execAxisLost (a : Fin 1920) (s : State) : Res :=
  match s.pathOfAxis a with
  | some o =>
    if s.axisState a = axisSettled ∧ (s.axis a).away ≥ 4 then .next (s.loseAxis o a) else .next s
  | none => .next s

/-- Does the condition of Table 10.4 for a code hold at an axis that does not hold the code already? -/
def State.servoCondition (s : State) (a code : Nat) : Bool :=
  let x := s.axis a
  let new := s.fld F.SRV_AXIS_FAULT a != code
  let move : Option PathMove := match s.pathOfAxis a with
    | some o => (s.deck.moves.find? fun m => m.1 == o).map (·.2)
    | none => none
  match code with
  | 1 => new && decide (x.bad ≥ 4)
  | 2 => new && decide (x.clip ≥ 64)
  | 3 => match move with
    | some m => !m.lost && decide (s.deck.clock ≥ m.since + 4 * msec)
    | none => false
  | 4 => match move with
    | some m => m.lost && decide (s.deck.clock ≥ m.since + 4 * msec)
    | none => false
  | 5 => new && decide (x.miss ≥ 3)
  | 6 => decide (s.deck.supplyBad ≥ 4) && s.fld F.SRV_STATUS_SUPPLY != 2
  | 7 => decide (s.deck.engineFails.length ≥ 3) && !s.flag F.SRV_STATUS_ENGINE
  | _ => false

/-- A fault of Table 10.4 with its response. -/
def State.servoFault (s : State) (a code : Nat) : State :=
  if code = 6 then
    let s := (s.setFld F.SRV_STATUS_SUPPLY 0 2).log 0x0A 0x6004 0 (s.fld F.SRV_HV_VOLTS + 2 ^ 17)
    (s.failAll 6).deckIdle
  else if code = 7 then ((s.setFld F.SRV_STATUS_ENGINE 0 1).failAll 7).deckIdle
  else match s.pathOfAxis a with
    | some o => (s.failPath o a code).deckIdle
    | none =>
      let s := s.setFld F.SRV_AXIS_FAULT a code
      let s := if (s.axis a).rests then s.setFld F.SRV_AXIS_STATE a axisFailed else s.restMirror (a / 2) true axisFaultRest
      (s.servoFaultNote a code).setFaulted

/-- SERVO_FAULT: a servo fault condition of Table 10.4 is met and the affected mirrors rest and paths fail, R261. -/
def execServoFault (a : Fin 1920) (code : Fin 8) (s : State) : Res :=
  if s.servoCondition a code then .next (s.servoFault a code) else .next s

/-- SUPPLY_RECOVERED: the supply back within 180 to 220 V for 1,024 ticks clears fault SUPPLY, R261. -/
def execSupplyRecovered (s : State) : Res :=
  if s.fld F.SRV_STATUS_SUPPLY = 2 ∧ s.deck.supplyGood ≥ 1024 then
    .next ((((s.setFld F.SRV_STATUS_SUPPLY 0 0).serviceOver 6).log 0x0A 0x6004 0 (s.fld F.SRV_HV_VOLTS)).setFaulted)
  else .next s

/-- A write of SRV_AXIS with CLEAR = 1: code 0x1 or 0x5 of a resting axis clears; otherwise ignored and recorded. -/
def State.axisClear (s : State) (a v : Nat) : State :=
  let c := s.fld F.SRV_AXIS_FAULT a
  if (c = 1 ∨ c = 5) ∧ (s.axis a).rests then
    ((s.setFld F.SRV_AXIS_FAULT a 0).setFld F.SRV_AXIS_STATE a axisResting).setFaulted
  else s.refuse .SRV_AXIS a v

/-- AXIS_CLEAR: SRV_AXIS.CLEAR clears code 0x1 or 0x5 on a resting axis, R261. -/
def execAxisClear (a : Fin 1920) (s : State) : Res := .next (s.axisClear a (2 ^ 47))

/-! ## At a tick -/

/-- What the deck does at a tick beside the servo: DRAINED, corrections that waited, and a realignment. -/
def State.deckTick (s : State) : State :=
  let s := match s.deck.set with
    | some d => if d.begun then s else s.setFld F.DCK_CMD_CTRL_DRAINED 0 (bit (s.setDrained d))
    | none => s
  s.swapsDue.realignTick

end Sys2Proof.Machine
end

