-- ==== Sys2Proof/Machine/Links.lean ====
section
/-!
DEFINITION. Sys2Proof/Machine/Links.lean: the commands of the link protocol (chapter 8): frames received (R197 to R208),
the credit audit (R213 to R215), training (R209 to R212), lane loss (R216), retrains (R217 to R219) and optical engines
(R244).
-/
namespace Sys2Proof.Machine

/-! ## Acknowledgements and returns, R204 and R207 -/

/-- Signed difference of two sequence numbers, R199. -/
def seqDiff (a b : Nat) : Int := signed 24 (a + 2 ^ 24 - b % 2 ^ 24)

/-- Take the return value of a VC: credits grow by its difference from the last value accepted. -/
def Link.takeRet (l : Link) (v ret : Nat) : Link :=
  let d := signed 16 (ret + 2 ^ 16 - l.retSeen.get v % 2 ^ 16)
  if d ≤ 0 then l
  else { l with retSeen := l.retSeen.upd v fun _ => ret
                credRecv := l.credRecv.upd v (· + d.toNat), credHand := l.credHand.upd v (· + d.toNat) }

/-- Take the ACK and the returns of a frame. -/
def Link.takeHeader (l : Link) (f : LinkFrame) : Link :=
  let l := { l with replay := l.replay.filter fun e => decide (0 ≤ seqDiff e.seq f.ack.toNat) }
  (((l.takeRet 0 f.ret0.toNat).takeRet 1 f.ret1.toNat).takeRet 2 f.ret2.toNat).takeRet 3 f.ret3.toNat

/-- Take the header of a frame and send what it lets be sent. -/
def State.takeHeader (s : State) (n : Nat) (f : LinkFrame) : State := (s.updLink n fun l => l.takeHeader f).pump n

/-- A discarded frame counts as a lost sequenced frame: a gap is open (R198, R207). -/
def State.frameLost (s : State) (n : Nat) : State :=
  s.updLink n fun l => { l with gapSince := some (l.gapSince.getD s.up) }

/-! ## Sequenced frames, R207 -/

/-- A buffer of a VC is freed and its credit returned. -/
def Link.free (l : Link) (v k : Nat) : Link :=
  { l with freed := l.freed.upd v (· + k), returned := l.returned.upd v fun r => (r + k) % 2 ^ 16 }

/-- A whole packet of a VC: delivered to its field, or dropped and counted (R201, R212); its buffers are freed. -/
def State.deliver (s : State) (n v : Nat) (fs : List TxFrame) : State :=
  let s := s.updLink n fun l => l.free v fs.length
  match parsePacket (fs.map (·.payload)).flatten with
  | some p =>
    if vcOf p.ptype.toNat ≠ v ∨ (s.mgmtOnly n ∧ p.ptype.toNat ≠ 8) then s.bump .LNK_LINK_PDROP n
    else s.emit (.packet p)
  | none => s.bump .LNK_LINK_PDROP n

/-- An audit failure retrains the link, but where a path command closes it the path's training replaces the retrain (Table 8.9). -/
def State.auditRetrain (s : State) (n : Nat) : State := if (s.link n).pathClosing then s else s.retrain n causeAudit

/-- A failed equation of the audit on a VC: counted, and recorded with the VC and the equation; 0 for a frame without a free buffer, which
is a failure of the same kind (R215). -/
def State.auditFailure (s : State) (n v equation : Nat) : State :=
  (s.bump .LNK_LINK_AUDIT n).log 0x08 0x5003 n (v + equation * 4)

/-- A DATA frame taken in order. Without a free buffer it is discarded and counted, an audit failure (R215). -/
def State.takeData (s : State) (n : Nat) (f : LinkFrame) : State :=
  let v := f.vc.toNat
  let l := s.link n
  if l.granted.get v + l.freed.get v ≤ l.recv.get v then
    ((s.bump .LNK_LINK_PDROP n).auditFailure n v 0).auditRetrain n
  else
    let t : TxFrame := { vc := v, sop := f.sop, eop := f.eop, payload := f.payload.take f.len.toNat, slice := 0, ident := none }
    let first := (l.buffered.get v).isEmpty
    let fs := l.buffered.get v ++ [t]
    let s := s.updLink n fun l =>
      { l with expect := (l.expect + 1) % 2 ^ 24, recv := l.recv.upd v (· + 1)
               heldSeq := if first then l.heldSeq.upd v fun _ => f.seq.toNat else l.heldSeq
               buffered := l.buffered.upd v fun _ => if f.eop then [] else fs }
    if f.eop then s.deliver n v fs else s

/-! ## The credit audit, R213 to R215 -/

/-- The equations of R214 that fail on a VC, with the sender's counts S, C and A. -/
def Link.auditFails (l : Link) (v sv cv av : Nat) : List Nat :=
  let m := 2 ^ 32
  let b := (l.buffered.get v).length
  let r := l.recv.get v
  let ret := l.freed.get v
  let e1 := r % m == sv
  let e2 := (av + sv + m - cv) % m == l.granted.get v % m
  let e3 := (b + l.freed.get v) % m == r % m
  let e4 := decide (0 ≤ signed 32 (ret + m - cv)) && decide (0 ≤ signed 32 (l.freed.get v + m - ret % m))
  ([(1, e1), (2, e2), (3, e3), (4, e4)].filter fun e => !e.2).map (·.1)

/-- The audit check of a receiver: each failed equation is counted and recorded, and any retrains the link. -/
def State.auditCheck (s : State) (n : Nat) (payload : List Byte) : State :=
  let l := s.link n
  let bad := ((List.range 4).map fun v =>
    (l.auditFails v (leAt payload (16 * v) 4) (leAt payload (16 * v + 4) 4) (leAt payload (16 * v + 8) 2)).map fun e =>
      (v, e)).flatten
  let s := bad.foldl (fun s b => s.auditFailure n b.1 b.2) s
  if bad.isEmpty then s else s.auditRetrain n

/-- A sequenced frame taken in order. -/
def State.takeSeq (s : State) (n : Nat) (f : LinkFrame) : State :=
  if f.kind.toNat = 3 then
    (s.updLink n fun l => { l with expect := (l.expect + 1) % 2 ^ 24 }).auditCheck n f.payload
  else s.takeData n f

/-- Take the frames held out of order that follow. -/
def State.drainHold (s : State) (n : Nat) : Nat → State
  | 0 => s
  | fuel + 1 =>
    let l := s.link n
    match l.hold.find? fun f => f.seq.toNat == l.expect with
    | some f => ((s.updLink n fun l => { l with hold := l.hold.filter fun g => g.seq != f.seq }).takeSeq n f).drainHold n fuel
    | none => s

/-- A sequenced frame arrives: the expected one is taken with those that follow; an earlier one is a repeat; a later one is
held until the gap closes, and discarded once a NAK has been sent (R207). -/
def State.sequenced (s : State) (n : Nat) (f : LinkFrame) : State :=
  let s := s.takeHeader n f
  let l := s.link n
  let d := seqDiff f.seq.toNat l.expect
  if s.linkState n = linkDown ∨ s.linkState n = linkDisabled ∨ d < 0 then s
  else if d = 0 then
    let s := (s.updLink n fun l => { l with gapSince := none, nakAt := none }).takeSeq n f
    let s := s.drainHold n (s.link n).hold.length
    let s := s.updLink n fun l => if l.hold.isEmpty then l else { l with gapSince := some s.up }
    s.pump n
  else if l.nakAt.isSome then s
  else (s.updLink n fun l => { l with hold := l.hold ++ [f] }).frameLost n

/-- DATA_FRAME: a DATA link frame is received, checked, ordered by SEQ and buffered toward its packet, R207. -/
def execDataFrame (n : Fin 24) (f : LinkFrame) (s : State) : Res :=
  if frameOk f ∧ f.kind = 1 then .next (s.sequenced n f) else .next (s.frameLost n)

/-- AUDIT_FRAME: an AUDIT frame taken in order makes the receiver check the four credit equations per VC, R214. -/
def execAuditFrame (n : Fin 24) (f : LinkFrame) (s : State) : Res :=
  if frameOk f ∧ f.kind = 3 then .next (s.sequenced n f) else .next (s.frameLost n)

/-- IDLE_FRAME: an IDLE link frame is received and its ACK and credit returns are taken, R198. -/
def execIdleFrame (n : Fin 24) (f : LinkFrame) (s : State) : Res :=
  if frameOk f ∧ f.kind = 0 then .next (s.takeHeader n f) else .next (s.frameLost n)

/-! ## Retransmission, R207 and R208 -/

/-- Does a link send a kept frame again: a MISWIRED or QUARANTINED one only those of VC 3 (R212)? -/
def State.resends (s : State) (n : Nat) (e : SentFrame) : Bool := !s.mgmtOnly n || e.kind != 1 || e.frame.vc == 3

/-- Resend every unacknowledged frame, in order; a frame resent 8 times retrains the link with cause ERRORS. DESIGN CHOICE (log entry 117): a
retrain leaves a frame's count of resends as it is, and frames that a MISWIRED or QUARANTINED link may not send stay kept. -/
def State.resendAll (s : State) (n : Nat) : State :=
  let kept := (s.link n).replay.map fun e => if s.resends n e then { e with resent := e.resent + 1 } else e
  let again := kept.filter (s.resends n)
  let s := (s.updLink n fun l => { l with replay := kept }).bump .LNK_LINK_RETX n again.length
  let s := again.foldl (fun s e => s.sendFrame n ((s.link n).frame e.kind e.frame.vc e.seq e.frame.sop e.frame.eop e.frame.payload)) s
  if again.any fun e => decide (e.resent ≥ 8) then s.retrain n causeErrors else s

/-- NAK_FRAME: a NAK frame makes the sender resend every unacknowledged frame from the named SEQ, R207. -/
def execNakFrame (n : Fin 24) (f : LinkFrame) (s : State) : Res :=
  if frameOk f ∧ f.kind = 2 then .next ((s.updLink n fun l => l.takeHeader f).resendAll n) else .next (s.frameLost n)

/-- NAK_GAP_TIMEOUT: a sequence gap that stays open 200 ns, or each further 1 µs, makes the receiver send NAK and discard
the frames it held, R207. -/
def execNakGapTimeout (n : Fin 24) (s : State) : Res :=
  match (s.link n).gapSince with
  | some _ => .next ((s.updLink n fun l => { l with nakAt := some s.up, hold := [] }).sendPlain n 2 [])
  | none => .next s

/-! ## Training, R209 to R212 -/

/-- The identity that the deck expects of the light at a lane's receiver: module, face and pair (R210, R224). An express
pair's far end is not the neighbour of the plan. -/
def State.expected (s : State) (l : Nat) : Option (Nat × Nat × Nat) :=
  let i := s.pathInput l
  if s.fld F.DCK_PATH_TYPE l ≠ 2 then none
  else
    let q := (i - 192) % 48
    if q < 32 then some (s.fld F.DCK_FACE_PLAN_PEER (faceOf i), s.fld F.DCK_FACE_PLAN_PEER_FACE (faceOf i), q)
    else
      let w := Config.expressPeer s.free (faceOf i) q
      some (w % 16384, w / 16384 % 8, q)

/-- IDENT payload, R209. -/
structure Ident where
  module : Nat
  face : Nat
  pair : Nat
  lane : Nat
  version : Nat
  slot : Nat
  mask : Nat
  clean : Bool
deriving DecidableEq, Repr

/-- Read an IDENT payload. -/
def Ident.ofBytes (p : List Byte) : Ident :=
  { module := bits (leAt p 0 2) 0 14, face := leAt p 2 1, pair := leAt p 3 1, lane := leAt p 4 1
    version := leAt p 5 1, slot := leAt p 6 1, mask := leAt p 7 1
    clean := bits (leAt p 0 2) 14 2 == 0 && ((p.drop 8).all fun b => b == 0) }

/-- The finding of Table 8.7. -/
def State.identCode (s : State) (l : Nat) (x : Ident) : Nat :=
  match s.expected l with
  | none => 0
  | some (m, face, pair) =>
    if !x.clean then 8
    else if x.module ≠ m then 5
    else if x.face ≠ face then 4
    else if x.version < s.fld F.LNK_VERSION_LOW ∨ x.version > s.fld F.LNK_VERSION_HIGH then 6
    else if x.pair = pair then 1
    else if x.pair < 48 ∧ s.canSwap (faceOf (s.pathInput l)) x.pair pair then 2
    else 3

/-- A lane restarts training; after 3 restarts it fails (R209). -/
def State.laneRestart (s : State) (l code : Nat) : State :=
  if s.fld F.LNK_LANE_STATUS_RESTARTS l ≥ 3 then s.laneFails l code
  else (s.setFld F.LNK_LANE_STATUS_RESTARTS l (s.fld F.LNK_LANE_STATUS_RESTARTS l + 1)).laneRetrains l

/-- The credits that this end grants on a VC: none on VCs 0 to 2 of a link that carries only MGMT packets (R202, R212). -/
def State.creditsOn (s : State) (n v : Nat) : Nat := if s.mgmtOnly n && v < 3 then 0 else initialCredits v * s.groupCount n

/-- CREDIT_INIT goes to the peer, once in a training: the grants of every VC, and the ACK from which the peer resends (R202, R218). -/
def State.sendCredits (s : State) (n : Nat) : State :=
  if (s.link n).creditOut then s
  else
    let g := s.creditsOn n
    let s := s.updLink n fun l => { l with creditOut := true, granted := ⟨g 0, g 1, g 2, g 3⟩ }
    let f := (s.link n).frame 6 0 0 false false (Config.packetBody 16 [g 0, g 1, g 2, g 3])
    let s := s.emit (.creditInit n f (g 0) (g 1) (g 2) (g 3))
    match (s.carriers n).head? with
    | some l => s.onLane l f
    | none => s

/-- A link is isolated: MISWIRED or QUARANTINED, its entries closed; it grants credits on VC 3 only (R212). -/
def State.isolate (s : State) (n l st : Nat) (x : Ident) : State :=
  let s := ((s.setFld F.LNK_LINK_STATUS_STATE n st).routeState n 0).setFld F.LNK_LINK_STATUS_PEER n x.module
  let s := (s.updLink n fun k => { k.receiverRestart.senderRestart with pathClosing := false }).log 0x08 0x5005 n (st + x.module * 2 ^ 3 + x.version * 2 ^ 17)
  ((s.setFld F.LNK_LANE_STATUS_STATE l laneIdentified).sendCredits n).reparent

/-- An ECHO on a lane: this end's time, the peer's last time as it came, and how long it stayed here in ns (R209). -/
def State.sendEcho (s : State) (n l peer stay : Nat) : State :=
  (s.updLane l fun x => { x with echoSent := some (s.now % 2 ^ 64) }).sendOnLane n l 5
    (toBytes 8 s.now ++ toBytes 8 peer ++ toBytes 2 (min 65535 stay))

/-- A checked IDENT and its outcome, Table 8.7. -/
def State.identified (s : State) (l : Nat) (x : Ident) : State :=
  let code := s.identCode l x
  let s := { s with free := s.free + 1 }
  match s.linkOfLane l with
  | none => s
  | some n =>
    let s := s.setFld F.LNK_LINK_CAUSE_IDCHK n code
    let s := (s.setFld F.LNK_LANE_STATUS_PEER_PAIR l x.pair).setFld F.LNK_LANE_STATUS_PEER_FACE l x.face
    match code with
    | 1 =>
      let s := s.setFld F.LNK_LANE_STATUS_STATE l laneIdentified
      let s := (s.setFld F.LNK_LINK_STATUS_PEER n x.module).setFld F.LNK_LINK_STATUS_PEER_PORT n (x.slot / 4)
      (s.setFld F.LNK_LINK_STATUS_RUN_VER n (min x.version (s.fld F.LNK_VERSION_OWN))).sendEcho n l 0 0
    | 2 =>
      (s.laneRetrains l).swapPairs l (faceOf (s.pathInput l)) x.pair ((s.pathInput l - 192) % 48)
    | 3 => s.laneFails l 3
    | 4 => s.isolate n l linkMiswired x
    | 5 => s.isolate n l linkMiswired x
    | 6 => s.isolate n l linkQuarantined x
    | 8 => s.laneRestart l 8
    | _ => s

/-- A frame discarded at a lane counts as a lost sequenced frame of its link (R198). -/
def State.laneFrameLost (s : State) (l : Nat) : State :=
  match s.linkOfLane l with
  | some n => s.frameLost n
  | none => s

/-- The peer of a lane's link has left UP: it trains (R218). -/
def State.peerTrains (s : State) (l : Nat) : State :=
  match s.linkOfLane l with
  | some n => s.updLink n fun k => { k with peerLeft := true }
  | none => s

/-- IDENT_FRAME: IDENT frames are received on a lane at FEC lock, and the fourth identical one in a row is checked against
the expected identity of the fibre, R209 and R210. A LOOP path has no identity check (R237). -/
def execIdentFrame (l : Fin 192) (f : LinkFrame) (s : State) : Res :=
  if !frameOk f ∨ f.kind ≠ 4 then .next (s.laneFrameLost l)
  else
    let s := s.peerTrains l
    if s.laneState l ≠ laneFec ∨ s.laneApart l then .next s
    else
      let x := s.lane l
      let k := if x.identCount ≠ 0 ∧ x.ident = f.payload then x.identCount + 1 else 1
      let s := s.updLane l fun x => { x with ident := f.payload, identCount := k }
      if k = 4 then .next (s.identified l (Ident.ofBytes f.payload)) else .next s

/-- The trunk output that carries a lane's own light, R223. -/
def State.launchOf (s : State) (l : Nat) : Option Nat := (rangeFrom 192 288).find? fun o => s.hasPath o && s.pathInput o == l

/-- The payload of the IDENT frames that this module sends on a lane of a link, through a trunk output (R209). -/
def State.identPayload (s : State) (n l o : Nat) : List Byte :=
  toBytes 2 s.selfId ++ toBytes 1 (faceOf o) ++ toBytes 1 ((o - 192) % 48) ++ toBytes 1 l ++ toBytes 1 (s.fld F.LNK_VERSION_OWN) ++
    toBytes 1 n ++ toBytes 1 (s.fld F.LNK_LINK_CFG_GROUPS n)

/-- A lane at FEC lock sends an IDENT frame on its link, when its light reaches a trunk fibre. -/
def State.sendIdent (s : State) (l : Nat) : State :=
  match s.linkOfLane l, s.launchOf l with
  | some n, some o => s.sendOnLane n l 4 (s.identPayload n l o)
  | _, _ => s

/-- Light lies at a lane's receiver: its path's light and taps follow (R228). A settled path that shows light at its output has it at its
input. -/
def State.lightIn (s : State) (l : Nat) (power : BitVec 16) : State :=
  let s := (s.tapOut l power).setFld F.DCK_PATH_LIGHT l 1
  let i := s.physInput (s.pathInput l)
  if s.fld F.DCK_PATH_STATE l = 2 ∧ !s.flag F.DCK_TAP_IN_PRESENT i then
    { s.tapIn i (BitVec.ofInt 16 (min 32767 (power.toInt + Config.lightLoss s.free))) with free := s.free + 1 }
  else s

/-- A lane with light begins to train, unless its optical engine or its field is out of service (R193, R209), or group 3 is still to be
judged (R381). -/
def State.laneLights (s : State) (l : Nat) : State :=
  if s.laneState l ≠ laneDark ∨ (s.lane l).engineOut ∨ s.laneFenced l ∨ s.lasersDark then s
  else
    let s := (s.setFld F.LNK_LANE_STATUS_STATE l laneSignal).setFld F.LNK_LANE_STATUS_RESTARTS l 0
    let s := s.updLane l fun x => { x with lightAt := some s.up }
    match s.linkOfLane l with
    | some n =>
      if s.linkState n = linkDown ∧ !s.linkFenced n then s.beginTraining n linkTraining
      else s.updLink n fun k => { k with litAt := some (k.litAt.getD s.up) }
    | none => s

/-- The optical engines carry light: every transmitter that may, and lanes that have light train (R228, R381). -/
def State.opticsOn (s : State) : State :=
  if s.lasersDark then s
  else ((List.range 192).filter fun l => s.flag F.DCK_PATH_LIGHT l && s.hasPath l).foldl State.laneLights s.lasersOn

/-- LIGHT_PRESENT: the deck reports light at a lane and the lane begins training, R209. The operand is the power at the
output's tap, in 0.01 dBm. A lane whose field is out of service stays dark (R193). -/
def execLightPresent (l : Fin 192) (power : BitVec 16) (s : State) : Res :=
  if power.toInt < -2000 ∨ !s.hasPath l then .next (s.tapOut l power)
  else
    .next ((s.lightIn l power).laneLights l)

/-- What a lane's FEC decoder counted, R196: the registers, and the sums of the audit interval. -/
def State.fecTick (s : State) (c : FecCount) : State :=
  let s := (s.bump .LNK_LANE_FEC_CORR c.lane c.corrected).bump .LNK_LANE_FEC_UNC c.lane c.uncorrectable
  s.updLane c.lane fun x => { x with corrected := x.corrected + c.corrected, symbols := x.symbols + c.symbols
                                     uncorrectable := x.uncorrectable + c.uncorrectable }

/-- FEC_LOCK: a lane's receiver finds 64 consecutive codewords with valid markers, R209; the lane sends IDENT frames, and reports its FEC
counts (R196, R237). -/
def execFecLock (c : FecCount) (s : State) : Res :=
  let l := c.lane.val
  if s.laneState l ≠ laneSignal then .next s
  else
    let s := (s.setFld F.LNK_LANE_STATUS_STATE l laneFec).updLane l fun x => { x with fecAt := some s.up }
    .next ((List.range 4).foldl (fun s _ => s.sendIdent l) (s.fecTick c))

/-- TRAINING_RESTART: a lane that has not reached IDENT within 10 ms of light, or within 1 ms of FEC lock, restarts
training, failing after 3 restarts, R209 and Table 8.7. A lane on LOOP trains to FEC lock only (R237). -/
def execTrainingRestart (l : Fin 192) (s : State) : Res :=
  let st := s.laneState l
  let x := s.lane l
  let slow : Bool := match x.lightAt with
    | some t => decide (s.up ≥ t + 10 * msec)
    | none => false
  let silent : Bool := match x.fecAt with
    | some t => decide (s.up ≥ t + msec)
    | none => false
  if (st = laneSignal ∧ slow) ∨ (st = laneFec ∧ !s.laneApart l ∧ (slow ∨ silent)) then
    let s := match s.linkOfLane l, (st == laneFec && silent) with
      | some n, true => s.setFld F.LNK_LINK_CAUSE_IDCHK n 7
      | _, _ => s
    .next (s.laneRestart l 7)
  else .next s

/-- An ECHO whose time is the one that this end sent last measures a round trip: the lane's delay, and the propagation that
LNK_LINK_DELAY shows, without the fixed part of 100 ns (Table 8.1). -/
def State.roundTrip (s : State) (n l : Nat) (f : LinkFrame) (arrived : Nat) : State :=
  let own := leAt f.payload 8 8
  if (s.lane l).echoSent = some own then
    let trip := timeDiff arrived own - (leAt f.payload 16 2 * ns : Nat)
    let s := s.updLane l fun x => { x with delay := some (trip / (2 * ns : Nat)).toNat, echoes := x.echoes + 1, echoSent := none }
    s.setFld F.LNK_LINK_DELAY_PROP n (min 65535 (s.leastDelay n - 100))
  else s

/-- ECHO_FRAME: an ECHO frame is received on a lane and used to measure the link delay, R209; it is answered, and after 16 round trips on a
lane the link's CREDIT_INIT goes out. `arrived` is the machine time of arrival. -/
def execEchoFrame (l : Fin 192) (f : LinkFrame) (arrived : BitVec 64) (s : State) : Res :=
  if !frameOk f ∨ f.kind ≠ 5 then .next (s.laneFrameLost l)
  else match s.linkOfLane l with
    | none => .next s
    | some n =>
      if s.laneState l ≠ laneIdentified then .next s
      else
        let s := s.roundTrip n l f arrived.toNat
        let s := s.sendEcho n l (leAt f.payload 0 8) (timeDiff s.now arrived.toNat / (ns : Nat)).toNat
        .next (if s.laneReady l ∧ (s.linkState n = linkTraining ∨ s.linkState n = linkRetraining) then s.sendCredits n else s)

/-- May CREDIT_INIT be taken: once in a training, and on a link that is MISWIRED or QUARANTINED? -/
def State.awaitsCredits (s : State) (n : Nat) : Bool :=
  (s.linkState n == linkTraining || s.linkState n == linkRetraining || s.mgmtOnly n) && !(s.link n).creditIn

/-- The initial credits of the peer are in hand, and what its ACK does not cover is resent on them (R202, R208, R218). -/
def State.takeCredits (s : State) (n : Nat) (f : LinkFrame) (g : Vc4 Nat) : State :=
  let s := s.updLink n fun l =>
    { l with creditIn := true, credHand := g, replay := l.replay.filter fun e => decide (0 ≤ seqDiff e.seq f.ack.toNat) }
  let s := (s.link n).replay.foldl (fun s e =>
    if e.kind = 1 ∧ s.resends n e then s.updLink n fun l => { l with
      sent := l.sent.upd e.frame.vc (· + 1), credHand := l.credHand.upd e.frame.vc (· - 1) } else s) s
  (s.resendAll n).pump n

/-- CREDIT_INIT_FRAME: a CREDIT_INIT frame grants the initial credits of each VC at training, R202, and the sender resends
from its ACK (R218). The operands are the frame and the credits that its payload carries. -/
def execCreditInitFrame (n : Fin 24) (f : LinkFrame) (v0 v1 v2 v3 : BitVec 16) (s : State) : Res :=
  if !frameOk f ∨ f.kind ≠ 6 then .next (s.frameLost n)
  else .next (if s.awaitsCredits n then s.takeCredits n f ⟨v0.toNat, v1.toNat, v2.toNat, v3.toNat⟩ else s)

/-- A link reaches UP on the lanes that are ready; its link slot and routing entries open (R209, R233). -/
def State.linkComesUp (s : State) (n : Nat) : State :=
  let ls := (s.lanesOf n).filter s.laneReady
  let s := ls.foldl (fun s l => s.admitLane n l) (s.setFld F.LNK_LINK_STATUS_LANES n 0)
  let s := (s.setFld F.LNK_LINK_STATUS_STATE n linkUp).updLink n fun l =>
    { l with pathClosing := false, failures := 0 }
  ((s.routeState n 1).reparent).pump n

/-- LINK_UP: a link reaches UP and its link slot and routing entries open, R233. -/
def execLinkUp (n : Fin 24) (s : State) : Res :=
  let l := s.link n
  if (s.linkState n = linkTraining ∨ s.linkState n = linkRetraining) ∧ l.creditOut ∧ l.creditIn ∧ (s.lanesOf n).any s.laneReady then
    .next (s.linkComesUp n)
  else .next s

/-- Has the first light of a link's training been there for a time (R209)? -/
def State.litFor (s : State) (n t : Nat) : Bool :=
  match (s.link n).litAt with
  | some l => decide (s.up ≥ l + t)
  | none => false

/-- TRAINING_DEADLINE: a link with no lane at IDENT 10 ms after the first light goes DOWN with cause DEADLINE, R209. -/
def execTrainingDeadline (n : Fin 24) (s : State) : Res :=
  if (s.linkState n = linkTraining ∨ s.linkState n = linkRetraining) ∧ s.litFor n (10 * msec) ∧
      !((s.lanesOf n).any fun k => s.laneState k == laneIdentified) then .next (s.linkGoesDown n causeDeadline)
  else .next s

/-! ## Lane loss, retrains and commands -/

/-- The light at a lane is lost: at its output's tap, and, where its path still points, at its input's (R228). -/
def State.lightLost (s : State) (l : Nat) : State :=
  let s := if s.hasPath l ∧ s.fld F.DCK_PATH_STATE l = 2 then s.tapInDark (s.physInput (s.pathInput l)) else s
  s.lightOut l

/-- LANE_LOSS: a lane that loses light, loses FEC lock or exceeds its error limit leaves its link and trains alone, R216.
`light` says that the light is lost. -/
def execLaneLoss (l : Fin 192) (light : Bool) (s : State) : Res :=
  if s.laneState l = laneDark then .next s
  else if light then .next (s.lightLost l)
  else .next (s.laneRetrains l)

/-- LINK_RETRAIN: a link retrains for a cause of Table 8.8 and its routing entries close, R217. NONE and DEADLINE are no
causes of a retrain. -/
def execLinkRetrain (n : Fin 24) (cause : Fin 8) (s : State) : Res :=
  if s.linkState n = linkUp ∧ cause ≠ 0 ∧ cause ≠ 6 then .next (s.retrain n cause) else .next s

/-- RETRAIN_FRAME: a RETRAIN frame from the peer retrains the link with cause PEER, R217. -/
def execRetrainFrame (n : Fin 24) (f : LinkFrame) (s : State) : Res :=
  if !frameOk f ∨ f.kind ≠ 7 then .next (s.frameLost n)
  else
    let s := if s.linkState n = linkUp then s.retrain n causePeer else s
    .next (s.updLink n fun l => { l with peerLeft := true })

/-- A write of LNK_LINK_CFG with RETRAIN = 1; ignored and recorded while STATE is not UP (Table 8.9). -/
def State.retrainCmd (s : State) (n v : Nat) : State :=
  if s.linkState n = linkUp then s.retrain n causeCommand else s.refuse .LNK_LINK_CFG n v

/-- RETRAIN_COMMAND: RETRAIN written in LNK_LINK_CFG retrains the link with cause COMMAND, R217. -/
def execRetrainCommand (n : Fin 24) (s : State) : Res := .next (s.retrainCmd n (2 ^ 5))

/-- A write of LNK_LINK_CFG with CLEAR = 1: a MISWIRED or QUARANTINED link trains again; otherwise ignored and recorded. -/
def State.clearCmd (s : State) (n v : Nat) : State :=
  if s.mgmtOnly n then (if s.linkFenced n then s.linkGoesDown n (s.fld F.LNK_LINK_CAUSE_LAST n) else s.beginTraining n linkTraining) else s.refuse .LNK_LINK_CFG n v

/-- CLEAR_COMMAND: CLEAR written in LNK_LINK_CFG takes a MISWIRED or QUARANTINED link back into training, R212. -/
def execClearCommand (n : Fin 24) (s : State) : Res := .next (s.clearCmd n (2 ^ 6))

/-- OPTICAL_ENGINE_FAILED: a failed optical engine is taken out of service and its 16 lanes leave their links, R244. -/
def execOpticalEngineFailed (e : Fin 12) (s : State) : Res :=
  let ls := rangeFrom (16 * e.val) 16
  let s := ls.foldl (fun s l => ((s.laneGoesDark l).laneUnlit l).updLane l fun x => { x with engineOut := true }) s
  .next (s.service 4)

/-- RETRAIN_FAILED: a retrain that has not brought the link UP within the bounds of Table 8.6 is repeated, and after the
third failure the link goes DOWN, R219. The bounds run from the first light. -/
def execRetrainFailed (n : Fin 24) (s : State) : Res :=
  let cause := s.fld F.LNK_LINK_CAUSE_LAST n
  let bound := if cause = causePath then 2 * msec else msec / 2
  let l := s.link n
  if s.linkState n ≠ linkRetraining ∨ !s.litFor n bound then .next s
  else if l.failures ≥ 2 then .next (s.linkGoesDown n cause)
  else .next ((s.updLink n fun l => { l with failures := l.failures + 1 }).retrain n cause)

/-! ## A write of LNK_LINK_CFG -/

/-- May GROUPS be written: the lowest set bit is n mod 4, no group of another enabled link of the port, ENABLE is 0? -/
def State.groupsOk (s : State) (n g : Nat) : Bool :=
  g % 2 ^ (n % 4) == 0 && bitOf g (n % 4) && !s.flag F.LNK_LINK_CFG_ENABLE n &&
    (rangeFrom (n / 4 * 4) 4).all fun k =>
      k == n || !s.flag F.LNK_LINK_CFG_ENABLE k || (s.fld F.LNK_LINK_CFG_GROUPS k &&& g) == 0

/-- A link slot is enabled or disabled. -/
def State.enableLink (s : State) (n : Nat) (on : Bool) : State :=
  if s.flag F.LNK_LINK_CFG_ENABLE n = on then s
  else
    let s := s.setFld F.LNK_LINK_CFG_ENABLE n (bit on)
    if on then
      let s := s.setFld F.LNK_LINK_STATUS_STATE n linkDown
      if !s.linkFenced n && (s.lanesOf n).any fun l => s.laneState l != laneDark then s.beginTraining n linkTraining else s
    else
      let s := ((s.wr .LNK_LINK_STATUS n 0).routeState n 0).updLink n fun _ => Link.init
      s.reparent

/-- A write of LNK_LINK_CFG with a GROUPS that fits: RETRAIN and CLEAR act on the link as the write finds it, then GROUPS and ENABLE stand. -/
def State.linkCfg (s : State) (n v : Nat) : State :=
  let s := if bitOf v 5 then s.retrainCmd n v else s
  let s := if bitOf v 6 then s.clearCmd n v else s
  (s.setFld F.LNK_LINK_CFG_GROUPS n (bits v 1 4)).enableLink n (bitOf v 0)

/-! ## At a tick -/

/-- CREDIT_AUDIT_INSERT: every UP link inserts an AUDIT frame at a tick whose count is a multiple of 1,024, ahead of later DATA frames, R213.
A full replay buffer keeps it back until ACK makes room (R208). -/
def State.auditInsert (s : State) (n : Nat) : State :=
  if s.linkState n = linkUp then (s.updLink n fun l => { l with auditDue := true }).auditSend n else s

/-- What the training of links sends at a tick: IDENT on lanes at FEC lock, and RETRAIN on the lanes of a link that retrains until its peer
has left UP (R209, R218). -/
def State.trainingSends (s : State) : State :=
  let s := ((s.lanes.map (·.1)).filter fun l => s.laneState l == laneFec).foldl State.sendIdent s
  (List.range 24).foldl (fun s n =>
    if s.linkState n = linkRetraining ∧ !(s.link n).peerLeft then s.sendRetrain n else s) s

/-- The end of an audit interval at a lane. -/
def State.fecInterval (s : State) (l : Nat) : State :=
  let x := s.lane l
  (s.setFld F.LNK_LANE_STATUS_DEGRADED l (bit (decide (x.corrected * 100000 > 24 * x.symbols)))).updLane l fun x =>
    { x with corrected := 0, symbols := 0, uncorrectable := 0 }

/-- Fresh budgets: a packet's frames beyond its budget are charged to the next tick's (R282). -/
def State.newBudgets (s : State) (n : Nat) : State :=
  s.updLink n fun l => { l with used :=
    (l.used.map fun u => (u.1, u.2 - s.shareBudget n u.1)).filter fun u => u.2 != 0 }

/-- Is the slice of an entry pre-empted: its context is being saved or restored, or is saved? -/
def State.entryAway (s : State) (e : Nat) : Bool :=
  let slice := s.fld F.RTE_SLICE_SLICE_ID e
  (s.saved.any fun v => v.slice == slice) || match s.slotOfSlice slice with
    | some n => (s.slot n).phase == .saving || (s.slot n).phase == .restored
    | none => false

/-- SHARE of every slice entry comes into force at the tick, R283; that of a pre-empted slice at the first tick after its restore
(R286). -/
def State.sharesTick (s : State) : State :=
  { s with shares := ((List.range 64).map fun e =>
      (e, if s.entryAway e then mapGet (fun _ => 64) s.shares e else s.fld F.RTE_SLICE_SHARE e)).filter fun e => e.2 != 64 }

/-- What the links do at a tick: FEC counts, the audit, lanes that join, fresh budgets and shares. -/
def State.linksTick (s : State) (fec : List FecCount) : State :=
  let s := fec.foldl State.fecTick s
  let out := ((s.lanes.filter fun e => decide (e.2.uncorrectable > 16)).map (·.1)).filter fun l => s.laneState l == laneActive
  let s := out.foldl State.laneRetrains s
  let s := if s.ticks % 1024 = 0 then
      (List.range 24).foldl State.auditInsert ((s.lanes.map (·.1)).foldl State.fecInterval s)
    else s
  let s := s.joinLanes
  let s := ((List.range 24).foldl State.newBudgets s).sharesTick
  let s := ((List.range 24).foldl State.pump s).trainingSends
  (s.lanes.map (·.1)).foldl State.laneCodewords s

end Sys2Proof.Machine
end

