-- ==== Sys2Proof/Machine/Time.lean ====
section
/-!
DEFINITION. Sys2Proof/Machine/Time.lean: machine time (chapter 12): the tick (R288), steps (R294, R295), measurements over
the links (R297, R298), the harness (R300, R301), changes of the tick period (R302), and the transmit time-stamp queues
(R303 to R305).
-/
namespace Sys2Proof.Machine

/-! ## Sources, R292 -/

/-- The time state that TIM_CTRL gives: LOCKED at once for SOURCE 2 or MASTER, FREE above 128 modules, otherwise FREE until
the source is present. -/
def State.sourceChosen (s : State) : State :=
  let src := s.fld F.TIM_CTRL_SOURCE
  if src = 2 ∨ (src = 0 ∧ s.flag F.TIM_CTRL_MASTER) then s.enterTime timeLocked 3
  else if src = 0 ∧ s.machineSize > 128 then
    if s.timeState = timeFree then s.log 0x0C 0x7002 0 ((Config.timeCause 4).toNat * 4) else s.enterTime timeFree 4
  else (s.enterTime timeFree 5).reparent

/-- A write of TIM_CTRL with a SOURCE of 0 to 2. -/
def State.timeCtrl (s : State) (v : Nat) : State :=
  if bits v 0 2 = s.fld F.TIM_CTRL_SOURCE ∧ bits v 2 1 = s.fld F.TIM_CTRL_MASTER then s
  else ((s.setFld F.TIM_CTRL_SOURCE 0 (bits v 0 2)).setFld F.TIM_CTRL_MASTER 0 (bits v 2 1)).sourceChosen

/-! ## Offsets, R293, R294 and R298 -/

/-- One microsecond of machine time. -/
def usec : Nat := 1000 * ns

/-- The rate that removes an offset within 64 ticks, in ppb, held at 100 ppm. -/
def State.rateFor (s : State) (off : Int) : Int :=
  max (-100000) (min 100000 (off * 1000000000 / ((64 * s.period * ns : Nat) : Int)))

/-- An offset is noted: TIM_OFFSET, and the count of measurements within 5 ns; 16 in a row lock the module. -/
def State.noteOffset (s : State) (off : Int) : State :=
  let s := s.wr .TIM_OFFSET 0 (unsigned 64 off)
  let good := if off.natAbs ≤ 5 * ns then s.time.good + 1 else 0
  let s := s.updTime fun t => { t with good := good }
  if good ≥ 16 ∧ s.timeState = timeAcquiring then s.enterTime timeLocked 6 else s

/-- An offset is taken to be slewed away: the rate follows it. -/
def State.takeOffset (s : State) (off : Int) : State := (s.wr .TIM_RATE 0 (unsigned 32 (s.rateFor off))).noteOffset off

/-- A reference's reading: an offset of 1 µs or more, or another tick count or anchor, makes a step at the next tick, and the rate stays as
it is; any other offset is slewed away. -/
def State.reference (s : State) (off : Int) (anchor ticks time : Nat) (differs : Bool) : State :=
  if off.natAbs ≥ usec ∨ differs then
    (s.noteOffset off).updTime fun t => { t with step := some { offset := off, anchor := anchor, ticks := ticks, at_ := time } }
  else s.takeOffset off

/-! ## The step of machine time at a tick -/

/-- Ticks of the grid A + n × P up to a machine time. -/
def gridCount (period anchor t : Nat) : Int := timeDiff t anchor / ((period * ns : Nat) : Int)

/-- The first tick of a grid at or after a machine time. -/
def gridNext (period anchor t : Nat) : Nat :=
  let p := period * ns
  let d := timeDiff t anchor
  unsigned 64 (anchor + ((d + (p : Int) - 1) / (p : Int)) * (p : Int))

/-- Named ticks that a step has passed (Table 12.4): a deck set takes code 0x7 and its links open again; an armed commit
takes CRESULT 1. -/
def State.stepPassed (s : State) : State :=
  let s := match s.deck.set with
    | some d =>
      if !d.begun ∧ d.startTick ≠ 0 ∧ s.passed d.startTick then
        let s := d.links.foldl (fun s n => (if s.linkState n = linkUp then s.routeState n 1 else s).updLink n fun l =>
          { l with pathClosing := false }) (s.updDeck fun k => { k with set := none })
        (s.setFld F.DCK_CMD_CTRL_BUSY 0 0).setFld F.DCK_CMD_CTRL_RESULT 0 7
      else s
    | none => s
  (List.range 64).foldl (fun s e =>
    if s.flag F.RTE_SLICE_ARMED e && s.passed (s.rd .RTE_SLICE_COMMIT e) then
      (s.setFld F.RTE_SLICE_ARMED e 0).setFld F.RTE_SLICE_CRESULT e 1
    else s) s

/-- No change of period is pending. -/
def State.periodClear (s : State) : State := (s.updTime fun t => { t with change := none }).setFld F.FTK_NEXT_PENDING 0 0

/-- A step has ended the second (R439): what was counted in it is over, new limits are in force, and its suppressed occurrences belong to no second
that comes. -/
def Recorder.secondEnds (r : Recorder) : Recorder :=
  { r with counts := [], notes := 0, rateSecond := 0, supp := r.supp.map fun u => { u with second := 2 ^ 64 } }

/-- Machine time, FTK_ANCHOR and the tick count take a reference's values; the next tick is the first of the new grid at least P later, and
the ticks of that grid which lie between are counted with it (R294). What was learnt by the old time is dropped: the PTP relation, and a
message's stamp. -/
def State.setTime (s : State) (t anchor count : Nat) : State :=
  let p := s.period
  let next := gridNext p anchor (t + p * ns)
  let skip := (gridCount p anchor next - gridCount p anchor t - 1).toNat
  let evr := if t / second = s.now / second then s.evr else s.evr.secondEnds
  let s := { s with now := t, evr := evr, time := { s.time with next := next, skip := skip, step := none, ptp := none, ptpIn := none } }
  ((s.wr .FTK_ANCHOR 0 anchor).wr .FTK_TICKS 0 count).wr .FTK_LAST 0 t

/-- A step is counted in TIM_STEPS and recorded; a period change whose tick it passes is cancelled (Table 12.4). -/
def State.stepped (s : State) (off : Int) : State :=
  let s := ((s.bump .TIM_STEPS).log 0x0C 0x7001 0 (unsigned 64 off)).stepPassed
  match s.time.change with
  | some (at_, _) => if s.passed at_ then s.periodClear.setFld F.FTK_NEXT_RESULT 0 3 else s
  | none => s

/-- TIME_STEP: machine time, FTK_ANCHOR and the tick count take the reference's values at a tick (R294). -/
def State.timeStep (s : State) (st : TimeStep) : State :=
  let t := unsigned 64 (s.now + st.offset)
  let count := (st.ticks + (gridCount s.period st.anchor t - gridCount s.period st.anchor st.at_)).toNat
  (s.setTime t st.anchor count).stepped st.offset

/-- A tick falls: machine time reaches its value and the tick count increases by 1 (R288), and by the ticks of the reference that the interval
of a step took in (R294); then a step that is due. TICK_OUT repeats it, with the wide pulse at a marker tick (R300, R301). -/
def State.timeTick (s : State) : State :=
  let t := s.time.next
  let k := s.ticks + 1 + s.time.skip
  let s := { s with now := t, ups := s.ups + s.period * ns, time := { s.time with next := (t + s.period * ns) % 2 ^ 64, skip := 0 } }
  let s := (s.wr .FTK_TICKS 0 k).wr .FTK_LAST 0 t
  let s := match s.time.step with
    | some st => s.timeStep st
    | none => s
  s.updTime fun k => { k with pulse := if s.ticks % 1024 = 0 then 60 else 20 }

/-! ## Measurements over the links -/

/-- A measurement is lost; 4 in a row enter HOLDOVER (R298). -/
def State.measurementLost (s : State) : State :=
  let s := s.updTime fun t => { t with asked := none, lost := t.lost + 1 }
  if s.time.lost ≥ 4 then s.sourceLost 7 else s

/-- A TIME message leaves on a link as a packet of VC 3 (R200, R298). -/
def State.sendTime (s : State) (n : Nat) (m : TimeMsg) : State :=
  (s.emit (.time n m)).sendLink n (s.managePacket 7 0 (s.fld F.LNK_LINK_STATUS_PEER n) (Config.packetBody 7 m.values))

/-- TIME_MEASURE: every 16 ticks the module sends its parent a TIME request, R298. -/
def execTimeMeasure (s : State) : Res :=
  if s.ticks % 16 ≠ 0 ∨ !s.followsLinks ∨ !s.flag F.TIM_STATUS_PARENT_VALID then .next s
  else
    let s := if s.time.asked.isSome then s.measurementLost else s
    let s := s.updTime fun t => { t with asked := some (s.now, s.ticks) }
    .next (s.sendTime (s.fld F.TIM_STATUS_PARENT) (.request (BitVec.ofNat 64 s.now)))

/-- MEASUREMENT_LOST: a TIME reply not arrived within 16 ticks counts as lost, and 4 in a row enter HOLDOVER, R298. -/
def execMeasurementLost (s : State) : Res :=
  match s.time.asked with
  | some (_, k) => if s.ticks ≥ k + 16 then .next s.measurementLost else .next s
  | none => .next s

/-- The tick count of this module at a machine time of the present or the last tick period. -/
def State.countAt (s : State) (t : Nat) : Nat := if timeDiff t (s.rd .FTK_LAST) < 0 then s.ticks - 1 else s.ticks

/-- TIME: a TIME packet is received through a link slot and answered by the parent, or its reply gives the module its offset
and delay, R298. `arrived` and `leaves` are the stamps of its arrival and of the reply's departure by the module's clock. -/
def execTime (n : Fin 24) (m : TimeMsg) (arrived leaves : BitVec 64) (s : State) : Res :=
  match m with
  | .request t1 =>
    .next (s.sendTime n (.reply t1 arrived leaves (BitVec.ofNat 64 s.ticks) (BitVec.ofNat 64 (s.rd .FTK_ANCHOR))))
  | .reply t1 t2 t3 ticks anchor =>
    match s.time.asked with
    | none => .next s
    | some (t, _) =>
      if t ≠ t1.toNat ∨ s.fld F.TIM_STATUS_PARENT ≠ n ∨ !s.followsLinks then .next s
      else
        let out := timeDiff t2.toNat t1.toNat
        let back := timeDiff arrived.toNat t3.toNat
        let off := (out - back) / 2
        let s := (s.updTime fun t => { t with asked := none, lost := 0, delay := some ((out + back) / 2) }).sourceFound 12
        let differs := ticks.toNat != s.countAt t3.toNat || anchor.toNat != s.rd .FTK_ANCHOR
        .next (s.reference off anchor.toNat ticks.toNat t3.toNat differs)

/-- HOLDOVER_EXPIRY: 2 s in HOLDOVER without the source returning puts the time state to FREE, R293. -/
def execHoldoverExpiry (s : State) : Res :=
  if s.timeState = timeHoldover ∧ s.up ≥ s.time.heldAt + 2 * second then .next (s.enterTime timeFree 8) else .next s

/-! ## The harness, R300 and R301 -/

/-- A TICK_IN edge is missing or outside ±20 ns: counted, and no good measurement; 4 in a row enter HOLDOVER. -/
def State.tickInBad (s : State) : State :=
  let s := (s.bump .TIM_TICKIN_ERR).updTime fun t => { t with mismatch := t.mismatch + 1, good := 0 }
  if s.time.mismatch ≥ 4 then s.sourceLost 9 else s

/-- The tick that machine time expects nearest to a machine time. -/
def State.nearestTick (s : State) (t : Nat) : Nat :=
  let last := s.rd .FTK_LAST
  if (timeDiff t last).natAbs ≤ (timeDiff t s.time.next).natAbs then last else s.time.next

/-- A TICK_IN edge is compared with the expected tick. -/
def State.tickIn (s : State) (t : Nat) : State :=
  let off := timeDiff (s.nearestTick t) t
  if off.natAbs > 20 * ns then s.tickInBad else (s.updTime fun t => { t with mismatch := 0 }).takeOffset off

/-- The armed harness load takes place at a marker edge: machine time and tick count take its values at once (R300), and the marker tick is
the anchor of the grid (log entry 60). It is a step where it moves machine time by 1 µs or more, or the tick count (R294). -/
def State.harnessLoad (s : State) (t : Nat) : State :=
  let want := s.rd .TIM_HRN_TIME
  let count := s.rd .TIM_HRN_TICK
  let off := timeDiff want t
  let moved := decide (off.natAbs ≥ usec) || s.countAt t != count
  let s := (((s.setFld F.TIM_HRN_ARM_ARMED 0 0).updTime fun t => { t with mismatch := 0 }).noteOffset off).setTime want want count
  if moved then s.stepped off else s

/-- TICK_IN_EDGE: a TICK_IN edge is compared with the expected tick and slewed toward or counted as a mismatch, R301; none
is a missing edge. The operands are the edge's machine time at the harness pin and whether it is a marker. -/
def execTickInEdge (edge : Option (BitVec 64)) (marker : Bool) (s : State) : Res :=
  if s.fld F.TIM_CTRL_SOURCE ≠ 1 then .next s
  else match edge with
    | none => .next s.tickInBad
    | some t =>
      let t := (t.toNat + 2 ^ 64 - s.fld F.TIM_HRN_CFG_DELAY * ns / 10) % 2 ^ 64
      let s := if s.flag F.TIM_STATUS_REFCLK then s.sourceFound 10 else s
      if marker && s.flag F.TIM_HRN_ARM_ARMED then .next (s.harnessLoad t) else .next (s.tickIn t)

/-- REFCLK_LOSS: REFCLK absent for 1 µs puts the time state into HOLDOVER, R301. -/
def execRefclkLoss (s : State) : Res :=
  let s := s.setFld F.TIM_STATUS_REFCLK 0 0
  if s.fld F.TIM_CTRL_SOURCE = 1 then .next (s.sourceLost 11) else .next s

/-- REFCLK_RETURN: REFCLK appears on the harness and the time clock moves to it, R287; with SOURCE 1 the time state goes to
ACQUIRING at the next TICK_IN edge (Table 12.4). -/
def execRefclkReturn (s : State) : Res := .next (s.setFld F.TIM_STATUS_REFCLK 0 1)

/-- A write of TIM_HRN_ARM with ARM = 1; a tick count that is no multiple of 1,024 is refused and recorded. -/
def State.harnessArm (s : State) : State :=
  let k := s.rd .TIM_HRN_TICK
  if k % 1024 ≠ 0 then
    ((s.setFld F.TIM_HRN_ARM_BAD 0 1).setFld F.TIM_HRN_ARM_ARMED 0 0).log 0x0C 0x7003 0 k
  else (s.setFld F.TIM_HRN_ARM_BAD 0 0).setFld F.TIM_HRN_ARM_ARMED 0 1

/-- HARNESS_ARM: ARM of TIM_HRN_ARM loads the harness time and tick count at the next marker edge, R300. -/
def execHarnessArm (s : State) : Res := .next s.harnessArm

/-! ## Changes of the tick period, R24, R25 and R302 -/

/-- Does a slice exist on the module? -/
def State.anySlice (s : State) : Bool := (List.range 56).any fun n => s.flag F.SEQ_SLOT_CFG_ACTIVE n

/-- RESULT of arming a change, judged in the order of its numbers. -/
def State.periodCheck (s : State) (p : Nat) : Nat :=
  let t := s.rd .FTK_CHANGE_AT
  if p < 4000 ∨ p > 16000 then 1
  else if s.deckState ≠ deckParked then 2
  else if !s.isTick t ∨ timeDiff t s.now < (s.period * ns : Nat) + timeDiff s.time.next s.now ∨
      timeDiff t s.now > (second : Nat) then 3
  else if s.time.change.isSome then 4
  else if s.anySlice then 5
  else 0

/-- Arm a change of period; a refusal is recorded (R24). -/
def State.periodArm (s : State) (p : Nat) : State :=
  let r := s.periodCheck p
  let s := (s.setFld F.FTK_NEXT_PERIOD 0 p).setFld F.FTK_NEXT_RESULT 0 r
  if r ≠ 0 then s.log 0x0C 0x1004 0 (p + r * 2 ^ 16)
  else
    (s.updTime fun t => { t with change := some (s.rd .FTK_CHANGE_AT, p) }).setFld F.FTK_NEXT_PENDING 0 1

/-- CANCEL withdraws a pending change up to the tick before the named tick. -/
def State.periodCancel (s : State) : State :=
  match s.time.change with
  | some (t, _) => if timeDiff t s.now < (s.period * ns : Nat) then s else s.periodClear
  | none => s

/-- A write of FTK_NEXT: CANCEL, then ARM. -/
def State.ftkNext (s : State) (v : Nat) : State :=
  let s := if bitOf v 17 then s.periodCancel else s
  if bitOf v 16 then s.periodArm (bits v 0 16) else s.setFld F.FTK_NEXT_PERIOD 0 (bits v 0 16)

/-- PERIOD_CHANGE_ARM: ARM of FTK_NEXT arms a change of tick period at a named tick, or refuses it, R302. -/
def execPeriodChangeArm (period : BitVec 16) (s : State) : Res := .next (s.ftkNext (period.toNat + 2 ^ 16))

/-- PERIOD_CHANGE_CANCEL: CANCEL of FTK_NEXT withdraws a pending change of period, R302. -/
def execPeriodChangeCancel (s : State) : Res := .next s.periodCancel

/-- PERIOD_CHANGE: at the named tick, after a step the tick of the new grid that the value names (Table 12.4), the anchor and tick period take
their new values, R302, and the servo of a deck that is not DETACHED its gain set (R254, R255). -/
def execPeriodChange (s : State) : Res :=
  match s.time.change with
  | some (t, p) =>
    if s.passed t then
      let s := s.periodClear
      let t := gridNext s.period (s.rd .FTK_ANCHOR) t
      let s := (s.wr .FTK_ANCHOR 0 t).wr .FTK_PERIOD 0 p
      let s := s.updTime fun k => { k with next := gridNext p t (s.now + 1) }
      .next (if s.flag F.DCK_STATUS_DETACHED then s
             else (s.setFld F.SRV_STATUS_SET 0 (gainSet p)).updDeck fun d => { d with period := p })
    else .next s
  | none => .next s

/-! ## Transmit time-stamps, R303 to R305 -/

/-- A write of TIM_TSQ_POP with POP = 1. -/
def State.tsqPop (s : State) (q : Nat) : State := (s.updTime fun k => k.setTsq q ((k.tsq q).drop 1)).showTsq q

/-- TSQ_POP: POP removes the oldest entry of a transmit time-stamp queue, R303. -/
def execTsqPop (q : Fin 3) (s : State) : Res := .next (s.tsqPop q)

/-- The relation of PTP time and machine time that a delay request-response exchange gives, TAI less machine time in ns: `t1` and `t4` are the
master's departure of its Sync and arrival of the request, `t2` and `t3` the machine times here. -/
def ptpRelation (t1 t2 t3 t4 : Nat) : Int := (((t1 : Int) - (t2 / ns : Nat)) + ((t4 : Int) - (t3 / ns : Nat))) / 2

/-- PTP_EVENT_MESSAGE: a PTP event message crosses a front-end port and is time-stamped, R305: a sent message with a stamp
asked for under an identifier enters the port's queue; a received stamp travels with its message. `tai` is the TAI time in
ns that the master gives of the same message: a received Sync's departure, which its Follow_Up tells, and a sent Delay_Req's arrival,
which its Delay_Resp tells; the two make the relation that the firmware's ordinary clock keeps. -/
def execPtpEventMessage (port : Fin 2) (sent : Option (BitVec 16)) (crossed : BitVec 64) (tai : Option (BitVec 64))
    (s : State) : Res :=
  let on := if port = 0 then s.flag F.TIM_PTP_CTRL_EN0 else s.flag F.TIM_PTP_CTRL_EN1
  if !on then .next s
  else
    match sent with
    | none => .next (s.updTime fun k => { k with ptpIn := some ⟨port, crossed.toNat, tai.map (·.toNat)⟩ })
    | some ident =>
      let s := s.stamp port ident.toNat port crossed.toNat
      match tai, s.time.ptpIn with
      | some t4, some ⟨q, t2, some t1⟩ =>
        .next (if q = port.val then s.updTime fun k => { k with ptp := some (ptpRelation t1 t2 crossed.toNat t4.toNat) } else s)
      | _, _ => .next s

end Sys2Proof.Machine
end

