-- ==== Sys2Proof/Machine/Placement.lean ====
section
/-!
DEFINITION. Sys2Proof/Machine/Placement.lean: the tables of chapter 11 as they are written: machine size and coordinates
(R265 to R268), slice entries with their staged copies and commits (R270, R271, R286), field owners (R276), and the
placement epoch (R186).
-/
namespace Sys2Proof.Machine

/-! ## Coordinates, R265 to R268 -/

/-- Does a path use a face? -/
def State.pathUsesFace (s : State) (face : Nat) : Bool :=
  s.paths.any fun o => (decide (192 ≤ o) && faceOf o == face) ||
    (decide (192 ≤ s.pathInput o) && faceOf (s.pathInput o) == face)

/-- The face opposite to a face, R224. -/
def oppositeFace (f : Nat) : Nat := if f % 2 = 0 then f + 1 else f - 1

/-- The control complex writes the face plans from the coordinates: none for an axis of size 1, none while a coordinate
lies outside the machine, and none over a face that a path uses (R224, R266 to R268). -/
def State.writePlans (s : State) : State :=
  let (dx, dy, dz) := s.dims
  if !s.flag F.RTE_COORD_VALID then s
  else (List.range 6).foldl (fun s f =>
    let size := if f < 2 then dx else if f < 4 then dy else dz
    if size = 1 ∨ s.pathUsesFace f then s
    else s.wr .DCK_FACE_PLAN f (s.neighbour f + oppositeFace f * 2 ^ 14 + 2 ^ 17)) s

/-- VALID and ID follow the coordinates and the machine's size (R10, R267). -/
def State.placeSelf (s : State) : State :=
  let (dx, dy, dz) := s.dims
  let ok := decide (s.fld F.RTE_COORD_X < dx) && decide (s.fld F.RTE_COORD_Y < dy) && decide (s.fld F.RTE_COORD_Z < dz)
  ((s.setFld F.RTE_COORD_VALID 0 (bit ok)).setFld F.RTE_COORD_ID 0 s.selfId).writePlans

/-- A write of RTE_MACHINE within its limits (R265). -/
def State.machineWrite (s : State) (v : Nat) : State :=
  let s := ((s.setFld F.RTE_MACHINE_DIM_X 0 (bits v 0 5)).setFld F.RTE_MACHINE_DIM_Y 0 (bits v 5 5)).setFld
    F.RTE_MACHINE_DIM_Z 0 (bits v 10 4)
  if s.fld F.TIM_CTRL_SOURCE = 0 then s.placeSelf.sourceChosen else s.placeSelf

/-- A write of RTE_COORD: the value is no longer that of the straps. -/
def State.coordWrite (s : State) (v : Nat) : State :=
  let s := ((s.setFld F.RTE_COORD_X 0 (bits v 0 5)).setFld F.RTE_COORD_Y 0 (bits v 5 5)).setFld F.RTE_COORD_Z 0 (bits v 10 4)
  (s.setFld F.RTE_COORD_STRAPPED 0 0).placeSelf

/-! ## Slice entries -/

/-- Does a value of RTE_SLICE_BOX hold an extent above its dimension? -/
def State.boxBad (s : State) (v : Nat) : Bool :=
  let (dx, dy, dz) := s.dims
  decide (bits v 14 5 + 1 > dx) || decide (bits v 19 5 + 1 > dy) || decide (bits v 24 4 + 1 > dz)

/-- The control complex keeps what a routing register holds in its record (R500). -/
def State.noteRoute (s : State) (r : Reg) (i : Nat) : State :=
  { s with ccRecord := { s.ccRecord with routes := mapSet (fun _ => 0) (regKey r i) (s.rd r i + 1) s.ccRecord.routes } }

/-- Write a routing register for a slice, with the control complex's record of it (R500). -/
def State.putRoute (s : State) (r : Reg) (i v : Nat) : State := (s.wr r i v).noteRoute r i

/-- A write to BOX, HOP, SUBST or PEER of slice entry e: in force while the entry is not active, otherwise staged, and
ignored and recorded while a commit is armed (R286). A staged copy that nothing has written holds the value in force. -/
def State.tableWrite (s : State) (r : Reg) (e i v : Nat) : State :=
  if !s.flag F.RTE_SLICE_ACTIVE e then s.putRoute r i v
  else if s.flag F.RTE_SLICE_ARMED e then s.refuse r i v
  else { s with staged := mapSet (fun _ => none) (regKey r i) (some (v % 2 ^ (8 * r.bytes))) s.staged }

/-- What a write of part of a register builds on: the staged copy of a table that one was written into, else the register (R271). -/
def State.held (s : State) (r : Reg) (i : Nat) : Nat :=
  match mapGet (fun _ => none) s.staged (regKey r i) with
  | some v => v
  | none => s.rd r i

/-- The staged tables of an entry, each with its register index. -/
def stagedKeys (e : Nat) : List (Reg × Nat) :=
  [(.RTE_SLICE_BOX, e), (.RTE_SLICE_HOP, e)] ++ ((List.range 4).map fun i => (.RTE_SLICE_SUBST, 4 * e + i)) ++
    (List.range 8).map fun i => (.RTE_SLICE_PEER, 8 * e + i)

/-- The placement epoch of an entry increments, once at a tick, and the running movers of its slice park with code 0x21 at once
(R158, R186). -/
def State.epochUp (s : State) (e : Nat) : State :=
  if mapGet (fun _ => 0) s.epochTick e = s.ticks + 1 then s
  else
    let s := { s with epochTick := mapSet (fun _ => 0) e (s.ticks + 1) s.epochTick }
    let s := s.setFld F.RTE_SLICE_EPOCH e ((s.fld F.RTE_SLICE_EPOCH e + 1) % 65536)
    match s.slotOfSlice (s.fld F.RTE_SLICE_SLICE_ID e) with
    | some n => s.eachMover n fun s f m => s.parkAtOnce f m 0x21
    | none => s

/-- The epoch of a slice increments. -/
def State.epochUpSlice (s : State) (slice : Nat) : State :=
  match s.entryOf slice with
  | some e => s.epochUp e
  | none => s

/-- A write of RTE_SLICE_COMMIT arms the commit, or is refused: then no commit is armed (R286). -/
def State.commitArm (s : State) (e t : Nat) : State :=
  let s := s.wr .RTE_SLICE_COMMIT e t
  if !s.flag F.RTE_SLICE_ACTIVE e then s.setFld F.RTE_SLICE_CRESULT e 2
  else if s.passed t then (s.setFld F.RTE_SLICE_CRESULT e 1).setFld F.RTE_SLICE_ARMED e 0
  else (s.setFld F.RTE_SLICE_CRESULT e 0).setFld F.RTE_SLICE_ARMED e 1

/-- COMMIT_ARM: a write of RTE_SLICE_COMMIT arms the staged tables of a slice entry for a named tick, R271. -/
def execCommitArm (e : Fin 64) (tick : BitVec 64) (s : State) : Res := .next (s.commitArm e tick.toNat)

/-- The staged tables come into force, as the control complex records (R500), and with them the hop delay of their vote tree, where the placement
service has told it (R34). -/
def State.commitNow (s : State) (e : Nat) : State :=
  let s := (stagedKeys e).foldl (fun s k =>
    match mapGet (fun _ => none) s.staged (regKey k.1 k.2) with
    | some v => { s.putRoute k.1 k.2 v with staged := mapDel (regKey k.1 k.2) s.staged }
    | none => s) s
  let s := { s with voteDelays := mapSet (fun _ => none) e (mapGet (fun _ => none) s.nextDelays e) s.voteDelays
                    nextDelays := mapSet (fun _ => none) e none s.nextDelays }
  ((s.setFld F.RTE_SLICE_ARMED e 0).setFld F.RTE_SLICE_CRESULT e 0).epochUp e

/-- Is a commit due: armed, and its named tick has come? -/
def State.commitDue (s : State) (e : Nat) : Bool := s.flag F.RTE_SLICE_ARMED e && s.passed (s.rd .RTE_SLICE_COMMIT e)

/-- COMMIT_TAKES_EFFECT: at the named tick the staged tables come into force and the epoch increments, R271; nothing of a commit takes
effect between ticks (R18). -/
def execCommitTakesEffect (e : Fin 64) (s : State) : Res :=
  if s.commitDue e && s.atTick then .next (s.commitNow e) else .next s

/-- Every commit that is due at a tick, and the epochs of holder entries that a decision has announced (R271). -/
def State.commitsTick (s : State) : State :=
  let s := (List.range 64).foldl (fun s e => if s.commitDue e then s.commitNow e else s) s
  let due := s.epochDue
  due.foldl State.epochUp { s with epochDue := [] }

/-! ## Packets of an entry that is removed, R274 and R286 -/

/-- The frames of a VC's queue without the packets of a slice: a packet of which frames were sent already goes on. -/
def keepPackets (slice : Nat) (going : Bool) : List TxFrame → List TxFrame
  | [] => []
  | f :: fs =>
    if going then f :: keepPackets slice (!f.eop) fs
    else if f.slice = slice then keepPackets slice false fs
    else f :: keepPackets slice (!f.eop) fs

/-- A VC's queue without the waiting packets of a slice. -/
def dropWaiting (slice : Nat) (q : List TxFrame) : List TxFrame :=
  keepPackets slice (q.head?.elim false fun f => !f.sop) q

/-- Packets of a slice that wait on a VC. -/
def waitingPackets (slice : Nat) (q : List TxFrame) : Nat := (q.filter fun f => f.sop && f.slice == slice).length

/-- Forget the record of the routing registers of an entry. -/
def State.dropRoutes (s : State) (e : Nat) : State :=
  { s with ccRecord := { s.ccRecord with routes :=
      ((Reg.RTE_SLICE, e) :: stagedKeys e).foldl (fun m k => mapSet (fun _ => 0) (regKey k.1 k.2) 0 m) s.ccRecord.routes } }

/-- Packets of a slice that wait to be forwarded when its entry is removed are dropped and counted (R286). -/
def State.dropPackets (s : State) (slice : Nat) : State :=
  (List.range 24).foldl (fun s n => (List.range 3).foldl (fun s v =>
    let q := (s.link n).queue.get v
    let gone := waitingPackets slice q
    if gone = 0 then s
    else (s.updLink n fun l => { l with queue := l.queue.upd v (dropWaiting slice) }).bump .RTE_TRANSIT_DROP 0 gone) s) s

/-! ## Field owners, R276 -/

/-- The control complex gives a field to a slice, and keeps its record (R500). -/
def State.giveField (s : State) (f slice : Nat) : State :=
  let s := (s.setFld F.RTE_FLD_OWNER_SLICE_ID f slice).setFld F.RTE_FLD_OWNER_VALID f 1
  { s with ccRecord := { s.ccRecord with fields := mapSet (fun _ => 0) f (slice + 1) s.ccRecord.fields } }

/-- The control complex takes a field from its slice. -/
def State.takeField (s : State) (f : Nat) : State :=
  let s := s.setFld F.RTE_FLD_OWNER_VALID f 0
  { s with ccRecord := { s.ccRecord with fields := mapSet (fun _ => 0) f 0 s.ccRecord.fields } }

/-- A set-up write of a field's owner, in the record as well (R500). -/
def State.ownerWritten (s : State) (f : Nat) : State :=
  if s.flag F.RTE_FLD_OWNER_VALID f then s.giveField f (s.fld F.RTE_FLD_OWNER_SLICE_ID f) else s.takeField f

/-- A set-up write of a slice entry, in the record as well (R500); packets that wait for an entry that is removed are dropped (R286). -/
def State.entryWritten (s : State) (e : Nat) (was : Bool) : State :=
  if s.flag F.RTE_SLICE_ACTIVE e then s.noteRoute .RTE_SLICE e
  else if was then (s.dropPackets (s.fld F.RTE_SLICE_SLICE_ID e)).dropRoutes e
  else s

end Sys2Proof.Machine
end

