-- ==== Sys2Proof/Machine/Power.lean ====
section
/-!
DEFINITION. Sys2Proof/Machine/Power.lean: the power arbiter of chapter 15: budget and tokens (R363 to R366), grants and
buckets (R367 to R370), feeds (R374), and clock steps (R375, R376).
-/
namespace Sys2Proof.Machine

/-- Change the arbiter's own state. -/
def State.updPower (s : State) (g : Power → Power) : State := { s with power := g s.power }

/-! ## Pre-emptions asked for -/

/-- Ask for a slice's pre-emption at the next tick; one that is being restored is pre-empted once it is (R47), and one that is being saved, or
is stopped, is not. -/
def State.requestPre (s : State) (n : Nat) (c : PreCause) : State :=
  let p := (s.slot n).phase
  if (p = .placed ∨ p = .restoring ∨ p = .restored) ∧ s.flag F.SEQ_SLOT_CFG_ACTIVE n ∧ !((s.slot n).requests.any fun r => r.code == c.code) then
    s.updSlot n fun v => { v with requests := v.requests ++ [c] }
  else s

/-! ## Budget and tokens -/

/-- The budget B that the feeds and PWR_BUDGET give, R363. A feed's voltage is in units of 0.1 V. -/
def State.budget (s : State) : Nat :=
  let a := s.flag F.PWR_STATUS_FEED_A
  let b := s.flag F.PWR_STATUS_FEED_B
  let feeds :=
    if a && b then 18000
    else if a then min 10000 (190 * s.power.voltsA / 10)
    else if b then min 10000 (190 * s.power.voltsB / 10)
    else 0
  min (s.fld F.PWR_BUDGET_WATTS) feeds

/-- T of a budget, R364: floor((B × η − W_res) × P ÷ 1,000) with η in per mille. -/
def State.tokens (s : State) (b : Nat) : Nat :=
  (b * s.fld F.PWR_CONV_ETA - s.fld F.PWR_CONV_RESERVE * 1000) * s.period / 1000000

/-- Idle cost of a field in service, R365. -/
def State.fieldIdle (s : State) : Nat := ceilDiv (450 * s.fld F.PWR_IDLE_CORE_MW * s.period) 1000000

/-- I_mod: the idle cost of every field in service. -/
def State.moduleIdle (s : State) : Nat := ((List.range 56).filter s.inService).length * s.fieldIdle

/-- I_s of a slot's slice. -/
def State.slotIdle (s : State) (n : Nat) : Nat := (s.fieldsOf n).length * s.fieldIdle

/-- Demand factor of a clock step in per mille, Table 15.2. -/
def stepFactor (st : Nat) : Nat :=
  match st with
  | 0 => 1000
  | 1 => 880
  | 2 => 770
  | _ => 660

/-- The clock step that falls due at the coming tick, with its cause: fixed at the first close since the latest tick (R367). -/
def State.stepAtTick (s : State) : Option (Nat × Nat) := if s.power.nextB.isSome then s.power.dueStep else s.power.nextStep

/-- The clock step that is in force at the coming tick. -/
def State.comingStep (s : State) : Nat := (s.stepAtTick.map (·.1)).getD (s.fld F.PWR_STATUS_STEP)

/-- The clock step in force when the next step asked for would take effect. -/
def State.baseStep (s : State) : Nat := (s.power.dueStep.map (·.1)).getD (s.fld F.PWR_STATUS_STEP)

/-- What the coming tick will have in force is fixed at the first close since the latest tick (R367). -/
def State.freezePower (s : State) : State :=
  if s.power.nextB.isSome then s
  else
    let limits := (List.range 56).map fun n => s.fld F.PWR_SLOT_LIMIT_LIMIT n
    s.updPower fun p => { p with nextB := some s.budget, limits := limits, dueStep := p.nextStep, nextStep := none, wants := [], granted := 0 }

/-- The limit of a slot at the coming tick. -/
def State.limitOf (s : State) (n : Nat) : Nat :=
  if s.power.nextB.isSome then s.power.limits.getD n 0xFFFFFF else s.fld F.PWR_SLOT_LIMIT_LIMIT n

/-- T of the coming tick. -/
def State.comingT (s : State) : Nat := s.tokens (s.power.nextB.getD s.budget)

/-- Does the coming tick cut the power of a slot's slice below its idle cost (R371, R372)? -/
def State.powerCut (s : State) (n : Nat) : Bool :=
  decide (s.comingT < s.moduleIdle) || (s.limitOf n != 0xFFFFFF && decide (s.limitOf n < s.slotIdle n))

/-- ENERGY of a program header. -/
def headerEnergy (h : Nat) : Nat := bits h 38 16

/-- Is a program index valid on every core of a slot (R50)? -/
def State.validOn (s : State) (n prog : Nat) : Bool :=
  let cs := s.coresOf n
  !cs.isEmpty && cs.all fun c => (s.core c.1 c.2).valid prog

/-- D_s of a slot's slice for a program at a clock step, R366 and R59; 0 without a valid program. -/
def State.demandOf (s : State) (n prog st : Nat) : Nat :=
  if s.validOn n prog then
    ceilDiv (stepFactor st * ((s.coresOf n).map fun c => headerEnergy ((s.core c.1 c.2).header prog)).sum) 1000000
  else 0

/-- Does SEQ_NEXT of a slot name a valid program, R56? -/
def State.nextValid (s : State) (n : Nat) : Bool := s.flag F.SEQ_NEXT_VALID n && s.validOn n (s.fld F.SEQ_NEXT_INDEX n)

/-- The program that SEQ_NEXT of a slot names now; an index beyond the table when it names none. -/
def State.nextProgram (s : State) (n : Nat) : Nat := if s.flag F.SEQ_NEXT_VALID n then s.fld F.SEQ_NEXT_INDEX n else 256

/-- Does a slot's slice hold a bucket: it is placed, or being restored (R369)? -/
def State.hasBucket (s : State) (n : Nat) : Bool :=
  s.flag F.SEQ_SLOT_CFG_ACTIVE n && ((s.slot n).phase == .placed || (s.slot n).phase == .restoring ||
    (s.slot n).phase == .restored)

/-- Bucket of a slot. -/
def State.bucket (s : State) (n : Nat) : Nat := s.fld F.PWR_SLOT_STATE_BUCKET n

/-- The want of a slot, R367. -/
def State.want (s : State) (n d : Nat) : Nat :=
  let l := s.limitOf n
  let w := 2 * d - s.bucket n
  if l = 0xFFFFFF then w else min (l - s.slotIdle n) w

/-- One token each to slots that have not reached their want, in slot order, until the rest is spent. -/
def topUp : Nat → List (Nat × Nat × Nat) → List (Nat × Nat)
  | _, [] => []
  | rest, (n, w, g) :: l =>
    if rest > 0 ∧ g < w then (n, g + 1) :: topUp (rest - 1) l else (n, g) :: topUp rest l

/-- A list turned so that it starts at the first slot at or after a number. -/
def turnAt (k : Nat) (l : List (Nat × Nat × Nat)) : List (Nat × Nat × Nat) :=
  (l.filter fun x => decide (k ≤ x.1)) ++ l.filter fun x => decide (x.1 < k)

/-- The grants of a room for wants by slot, R367; `start` is the slot at which the tokens left by rounding begin. -/
def grantsOf (room start : Nat) (ws : List (Nat × Nat)) : List (Nat × Nat) :=
  let total := (ws.map (·.2)).sum
  if total ≤ room then ws
  else
    let base := ws.map fun w => (w.1, w.2, room * w.2 / total)
    topUp (room - (base.map fun x => x.2.2).sum) (turnAt start base)

/-- The wants of all slots with a bucket at a close, by slot: those of slots that have closed since the tick as they were then. -/
def State.allWants (s : State) : List (Nat × Nat) :=
  ((List.range 56).filter s.hasBucket).map fun n =>
    ((s.power.wants.find? fun w => w.1 == n).getD (n, s.want n (s.demandOf n (s.nextProgram n) s.comingStep)))

/-- GRANT: at the close of slots the arbiter computes each slice's grant for the coming tick, with the budget, the limits and the
clock step that will be in force (R367), for the wants of all slices, and within what earlier closes have left (log entry 108). Below I_mod it
grants nothing (R372). -/
def State.powerClose (s : State) (closing : List Nat) : State :=
  let s := s.freezePower
  let room := s.comingT - s.moduleIdle
  let s := closing.foldl (fun s n => (s.setFld F.PWR_SLOT_STATE_DEMAND n (s.demandOf n (s.nextProgram n) s.comingStep)).setFld
    F.PWR_SLOT_IDLE_IDLE n (s.slotIdle n)) s
  let ws := s.allWants
  let s := s.updPower fun p => { p with room := room, wants := ws.filter fun w => closing.contains w.1 || p.wants.any fun x => x.1 == w.1 }
  ((grantsOf room ((s.ticks + 1) % 56) ws).filter fun g => closing.contains g.1).foldl (fun s g =>
    let left := min g.2 (room - s.power.granted)
    (s.updSlot g.1 fun v => { v with grant := left }).updPower fun p => { p with granted := p.granted + left }) s

/-- The condition on power of R27: bucket and grant cover the demand (R368). -/
def State.covered (s : State) (n : Nat) : Bool :=
  decide (s.bucket n + (s.slot n).grant ≥ s.fld F.PWR_SLOT_STATE_DEMAND n)

/-- TOKEN_SPEND: the grant enters the bucket; a frame that starts spends its demand; the bucket is cut to one frame's cost of
the program now named (R368). -/
def State.tokenSpend (s : State) (n spent : Nat) : State :=
  let b := s.bucket n + (s.slot n).grant - spent
  let now := s.demandOf n (s.nextProgram n) (s.fld F.PWR_STATUS_STEP)
  let s := s.updSlot n fun v => { v with grant := 0 }
  s.setFld F.PWR_SLOT_STATE_BUCKET n (min b now)

/-! ## The ledger at a tick -/

/-- The clock step that is due takes effect, R375; one asked for since the close waits for the next tick. -/
def State.stepTick (s : State) : State :=
  let due := s.stepAtTick
  let s := s.updPower fun p => if p.nextB.isSome then { p with dueStep := none } else { p with nextStep := none }
  match due with
  | none => s
  | some (st, cause) =>
    let old := s.fld F.PWR_STATUS_STEP
    let s := s.setFld F.PWR_STATUS_STEP 0 st
    if st > old then
      ((s.setFld F.PWR_STATUS_CAUSE 0 cause).bump .PWR_THROTTLE).log 0x11 0x8006 0 (st + cause * 4)
    else s.log 0x11 0x8006 0 st

/-- The budget of the tick comes into force, with T and the pool (R363, R364). -/
def State.budgetTick (s : State) : State :=
  let b := s.power.nextB.getD s.budget
  let t := s.tokens b
  let s := (s.setFld F.PWR_STATUS_B_W 0 b).setFld F.PWR_FRAME_T 0 t
  let s := s.setFld F.PWR_IDLE_MODULE 0 s.moduleIdle
  (s.setFld F.PWR_FRAME_POOL 0 (t - s.moduleIdle - s.power.granted)).updPower fun p => { p with nextB := none }

/-- TOKEN_AUDIT: P_left + I_mod + Σ g = T, and every bucket lies between 0 and its demand; a failure is counted and recorded
and empties every bucket (R370). Below I_mod nothing was granted and there is no pool. -/
def State.tokenAudit (s : State) (demand : Nat → Nat) : State :=
  let t := s.fld F.PWR_FRAME_T
  let left := s.fld F.PWR_FRAME_POOL + s.moduleIdle + s.power.granted
  let ok := (decide (t < s.moduleIdle) || left == t) &&
    ((List.range 56).all fun n => !s.hasBucket n || decide (s.bucket n ≤ demand n))
  let s := s.updPower fun p => { p with granted := 0 }
  if ok then s
  else
    let s := (s.bump .PWR_AUDIT).log 0x11 0x8004 0 (left % 2 ^ 32 + t * 2 ^ 32)
    (List.range 56).foldl (fun s n => s.setFld F.PWR_SLOT_STATE_BUCKET n 0) s

/-- The die sensors at a tick: the hottest, ticks above HOT_C, and since when all are below COOL_C (R375). -/
def State.tempTick (s : State) (dieMax : Nat) : State :=
  let s := s.setFld F.PWR_TEMP_DIE_MAX 0 dieMax
  let hot := decide (dieMax > s.fld F.PWR_TEMP_HOT_C)
  let cool := decide (dieMax < s.fld F.PWR_TEMP_COOL_C)
  s.updPower fun p => { p with
    hot := if hot then p.hot + 1 else 0
    heatRun := p.heatRun && hot
    overRun := p.overRun && decide (s.up < p.overSeen + 10 * msec)
    coolSince := if cool then p.coolSince else s.up }

/-! ## Feeds, R374 -/

/-- Is a feed's voltage within 48 to 60 V, in units of 0.1 V? -/
def voltsGood (v : Nat) : Bool := decide (480 ≤ v) && decide (v ≤ 600)

/-- The voltage of a feed is seen: out of 48 to 60 V its 100 ms start again (R374). -/
def State.voltsSeen (s : State) (feed v : Nat) : State :=
  if voltsGood v then s else s.updPower fun p => if feed = 0 then { p with goodA := s.up } else { p with goodB := s.up }

/-- Voltages of both feeds are seen. -/
def State.feedSeen (s : State) (a b : Nat) : State := (s.voltsSeen 0 a).voltsSeen 1 b

/-- FEED_RETURN: a feed within 48 to 60 V for 100 ms counts as present again, R374. -/
def execFeedReturn (feed : Fin 2) (volts : BitVec 12) (s : State) : Res :=
  let since := if feed = 0 then s.power.goodA else s.power.goodB
  if !voltsGood volts.toNat ∨ s.up < since + 100 * msec then .next (s.voltsSeen feed volts.toNat)
  else
    let s := if !s.domains.control then s
             else if feed = 0 then (s.setFld F.PWR_STATUS_FEED_A 0 1).updPower fun p => { p with voltsA := volts.toNat }
             else (s.setFld F.PWR_STATUS_FEED_B 0 1).updPower fun p => { p with voltsB := volts.toNat }
    let s := if s.flag F.DCK_STATUS_HOLDUP then (s.setFld F.DCK_STATUS_HOLDUP 0 0).updDeck fun d => { d with holdupAt := none } else s
    if s.flag F.PWR_STATUS_FEED_A && s.flag F.PWR_STATUS_FEED_B then .next (s.serviceOver 2) else .next s

/-! ## Clock steps, R375 and R376 -/

/-- Causes of a slower step. -/
def stepHeat : Nat := 1
/-- Overdraw. -/
def stepOverdraw : Nat := 2
/-- Ceiling. -/
def stepCeiling : Nat := 3

/-- A further cause at step 3 changes nothing and is recorded once for its run. -/
def State.stepStuck (s : State) (cause : Nat) : State :=
  let known := if cause = stepHeat then s.power.heatRun else s.power.overRun
  let s := s.updPower fun p => if cause = stepHeat then { p with heatRun := true } else { p with overRun := true }
  if known then s else s.log 0x11 0x8006 0 (3 + cause * 4 + 16)

/-- A step slower is asked for, in place of a faster one; one that is as slow already stays (R375 steps once at a tick). -/
def State.askSlower (s : State) (st cause : Nat) : State :=
  s.updPower fun p => { p with
    nextStep := match p.nextStep with
      | some (x, c) => if x ≥ st then some (x, c) else some (st, cause)
      | none => some (st, cause)
    coolSince := s.up }

/-- One step slower at the next tick, for heat or overdraw. -/
def State.stepSlower (s : State) (cause : Nat) : State :=
  let st := s.baseStep
  let s := s.updPower fun p => if cause = stepHeat then { p with hot := 0 } else { p with overdue := false }
  if st ≥ 3 then s.stepStuck cause else s.askSlower (st + 1) cause

/-- CLOCK_STEP_SLOWER: heat for 16 ticks or overdraw steps the core clock one step slower at the next tick, R375. -/
def execClockStepSlower (s : State) : Res :=
  if s.power.hot ≥ 16 then .next (s.stepSlower stepHeat)
  else if s.power.overdue then .next (s.stepSlower stepOverdraw)
  else .next s

/-- CLOCK_STEP_FASTER: 1 s cool without overdraw steps the clock one step faster, within CEILING, R375. -/
def execClockStepFaster (s : State) : Res :=
  let st := s.baseStep
  if st > s.fld F.PWR_CLOCK_CEILING ∧ s.up ≥ s.power.coolSince + second ∧ !s.power.overdue ∧ s.power.nextStep = none then
    .next (s.updPower fun p => { p with nextStep := some (st - 1, 0), coolSince := s.up })
  else .next s

/-- OVERDRAW: measured input or feed current beyond its limit counts as overdraw, R376. The operands are the mean input over
the last 10 ms and of the latest frame, in W, and the mean currents of the feeds over the last 10 ms, in A. -/
def execOverdraw (mean frame ampsA ampsB : BitVec 16) (s : State) : Res :=
  let past := decide (mean.toNat * 100 > s.fld F.PWR_STATUS_B_W * 103) || decide (frame.toNat > 20000) ||
    decide (ampsA.toNat > 196) || decide (ampsB.toNat > 196)
  let recent : Bool := match s.power.overAt with
    | some t => decide (s.up < t + 10 * msec)
    | none => false
  if !past then .next s
  else
    let s := s.updPower fun p => { p with overSeen := s.up, coolSince := s.up }
    if recent then .next s
    else .next ((s.bump .PWR_OVERDRAW).updPower fun p => { p with overdue := true, overAt := some s.up })

/-- A write of PWR_CLOCK: a CEILING slower than the step in force moves the module to it at the next tick. -/
def State.ceilingWrite (s : State) (c : Nat) : State :=
  let s := s.setFld F.PWR_CLOCK_CEILING 0 c
  if c > s.baseStep then s.askSlower c stepCeiling else s

/-- CEILING_WRITE: a write of PWR_CLOCK.CEILING slower than the step in force moves the module to the ceiling, R375. -/
def execCeilingWrite (c : Fin 4) (s : State) : Res := .next (s.ceilingWrite c)

end Sys2Proof.Machine
end

