-- ==== Sys2Proof/Machine/Image.lean ====
section
/-!
DEFINITION. Sys2Proof/Machine/Image.lean: program-set images (R82 to R84), the validation of programs at load (Table 3.1),
the loading of step stores (R51, R54, R55), and writes of SEQ_NEXT (R56).
-/
namespace Sys2Proof.Machine

/-! ## The image, R82 -/

/-- An image: the little-endian number held by n bytes from an offset. -/
abbrev Img := Nat → Nat → Nat

/-- An image given as bytes. -/
def bytesImg (bs : List Byte) : Img := fun o n => leAt bs o n

/-- An image in this module's memory. -/
def State.memImg (s : State) (base : Nat) : Img := fun o n => ofBytes (s.mem.bytes (base + o) n)

/-- A section table entry, Table 3.15. -/
structure Sec where
  kind : Nat
  off : Nat
  len : Nat
  count : Nat
deriving DecidableEq, Repr

/-- Entry i of the section table. -/
def Img.sec (m : Img) (i : Nat) : Sec :=
  let o := 256 + 32 * i
  { kind := m o 4, off := m (o + 8) 8, len := m (o + 16) 8, count := m (o + 24) 4 }

/-- The section table. -/
def Img.secs (m : Img) : List Sec := (List.range 8).map m.sec

/-- Reserved bytes of a section table entry. -/
def Img.secReserved (m : Img) (i : Nat) : Bool := m (256 + 32 * i + 4) 4 != 0 || m (256 + 32 * i + 28) 4 != 0

/-- LENGTH of the header. -/
def Img.length (m : Img) : Nat := m 8 8
/-- EXTENT of the header. -/
def Img.extent (m : Img) : Nat := m 16 2
/-- FIELDS of the header. -/
def Img.fields (m : Img) : Nat := m 18 1
/-- LIVE of the header. -/
def Img.live (m : Img) : Nat := m 20 6

/-- The section of a kind. -/
def Img.find (m : Img) (kind : Nat) : Option Sec := m.secs.find? fun s => s.kind == kind

/-- Offset of the section of a kind, 0 without one. -/
def Img.offOf (m : Img) (kind : Nat) : Nat := match m.find kind with | some s => s.off | none => 0

/-- COUNT of the section of a kind. -/
def Img.countOf (m : Img) (kind : Nat) : Nat := match m.find kind with | some s => s.count | none => 0

/-- Entry size of a section kind, Table 3.16; 0 for INIT. -/
def secSize (kind : Nat) : Nat :=
  match kind with
  | 1 => 4
  | 2 => 262144
  | 3 => 8
  | 4 => 8
  | 5 => 32
  | _ => 0

/-- Does the header break Table 3.14, or the area up to byte 4,095 hold a byte that is not zero? -/
def Img.headerBad (m : Img) : Bool :=
  m 0 4 != 0x50465856 || m 4 2 != 2 || m 6 2 != 0 || m.length % 4096 != 0 || m.length = 0 || bits m.extent 14 2 != 0 ||
  m.fields = 0 || m.fields > 56 || m 19 1 != 0 || m 26 6 != 0 || m 64 192 != 0 || m 512 3584 != 0 ||
  (List.range 8).any fun i =>
    m.secReserved i || ((m.sec i).kind = 0 && ((m.sec i).off != 0 || (m.sec i).len != 0 || (m.sec i).count != 0))

/-- Does section i break the placement rules of R82? DESIGN CHOICE (log entry 97): a section of LENGTH 0 whose offset lies strictly inside
another overlaps it. -/
def Img.misplaced (m : Img) (i : Nat) : Bool :=
  let s := m.sec i
  s.off % 4096 != 0 || s.off < 4096 || s.off + s.len > m.length ||
  (List.range i).any fun j =>
    let t := m.sec j
    t.kind != 0 && t.off < s.off + s.len && s.off < t.off + t.len

/-- The first kind at fault of the section table, R84; none when the table is in order. -/
def Img.tableFault (m : Img) : Option Nat :=
  let used := (List.range 8).filter fun i => (m.sec i).kind != 0
  match [1, 2, 3, 4, 5].find? fun k => (m.find k).isNone with
  | some k => some k
  | none =>
    match used.find? fun i => (m.sec i).kind > 6 || m.misplaced i ||
        (List.range i).any fun j => (m.sec j).kind == (m.sec i).kind with
    | some i => some (m.sec i).kind
    | none =>
      match used.find? fun i =>
          if (m.sec i).kind = 6 then (m.sec i).count != 0
          else (m.sec i).len != (m.sec i).count * secSize (m.sec i).kind with
      | some i => some (m.sec i).kind
      | none => none

/-- Is the header with its section table valid under R82? -/
def Img.tableOk (m : Img) : Bool := !m.headerBad && m.tableFault.isNone

/-! ## The sections, R83 and R84 -/

/-- STEP_MAP entry of a core. -/
def Img.stepMap (m : Img) (i : Nat) : Nat := m (m.offOf 1 + 4 * i) 4

/-- A dependency record, Table 3.17. -/
def Img.depend (m : Img) (i : Nat) : Nat := m (m.offOf 3 + 8 * i) 8

/-- Program of a schedule entry. -/
def Img.program (m : Img) (i : Nat) : Nat := bits (m (m.offOf 4 + 8 * i) 8) 0 8

/-- Repeat count of a schedule entry. -/
def Img.repeats (m : Img) (i : Nat) : Nat := bits (m (m.offOf 4 + 8 * i) 8) 32 32

/-- A memory-map region, Table 3.18. -/
structure MapRegion where
  va : Nat
  pages : Nat
  place : Nat
  flags : Nat
  rank : Nat
  init : Nat
  reserved : Nat
deriving DecidableEq, Repr

/-- Region i of MEMMAP. -/
def Img.region (m : Img) (i : Nat) : MapRegion :=
  let o := m.offOf 5 + 32 * i
  { va := m o 8, pages := m (o + 8) 4, place := m (o + 12) 1, flags := m (o + 13) 1, rank := m (o + 14) 2
    init := m (o + 16) 8, reserved := m (o + 24) 8 }

/-- The regions of MEMMAP. -/
def Img.regions (m : Img) : List MapRegion := (List.range (m.countOf 5)).map m.region

/-- Does the region map 1 GiB pages? -/
def MapRegion.huge (r : MapRegion) : Bool := bitOf r.flags 1

/-- Does a region break a rule of R84 by itself? -/
def MapRegion.bad (r : MapRegion) (members initLen : Nat) (hasInit : Bool) : Bool :=
  bits r.va 0 21 != 0 || bits r.va 48 16 != 0 || r.pages = 0 || r.place > 2 || bits r.flags 2 6 != 0 ||
  (r.place = 2 && r.rank ≥ members) || (r.place ≠ 2 && r.rank != 0) ||
  (r.huge && (r.va % 2 ^ 30 != 0 || r.pages % 512 != 0)) || r.va + r.pages * 2 ^ 21 > 2 ^ 48 ||
  (r.init ≠ 0xFFFFFFFFFFFFFFFF && (!hasInit || r.init + r.pages * 2 ^ 21 > initLen)) || r.reserved != 0

/-- Do two regions overlap? -/
def MapRegion.meets (r t : MapRegion) : Bool :=
  r.va < t.va + t.pages * 2 ^ 21 && t.va < r.va + r.pages * 2 ^ 21

/-- Does some pair of a list of regions overlap? -/
def anyMeet : List MapRegion → Bool
  | [] => false
  | r :: rs => rs.any r.meets || anyMeet rs

/-- Is a list of dependency records sorted by NEEDED_BY? -/
def sortedBy : List Nat → Bool
  | a :: b :: l => bits a 0 8 ≤ bits b 0 8 && sortedBy (b :: l)
  | _ => true

/-- Members of a box extent (X [4:0], Y [9:5], Z [13:10], less one). -/
def boxMembers (e : Nat) : Nat := (bits e 0 5 + 1) * (bits e 5 5 + 1) * (bits e 10 4 + 1)

/-- The KIND of the section at fault of an image that a LOAD names, R84 (zero for the header); none when the image keeps the
rules. -/
def Img.fault (m : Img) (extent fields len : Nat) : Option Nat :=
  let members := boxMembers extent
  let deps := (List.range (m.countOf 3)).map m.depend
  let regs := m.regions
  let initLen := match m.find 6 with | some s => s.len | none => 0
  if m.headerBad || m.length != len * 4096 || m.extent != extent || m.fields != fields then some 0
  else match m.tableFault with
  | some k => some k
  | none =>
    if m.countOf 1 != members * fields * 450 || (List.range (m.countOf 1)).any fun i => m.stepMap i ≥ m.countOf 2 then some 1
    else if m.countOf 4 = 0 || m.countOf 4 > 65535 || (List.range (m.countOf 4)).any fun i =>
        m.program i = 255 || m.repeats i = 0 || bits (m (m.offOf 4 + 8 * i) 8) 8 24 != 0 then some 4
    else if (deps.any fun d => bits d 0 8 = 255 || bits d 8 8 = 255 || bits d 30 8 = 0 || bits d 38 26 != 0) || !sortedBy deps
      then some 3
    else if (regs.any fun r => r.bad members initLen (m.find 6).isSome) || anyMeet regs then some 5
    else none

/-! ## Step stores -/

/-- The core that an image's step store i makes. -/
def Img.store (m : Img) (i : Nat) : Core :=
  let base := m.offOf 2 + 262144 * i
  { Core.init with steps := (List.range 16384).filterMap fun j =>
      let v := m (base + 16 * j) 16
      if v = 0 then none else some (j, BitVec.ofNat 128 v) }

/-- CLASS of a step. -/
def stepClass (x : Nat) : Nat := bits x 124 4
/-- OP of a step. -/
def stepOp (x : Nat) : Nat := bits x 120 4
/-- Is a step END? -/
def stepIsEnd (x : Nat) : Bool := stepClass x == 0 && stepOp x == 1
/-- Is a step LOOP? -/
def stepIsLoop (x : Nat) : Bool := stepClass x == 1
/-- BODY of a LOOP. -/
def loopBody (x : Nat) : Nat := bits x 82 14
/-- Passes of a LOOP. -/
def loopCount (x : Nat) : Nat := bits x 96 16 + 1

/-- Depth of an MMA. -/
def mmaDepth (x : Nat) : Nat := bits x 90 10 + 1
/-- FMT of an MMA. -/
def mmaFmt (x : Nat) : Nat := bits x 108 4

/-- Does a body step use a reserved CLASS, OP or encoding, or set a reserved bit (code 0x3)? -/
def stepBad (x : Nat) : Bool :=
  let op := stepOp x
  match stepClass x with
  | 0 => op > 2 || bits x 0 112 != 0
  | 1 => op != 0 || loopBody x = 0 || loopBody x > 16320 || bits x 0 82 != 0
  | 2 => op > 2 || (if op = 2 then bits x 0 76 != 0 else bits x 0 92 != 0)
  | 3 => op > 3 || bits x 0 81 != 0
  | 4 => op > 1 || mmaFmt x > 9 || bits x 0 90 != 0 || (2 ≤ mmaFmt x && mmaFmt x ≤ 6 && mmaDepth x % 32 != 0)
  | 5 => op > 9 || bits x 0 56 != 0
  | 6 => op != 0 || bits x 102 4 > 10 || bits x 100 2 = 3 || bits x 0 80 != 0
  | 7 => op > 1 || bits x 0 86 != 0
  | 8 => op != 0 || bits x 0 56 != 0
  | 9 => op > 1 || bits x 32 6 != 0 || bits x 0 27 != 0
  | 10 => op != 0 || bits x 0 88 != 0
  | _ => true

/-- Largest depth of an MMA by format, Table 4.3. -/
def depthLimit (fmt : Nat) : Nat := if fmt ≤ 1 ∨ fmt = 7 then 512 else 256

/-- Does a LOAD exceed its operand slot or an MMA its depth limit (code 0x5)? -/
def stepTooLong (x : Nat) : Bool :=
  match stepClass x with
  | 3 => bits x 81 10 + 1 > (match stepOp x with | 0 => 128 | 1 => 256 | _ => 4)
  | 4 => mmaDepth x > depthLimit (mmaFmt x)
  | _ => false

/-- Accumulator tiles that a step reads. -/
def stepReads (x : Nat) : List Nat :=
  match stepClass x, stepOp x with
  | 4, 0 => [bits x 100 6]
  | 5, 2 => [bits x 100 6, bits x 94 6, bits x 88 6]
  | 5, op => if op = 0 ∨ op = 1 ∨ op = 3 then [bits x 100 6, bits x 94 6] else [bits x 100 6]
  | 6, _ => [bits x 106 6]
  | 7, 0 => [bits x 106 6]
  | _, _ => []

/-- The accumulator tile that a step writes. -/
def stepWrites (x : Nat) : Option Nat :=
  match stepClass x, stepOp x with
  | 4, _ => some (bits x 100 6)
  | 5, _ => some (bits x 106 6)
  | 7, 1 => some (bits x 106 6)
  | _, _ => none

/-- Is a tile read before it is written, in the order of the steps (code 0xA)? -/
def readsEarly : List Nat → List Nat → Bool
  | _, [] => false
  | done, x :: xs =>
    (stepReads x).any (fun t => !done.contains t) ||
      readsEarly (match stepWrites x with | some t => t :: done | none => done) xs

/-- Loops open at a step: the index after the body's last step, and the passes. -/
abbrev Open := List (Nat × Nat)

/-- Close the loops whose body ends before step i. -/
def closeLoops (i : Nat) (l : Open) : Open := l.filter fun p => decide (i < p.1)

/-- Open the loop of a step. -/
def openLoop (i x : Nat) (l : Open) : Open :=
  if stepIsLoop x then (i + 1 + loopBody x, loopCount x) :: l else l

/-- Do loops nest deeper than 4, or does a body extend past the end of what encloses it (code 0x4)? `stop` is the number of
body steps. -/
def loopsBad (stop : Nat) : Nat → Open → List Nat → Bool
  | _, _, [] => false
  | i, l, x :: xs =>
    let l := closeLoops i l
    let outer := match l with | p :: _ => p.1 | [] => stop
    (stepIsLoop x && (decide (i + 1 + loopBody x > outer) || decide (l.length ≥ 4))) ||
      loopsBad stop (i + 1) (openLoop i x l) xs

/-- Is an END in a loop body or before the last step, or is the last step no END (code 0x9)? -/
def endsBad : Nat → Open → List Nat → Bool
  | _, _, [] => true
  | i, l, [x] => !stepIsEnd x || !(closeLoops i l).isEmpty
  | i, l, x :: xs => stepIsEnd x || endsBad (i + 1) (openLoop i x (closeLoops i l)) xs

/-- SEND steps executed, counted through the loops. -/
def sendsOf : Nat → Open → List Nat → Nat
  | _, _, [] => 0
  | i, l, x :: xs =>
    let l := closeLoops i l
    (if stepClass x = 8 then (l.map (·.2)).foldl (· * ·) 1 else 0) + sendsOf (i + 1) (openLoop i x l) xs

/-! ## Programs, Table 3.1 -/

/-- LENGTH of a program table entry. -/
def entryLength (e : Nat) : Nat := bits e 14 14

/-- Body steps of a program. -/
def Core.body (k : Core) (i : Nat) : List Nat :=
  (List.range (entryLength (k.entry i) - 9)).map fun j => k.step (k.start i + 9 + j)

/-- The raw descriptor of region j of a program. -/
def Core.rawRegion (k : Core) (i j : Nat) : Nat := bits (k.step (k.start i + 1 + j / 2)) (64 * (j % 2)) 64

/-- Does a region descriptor set a reserved bit or use a reserved encoding (code 0x3)? TYPE 3 has a code of its own. -/
def regionBad (x : Nat) : Bool :=
  match bits x 0 2 with
  | 0 => x != 0
  | 1 => bits x 4 4 != 0 || bits x 40 24 != 0 || (!(bitOf x 2) && bitOf x 3) || bits x 24 16 = 0
  | 2 => bits x 4 4 != 0 || (!(bitOf x 2) && bitOf x 3) || bits x 44 20 = 0
  | _ => false

/-- Units that a descriptor covers from BASE. -/
def Region.span (r : Region) : Nat := if r.parity then 2 * r.len else r.len

/-- Do the regions in force in frames of parity p overlap? One without a line overlaps none. -/
def Region.meets (r t : Region) (p : Nat) : Bool :=
  r.typ == t.typ && r.typ != 0 && r.len != 0 && t.len != 0 && decide (r.low p < t.low p + t.len) && decide (t.low p < r.low p + r.len)

/-- The half of the receive area that receives in frames of parity p, as a region. -/
def recvHalf (h p : Nat) : Region :=
  { typ := 1, parity := false, phase := 0, base := bits h 80 16 + p * (bits h 96 8) * 64, len := bits h 96 8 * 64 }

/-- Are n lines from a line within the live banks? -/
def inLive (live line n : Nat) : Bool :=
  n = 0 || (rangeFrom (line / 1024) ((line + n - 1) / 1024 - line / 1024 + 1)).all fun b => bitOf live b

/-- Lines of the receive area. -/
def recvLines (h : Nat) : Nat := 2 * (bits h 96 8) * 64

/-- Does program i of a core break the rule of a code? -/
def Core.programBreaks (k : Core) (i live code : Nat) : Bool :=
  let h := k.header i
  let b := k.body i
  let ins := k.inputs i
  let outs := k.outputs i
  let regions := ins ++ outs
  match code with
  | 0x1 => bits h 0 16 != 0x5646 || bits h 16 4 != 2
  | 0x2 => k.start i < 64 || k.start i + entryLength (k.entry i) > 16384 || entryLength (k.entry i) != bits h 24 14
  | 0x3 => bits h 20 4 != 0 || bits h 56 8 != 0 || bits h 104 8 != 0 ||
      ((List.range 16).any fun j => regionBad (k.rawRegion i j)) || b.any stepBad
  | 0x4 => loopsBad b.length 0 [] b
  | 0x5 => bits h 80 16 + recvLines h > sramLines || bits h 80 16 ≥ sramLines ||
      (regions.any fun r => r.typ == 1 && decide (r.base + r.span > sramLines)) || b.any stepTooLong
  | 0x6 => [0, 1].any fun p => ins.any fun r => (outs.any fun t => r.meets t p) || r.meets (recvHalf h p) p
  | 0x7 => (regions.any fun r => r.typ == 1 && !inLive live r.base r.span) || !inLive live (bits h 80 16) (recvLines h)
  | 0x9 => endsBad 0 [] b
  | 0xA => readsEarly [] b
  | 0xB => sendsOf 0 [] b != bits h 64 8
  | 0xC => bits h 54 2 > 1 || (List.range 16).any fun j => bits (k.rawRegion i j) 0 2 = 3
  | _ => false

/-- Virtual regions of a program, as its header declares them. -/
def Core.virtuals (k : Core) (i : Nat) : List Nat :=
  (List.range 16).map fun j => if bits (k.rawRegion i j) 0 2 = 2 then k.rawRegion i j else 0

/-- Does a core's store break the rule of a code, compared with the store of core 0 of slice-relative field 0 (R54)? -/
def Core.breaks (k ref : Core) (live code : Nat) : Bool :=
  let ps := (List.range 256).filter k.valid
  match code with
  | 0x3 => (List.range 256).any (fun i => bits (k.entry i) 29 3 != 0) || ps.any fun i => k.programBreaks i live 0x3
  | 0x8 => (List.range 256).any fun i => k.valid i != ref.valid i || (k.valid i && k.virtuals i != ref.virtuals i)
  | c => ps.any fun i => k.programBreaks i live c

/-- The lowest code of Table 3.1 that a core's store breaks; 0 for none. -/
def Core.loadCode (k ref : Core) (live : Nat) : Nat :=
  (([0x1, 0x2, 0x3, 0x4, 0x5, 0x6, 0x7, 0x8, 0x9, 0xA, 0xB, 0xC] : List Nat).find? fun c => k.breaks ref live c).getD 0

/-- Is program 255 of a store the rest program of R325: a header and END, ENERGY 0, no exchanges and no regions? -/
def Core.hasRest (k : Core) : Bool :=
  k.valid 255 && entryLength (k.entry 255) == 10 && stepIsEnd (k.step (k.start 255 + 9)) &&
    bits (k.header 255) 38 16 == 0 && bits (k.header 255) 64 16 == 0 &&
    (List.range 16).all fun j => k.rawRegion 255 j == 0

/-! ## Loading, R51 to R55 -/

/-- STEP_MAP index of core c of field f of a slot (R83): rank, then the field's place among the slice's fields. -/
def State.imageIndex (s : State) (n f c perMember : Nat) : Nat :=
  let e := (s.entryOf (s.fld F.SEQ_SLOT_CFG_SLICE_ID n)).getD 0
  let j := (firstIdx (fun g => g == f) 0 (s.fieldsOf n)).getD 0
  ((s.rankOf e s.selfId).getD 0 * perMember + j) * 450 + c

/-- SEQ_SET_BASE of a slot as an image: in this module's LPDDR, or, when it names another module, the bytes that its
LPDDR answers. -/
def State.setImage (s : State) (n : Nat) (away : List Byte) : Img :=
  let b := s.fld F.SEQ_SET_BASE_BASE n
  if b / 2 ^ 50 = s.selfId then s.memImg (b % 2 ^ 50) else bytesImg away

/-- May the field controller write step stores of a field now (R51)? No program of its slice runs or is due: the slice holds
with cause IDLE or PREEMPT, or has started no frame, or no slot serves the field. -/
def State.mayLoad (s : State) (f : Nat) : Bool :=
  match s.slotOfField f with
  | some n =>
    !s.flag F.SEQ_STATUS_RUNNING n &&
      (!(s.slot n).started || s.fld F.SEQ_STATUS_HOLD n == 8 || s.fld F.SEQ_STATUS_HOLD n == 6)
  | none => true

/-- Is there no set to load (code 0xD), as the slot and the field show it? -/
def State.noSet (s : State) (f slot : Nat) : Bool :=
  decide (slot > 55) || !s.flag F.SEQ_SLOT_CFG_ACTIVE slot ||
    s.fieldOwner f != some (s.fld F.SEQ_SLOT_CFG_SLICE_ID slot)

/-- Answer a load. -/
def State.loadResult (s : State) (f code core : Nat) : State :=
  ((s.setFld F.SEQ_FLD_LOAD_BUSY f 0).setFld F.SEQ_FLD_LOAD_ERROR f code).setFld F.SEQ_FLD_LOAD_CORE f core

/-- A write of SEQ_FLD_LOAD with START = 1; ignored while BUSY = 1; refused and recorded while a program of the slice runs or
is due (R51). -/
def State.loadStart (s : State) (f slot : Nat) : State :=
  if s.flag F.SEQ_FLD_LOAD_BUSY f then s
  else if !s.mayLoad f then s.log 0x02 0x1003 f 0
  else
    let s := s.setFld F.SEQ_FLD_LOAD_SLOT f slot
    if s.noSet f slot then s.loadResult f 0xD 0x3FF else s.setFld F.SEQ_FLD_LOAD_BUSY f 1

/-- SEQ_FLD_LOAD_START: START of SEQ_FLD_LOAD loads and validates the program set of a slot into the field's cores, R54. -/
def execSeqFldLoadStart (f : Fin 56) (slot : BitVec 6) (s : State) : Res := .next (s.loadStart f slot.toNat)

/-- Put a store into a core. -/
def Core.putStore (k store : Core) : Core :=
  { k with steps := store.steps, stepUpset := [], pc := 0, loops := [], running := false }

/-- Leave a core's program table invalid. -/
def Core.dropTable (k : Core) : Core := { k with steps := k.steps.filter fun e => decide (64 ≤ e.1) }

/-- The load of a field from an image ends: every core loaded and its generator seeded (R101), or none (R54). -/
def State.loadField (s : State) (f n : Nat) (m : Img) : State :=
  if s.noSet f n ∨ !m.tableOk then s.loadResult f 0xD 0x3FF
  else
    let live := s.fld F.SEQ_LIVE_LIVE n
    let ref := m.store (m.stepMap 0)
    let store := fun c => m.store (m.stepMap (s.imageIndex n f c m.fields))
    match (List.range 450).find? fun c => (store c).loadCode ref live != 0 with
    | some c =>
      let s := forNats (fun c s => s.updCore f c Core.dropTable) (List.range 450) s
      s.loadResult f ((store c).loadCode ref live) c
    | none =>
      let s := forNats (fun c s => s.updCore f c fun k => k.putStore (store c)) (List.range 450) s
      (s.seedField f).loadResult f 0 0x3FF

/-- FIELD_LOAD_DONE: a field's step-store load ends and SEQ_FLD_LOAD reports the result, R54 and R55. `away` is the image as
another module's LPDDR answers it, when SEQ_SET_BASE names one. A load that a program of the slice has overtaken writes no store: the
write is refused and recorded (R51). -/
def execFieldLoadDone (f : Fin 56) (away : List Byte) (s : State) : Res :=
  let n := s.fld F.SEQ_FLD_LOAD_SLOT f
  if !s.flag F.SEQ_FLD_LOAD_BUSY f then .next s
  else if !s.mayLoad f then .next ((s.setFld F.SEQ_FLD_LOAD_BUSY f 0).log 0x02 0x1003 f 0)
  else .next (s.loadField f n (s.setImage n away))

/-- The step that a fault of class STEP_ECC names is written again from the set image (R51), and the fault is resolved. -/
def State.stepRepair (s : State) (n : Nat) (x : FrameFault) (m : Img) : State :=
  let img := m.stepMap (s.imageIndex n x.field x.core m.fields)
  let v := m (m.offOf 2 + 262144 * img + 16 * x.step) 16
  let s := s.updCore x.field x.core fun k =>
    { k with steps := mapSet (fun _ => 0#128) x.step (BitVec.ofNat 128 v) k.steps
             stepUpset := mapSet (fun _ => 0) x.step 0 k.stepUpset }
  s.updSlot n fun v => { v with faults := v.faults.map fun y => if y = x then { y with resolved := true } else y }

/-- STEP_REPAIR: during a hold with cause FAULT, while no program runs, the field controller rewrites the step that a fault of class
STEP_ECC names from the set image; at any other time the write is refused and recorded (R51). `away` as in FIELD_LOAD_DONE. -/
def execStepRepair (n : Fin 56) (away : List Byte) (s : State) : Res :=
  match (s.slot n).faults.find? fun x => x.cls == clsStepEcc && !x.resolved with
  | none => .next s
  | some x =>
    if s.fld F.SEQ_STATUS_HOLD n ≠ 4 ∨ (s.core x.field x.core).running then .next (s.log 0x02 0x1003 (x.field + x.core * 64) x.step)
    else .next (s.stepRepair n x (s.setImage n away))

/-! ## SEQ_NEXT, R56 -/

/-- A write of SEQ_NEXT. -/
def State.nextWrite (s : State) (n index : Nat) (valid : Bool) : State :=
  (s.setFld F.SEQ_NEXT_INDEX n index).setFld F.SEQ_NEXT_VALID n (bit valid)

/-- SEQ_NEXT_WRITE: a write of SEQ_NEXT names the program that starts at the next advance, counting from the next close,
R56. -/
def execSeqNextWrite (n : Fin 56) (index : BitVec 8) (valid : Bool) (s : State) : Res :=
  .next (s.nextWrite n index.toNat valid)

/-- A write of TEN_FLD_INJECT: with ARM = 1 it arms one injection in place of one that has not acted. Ignored and recorded
while INJ_EN = 0, or for a CORE above 449, which arms nothing. -/
def State.injectWrite (s : State) (f v : Nat) : State :=
  if (bitOf v 10 ∧ !s.flag F.TEN_FLD_CTRL_INJ_EN f) ∨ bits v 0 9 > 449 then s.refuse .TEN_FLD_INJECT f v
  else if bitOf v 10 then { s with inject := mapSet (fun _ => none) f (some (bits v 0 9, bitOf v 9)) s.inject }
  else s

/-- INJECT_ARM: a write of TEN_FLD_INJECT with ARM = 1 arms one injected error on a core, R107. -/
def execInjectArm (f : Fin 56) (core : BitVec 9) (kind : Bool) (s : State) : Res :=
  .next (s.injectWrite f (core.toNat + bit kind * 2 ^ 9 + 2 ^ 10))

end Sys2Proof.Machine
end

