-- ==== Sys2Proof/Machine/Plan.lean ====
section
/-!
DEFINITION. Sys2Proof/Machine/Plan.lean: what the placement service works out before it places a slice or switches in a spare: the home
module and the vote depth (R33 to R35), wrap links and links on express paths (R279, R280, R284), the reasons of Table 11.2, the hops of
each member; and the MGMT packets by which it writes the tables of other modules (R278, R493).
-/
namespace Sys2Proof.Machine

/-! ## MGMT packets to other modules, R278 and R493 -/

/-- The tag over a header and data, R489. -/
def State.tagOf (s : State) (body : List Byte) : List Byte := shake256 (toBytes 32 (s.rd .MGT_KEY) ++ body) 16

/-- The link slot toward a module: a link to that peer that carries only MGMT packets, or the direct link to the neighbour in
dimension order. -/
def State.mgmtLink (s : State) (m : Nat) : Option Nat :=
  match (List.range 24).find? fun n => s.mgmtOnly n && s.fld F.LNK_LINK_STATUS_PEER n == m with
  | some n => some n
  | none =>
    let (dx, dy, dz) := s.dims
    let (x, y, z) := coordsOf s.selfId
    let (mx, my, mz) := coordsOf m
    match [(0, ringWay dx x mx), (2, ringWay dy y my), (4, ringWay dz z mz)].find? fun a => a.2.1 != 0 with
    | some a => s.directLink (a.1 + a.2.2)
    | none => none

/-- Send an MGMT packet on toward a module, with the identifier of a time-stamp where one is asked for; one that has no way is dropped and counted (R274). -/
def State.sendMgmt (s : State) (m : Nat) (p : Packet) (ident : Option Nat := none) : State :=
  match s.mgmtLink m with
  | some n => s.sendLink n p ident
  | none => s.bump .RTE_TRANSIT_DROP

/-- May the module's time state carry votes and MGMT requests: neither FREE nor ACQUIRING (R296, R493)? -/
def State.timeSet (s : State) : Bool := s.timeState != timeFree && s.timeState != timeAcquiring

/-- A number for an MGMT request: the machine time of sending in ns, above every earlier one (R493). -/
def State.nextReq (s : State) : Nat := max (s.mgmtReq + 1) (s.now / ns)

/-- A set-up WRITE request of Table 22.3 over one register. -/
def writeRequest (off len req v : Nat) : List Byte :=
  toBytes 2 0x5353 ++ toBytes 1 2 ++ toBytes 1 0 ++ toBytes 4 off ++ toBytes 2 len ++ toBytes 6 0 ++ toBytes 8 req ++ toBytes 8 0 ++
    toBytes len v

/-- The control complex sends an MGMT packet of its own, with a time-stamp where it asks for one (R303). -/
def State.sendOwn (s : State) (m : Nat) (data : List Byte) : State :=
  s.sendMgmt m (s.managePacket 8 0 m data) ((Config.mgmtStamp s.now data).map (·.toNat))

/-- The placement service writes a register: its own module's by `own`, another module's through an MGMT packet (R278). -/
def State.writeAt (s : State) (m : Nat) (r : Reg) (i v : Nat) (own : State → State) : State :=
  if m = s.selfId then own s
  else if !s.timeSet then s
  else
    let req := s.nextReq
    let body := writeRequest (r.addr i) r.bytes req v
    { s with mgmtReq := req }.sendOwn m (body ++ s.tagOf body)

/-- Tell another module's control complex something of a slice. -/
def State.tell (s : State) (m : Nat) (b : MgmtBody) : State :=
  if m = s.selfId then s
  else (s.emit (.mgmt m b)).sendOwn m (Config.packetBody 8 b.values)

/-- The modules that take part in a slice of an entry beside this one: its members, and the holders that its peer entries name. -/
def State.partners (s : State) (e : Nat) : List Nat :=
  let members := (List.range (s.memberCount e)).filterMap (s.memberOf e)
  let holders := ((List.range 8).filter fun i => s.flag F.RTE_SLICE_PEER_VALID (8 * e + i)).map fun i =>
    s.fld F.RTE_SLICE_PEER_MODULE (8 * e + i)
  (members ++ holders.filter fun m => !members.contains m).filter (· != s.selfId)

/-- Tell every other member and holder of a slice. -/
def State.tellAll (s : State) (slice : Nat) (b : MgmtBody) : State :=
  match s.entryOf slice with
  | some e => (s.partners e).foldl (fun s m => s.tell m b) s
  | none => s

/-! ## What the module knows of itself -/

/-- Fields that a job can be given: in service, without an owner, and not held by a test. -/
def State.freeFields (s : State) : List Nat :=
  (List.range 56).filter fun f => s.inService f && (s.fieldOwner f).isNone && !s.flag F.INT_FLD_TEST_HELD f

/-- Does a slot serve nothing? -/
def State.slotFree (s : State) (n : Nat) : Bool := !s.flag F.SEQ_SLOT_CFG_ACTIVE n

/-- Slice entries in use whose hops or peers name a link slot. -/
def State.entriesOn (s : State) (n : Nat) : List Nat :=
  (List.range 64).filter fun e => s.flag F.RTE_SLICE_ACTIVE e && s.entryNames e n

/-- The sum of SHARE on a link slot, R282. -/
def State.shareOn (s : State) (n : Nat) : Nat := ((s.entriesOn n).map fun e => s.fld F.RTE_SLICE_SHARE e).sum

/-- Does a path use a trunk pair of a face, inward or outward? -/
def State.trunkUsed (s : State) (x : Nat) : Bool := s.paths.any fun o => o == x || s.physInput (s.pathInput o) == x

/-- A mask of the numbers below n that satisfy a test. -/
def bitMask (n : Nat) (q : Nat → Bool) : Nat := ((List.range n).map fun i => bit (q i) * 2 ^ i).sum

/-- A face of this module. -/
def State.faceFacts (s : State) (f : Nat) : FaceFacts :=
  let link := s.directLink f
  { up := link.map fun n => Fin.ofNat 4 n
    prop := BitVec.ofNat 16 (link.elim 0 fun n => s.fld F.LNK_LINK_DELAY_PROP n)
    pairs := BitVec.ofNat 16 (bitMask 16 fun i => !s.trunkUsed (192 + 48 * f + 32 + i))
    groups := BitVec.ofNat 4 (bitMask 4 fun j => !((rangeFrom (4 * f) 4).any fun n =>
      s.flag F.LNK_LINK_CFG_ENABLE n && bitOf (s.fld F.LNK_LINK_CFG_GROUPS n) j))
    direct := BitVec.ofNat 4 (link.elim 0 fun n => s.fld F.LNK_LINK_CFG_GROUPS n)
    held := (s.paths.filter fun o => s.pathInput o / 32 == f).map fun o => (Fin.ofNat 32 (s.pathInput o), Fin.ofNat 480 o)
    share := link.elim 0 s.shareOn }

/-- Frames of job LPDDR that no slice owns. -/
def State.freeFrames (s : State) : Nat := jobFrames - (s.mem.owner.filter fun e => decide (e.1 < jobFrames)).length

/-- What this module knows of a slice entry of its own. -/
def State.entryFacts (s : State) (e : Nat) : EntryFacts :=
  { slice := BitVec.ofNat 12 (s.fld F.RTE_SLICE_SLICE_ID e), entry := Fin.ofNat 64 e
    hop := BitVec.ofNat 36 (s.fld F.RTE_SLICE_HOP_HOP e), peers := (List.range 8).map fun i => BitVec.ofNat 35 (s.rd .RTE_SLICE_PEER (8 * e + i)) }

/-- What this module knows of itself. -/
def State.ownFacts (s : State) : ModuleFacts :=
  { module := BitVec.ofNat 14 s.selfId, valid := s.flag F.RTE_COORD_VALID, timed := s.timeSet && s.fld F.TIM_CTRL_SOURCE != 2, fields := s.freeFields.map (Fin.ofNat 56)
    slot := ((List.range 56).find? s.slotFree).map (Fin.ofNat 56)
    entry := ((List.range 64).find? fun e => !s.flag F.RTE_SLICE_ACTIVE e).map (Fin.ofNat 64)
    entries := ((List.range 64).filter fun e => s.flag F.RTE_SLICE_ACTIVE e).map s.entryFacts
    frames := s.freeFrames, faces := (List.range 6).map s.faceFacts }

/-- What is known of the machine: of this module by itself, of the others by a survey. -/
def State.knowledge (s : State) (v : List ModuleFacts) : List ModuleFacts :=
  s.ownFacts :: v.filter fun x => x.module.toNat != s.selfId

/-- What is known of a module. -/
def factsOf (v : List ModuleFacts) (m : Nat) : Option ModuleFacts := v.find? fun x => x.module.toNat == m

/-- What is known of a face of a module. -/
def factsAt (v : List ModuleFacts) (m f : Nat) : Option FaceFacts := (factsOf v m).bind fun x => x.faces[f]?

/-! ## Hops through a box -/

/-- Size of a box on an axis, 0 to 2. -/
def Box.ext (b : Box) (a : Nat) : Nat :=
  match a with
  | 0 => b.ex
  | 1 => b.ey
  | _ => b.ez

/-- Does a box wrap on an axis? -/
def Box.wraps (b : Box) (a : Nat) : Bool :=
  match a with
  | 0 => b.wx
  | 1 => b.wy
  | _ => b.wz

/-- A coordinate of a position, or a size, on an axis. -/
def onAxis (p : Nat × Nat × Nat) (a : Nat) : Nat :=
  match a with
  | 0 => p.1
  | 1 => p.2.1
  | _ => p.2.2

/-- A position with another coordinate on an axis. -/
def putAxis (p : Nat × Nat × Nat) (a v : Nat) : Nat × Nat × Nat :=
  match a with
  | 0 => (v, p.2.1, p.2.2)
  | 1 => (p.1, v, p.2.2)
  | _ => (p.1, p.2.1, v)

/-- The position that a hop in a direction leads to; none where it would leave a box that does not wrap. -/
def Box.next (b : Box) (p : Nat × Nat × Nat) (d : Nat) : Option (Nat × Nat × Nat) :=
  let a := d / 2
  let n := b.ext a
  let x := onAxis p a
  if n = 1 then none
  else if d % 2 = 0 then (if x + 1 < n then some (putAxis p a (x + 1)) else if b.wraps a then some (putAxis p a 0) else none)
  else (if 0 < x then some (putAxis p a (x - 1)) else if b.wraps a then some (putAxis p a (n - 1)) else none)

/-- Does a hop run over a wrap link: it crosses the end of a box that is shorter than the machine on the axis (R279)? -/
def Box.wrapHop (b : Box) (dims p : Nat × Nat × Nat) (d : Nat) : Bool :=
  let a := d / 2
  let x := onAxis p a
  decide (b.ext a < onAxis dims a) && (if d % 2 = 0 then x + 1 == b.ext a else x == 0)

/-- The hops from a position to another, in dimension order (R272): each a position and a direction. -/
def Box.path (b : Box) (to_ : Nat × Nat × Nat) : Nat → Nat × Nat × Nat → List ((Nat × Nat × Nat) × Nat)
  | 0, _ => []
  | fuel + 1, p =>
    match b.way to_ p with
    | none => []
    | some d => match b.next p d with
      | some q => (p, d) :: b.path to_ fuel q
      | none => []

/-- The positions of a box in order of rank. -/
def Box.positions (b : Box) : List (Nat × Nat × Nat) := (List.range b.size).map b.position

/-- Hops of the longest path to a position: the vote depth with that position as home (R33). -/
def Box.depth (b : Box) (home : Nat × Nat × Nat) : Nat :=
  (b.positions.map fun p => (b.path home (b.ex + b.ey + b.ez) p).length).foldl max 0

/-- A box that does not wrap. -/
def Box.flat (b : Box) : Box := { b with wx := false, wy := false, wz := false }

/-- Of two positions the better home: less depth, then less without wraps; the first on a tie (log entry 92). -/
def Box.betterHome (b : Box) (p q : Nat × Nat × Nat) : Nat × Nat × Nat :=
  if b.depth q < b.depth p ∨ (b.depth q = b.depth p ∧ b.flat.depth q < b.flat.depth p) then q else p

/-- The home position: the member that minimises the vote depth (R33). -/
def Box.homePos (b : Box) : Nat × Nat × Nat := b.positions.foldl b.betterHome (0, 0, 0)

/-! ## Links on express paths, R279 and R280 -/

/-- The modules and faces of n hops from a module over one face. -/
def hopsOver (dims : Nat × Nat × Nat) (m face : Nat) : Nat → List (Nat × Nat)
  | 0 => []
  | n + 1 => (m, face) :: hopsOver dims (nextOver dims m face) face n

/-- The hops of the wrap link of an axis from the module at the top end of its row: inward through EXTENT − 2 decks or outward through
DIM − EXTENT decks, whichever has fewer, inward on a tie (R279). -/
def Box.wrapHops (b : Box) (dims : Nat × Nat × Nat) (a top : Nat) : List (Nat × Nat) :=
  let n := b.ext a
  let dim := onAxis dims a
  if n - 2 ≤ dim - n then hopsOver dims top (2 * a + 1) (n - 1) else hopsOver dims top (2 * a) (dim - n + 1)

/-- Propagation over the fibre of hops, in ns; none where a hop is not known. -/
def fibreOf (v : List ModuleFacts) : List (Nat × Nat) → Option Nat
  | [] => some 0
  | h :: hs => match factsAt v h.1 h.2, fibreOf v hs with
    | some f, some n => some (f.prop.toNat + n)
    | _, _ => none

/-- What a plan has taken so far: express pairs by module, face and pair, and lane groups by module, port and group. -/
structure Taken where
  pairs : List (Nat × Nat × Nat)
  groups : List (Nat × Nat × Nat)
deriving DecidableEq, Repr

/-- Numbers that a mask of n bits holds and that are not taken. -/
def freeBits (n mask : Nat) (taken : Nat → Bool) : List Nat := (List.range n).filter fun i => bitOf mask i && !taken i

/-- The express pairs free on both faces of a hop: light that leaves by pair q arrives by pair q of the opposite face (R224). -/
def pairsOn (dims : Nat × Nat × Nat) (v : List ModuleFacts) (t : Taken) (h : Nat × Nat) : List Nat :=
  let far := nextOver dims h.1 h.2
  match factsAt v h.1 h.2, factsAt v far (oppositeFace h.2) with
  | some f, some g => (freeBits 16 (f.pairs &&& g.pairs).toNat fun i =>
      t.pairs.contains (h.1, h.2, 32 + i) || t.pairs.contains (far, oppositeFace h.2, 32 + i)).map (32 + ·)
  | _, _ => []

/-- Lane groups free on a port (log entry 92): those of no link, and then those of a direct link that no slice uses, from its highest on. -/
def groupsOn (v : List ModuleFacts) (t : Taken) (m port : Nat) : List Nat :=
  let taken := fun (j : Nat) => t.groups.contains (m, port, j)
  match factsAt v m port with
  | some f => freeBits 4 f.groups.toNat taken ++ if f.share = 0 then (freeBits 4 f.direct.toNat taken).reverse else []
  | none => []

/-- The first n of some lane groups, ascending. -/
def pickGroups (n : Nat) (gs : List Nat) : List Nat := (List.range 4).filter (gs.take n).contains

/-- The deck outputs that the transmitters of some lane groups of a port are joined to, but the receivers of those groups themselves. -/
def oldPaths (v : List ModuleFacts) (m port : Nat) (gs : List Nat) : List Nat :=
  match factsAt v m port with
  | some f => ((f.held.filter fun x => gs.contains (x.1.val / 8)).map fun x => x.2.val).filter fun o =>
      !(o / 32 == port && gs.contains (o / 8 - 4 * port))
  | none => []

/-- A link on an express path from a port of a module to a port of another, over given hops, or the reason of Table 11.2 that refuses it:
no free lane group at an end; fewer than 8 free pairs on a face; more than 3 bypass decks or 500 m of fibre. It has 2 groups where every
face has 16 free pairs and both ends have 2 free groups, else 1. -/
def expressLink (dims : Nat × Nat × Nat) (v : List ModuleFacts) (t : Taken) (m port far farPort : Nat) (hops : List (Nat × Nat)) :
    Except Nat (ExpressLink × Taken) :=
  let gs := groupsOn v t m port
  let hs := groupsOn v t far farPort
  let pairs := (hops.map fun h => (pairsOn dims v t h).length).foldl min 16
  match fibreOf v hops with
  | none => .error 9
  | some fibre =>
    if gs.isEmpty ∨ hs.isEmpty then .error 3
    else if pairs < 8 then .error 4
    else if hops.length > 4 ∨ fibre > 2500 then .error 5
    else
      let n := min (if pairs ≥ 16 then 2 else 1) (min gs.length hs.length)
      let es := hops.map fun h => { module := h.1, face := h.2, pairs := (pairsOn dims v t h).take (8 * n) : ExpressHop }
      let gs := pickGroups n gs
      let hs := pickGroups n hs
      .ok ({ fromModule := m, fromPort := port, fromGroups := gs, fromOld := oldPaths v m port gs, toModule := far, toPort := farPort
             toGroups := hs, toOld := oldPaths v far farPort hs, hops := es },
        { pairs := t.pairs ++ (es.map fun h => (h.pairs.map fun q => (h.module, h.face, q)) ++
            h.pairs.map fun q => (nextOver dims h.module h.face, oppositeFace h.face, q)).flatten
          groups := t.groups ++ (gs.map fun j => (m, port, j)) ++ hs.map fun j => (far, farPort, j) })

/-- The lowest link slot of a port's groups, R192. -/
def slotOf (port : Nat) (groups : List Nat) : Nat := 4 * port + groups.headD 0

/-- Lane groups that links take on a port of a module. -/
def groupsTaken (ls : List ExpressLink) (m port : Nat) : List Nat :=
  (ls.map fun l => (if l.fromModule = m ∧ l.fromPort = port then l.fromGroups else []) ++
    if l.toModule = m ∧ l.toPort = port then l.toGroups else []).flatten

/-- The direct links that give lane groups to some links on express paths. -/
def cutsOf (v : List ModuleFacts) (ls : List ExpressLink) : List PortCut :=
  ((ls.map fun l => [(l.fromModule, l.fromPort), (l.toModule, l.toPort)]).flatten.eraseDups).filterMap fun e =>
    (factsAt v e.1 e.2).bind fun f =>
      let own := (List.range 4).filter fun j => bitOf f.direct.toNat j
      let gone := groupsTaken ls e.1 e.2
      if own.any gone.contains then some { module := e.1, port := e.2, slot := slotOf e.2 own, rest := own.filter fun j => !gone.contains j }
      else none

/-- The top ends of the rows of an axis on which a box needs a wrap link. -/
def Box.wrapRows (b : Box) (dims : Nat × Nat × Nat) (a : Nat) : List (Nat × Nat × Nat) :=
  if b.wraps a ∧ 2 ≤ b.ext a ∧ b.ext a < onAxis dims a then b.positions.filter fun p => onAxis p a + 1 == b.ext a else []

/-- Every wrap link of a box: from the + port of each top-end member to the − port of its bottom-end member (R279). -/
def Box.wrapLinks (b : Box) (dims : Nat × Nat × Nat) (v : List ModuleFacts) : Except Nat (List ExpressLink) :=
  let rows := ((List.range 3).map fun a => (b.wrapRows dims a).map fun p => (a, p)).flatten
  let r : Except Nat (List ExpressLink × Taken) := rows.foldl (fun r x =>
    match r with
    | .error c => .error c
    | .ok (ls, t) =>
      let top := b.moduleAt dims x.2
      match expressLink dims v t top (2 * x.1) (b.moduleAt dims (putAxis x.2 x.1 0)) (2 * x.1 + 1) (b.wrapHops dims x.1 top) with
      | .error c => .error c
      | .ok (l, t) => .ok (ls ++ [l], t)) (.ok ([], ⟨[], []⟩))
  match r with
  | .error c => .error c
  | .ok (ls, _) => .ok ls

/-! ## The vote depth, R34 and R35 -/

/-- The hop delay of a link on an express path: fibre at 5 ns per metre, and 2 ns for each bypass deck, which LNK_LINK_DELAY
includes. -/
def ExpressLink.delay (l : ExpressLink) (v : List ModuleFacts) : Nat :=
  (fibreOf v (l.hops.map fun h => (h.module, h.face))).getD 0 + 2 * (l.hops.length - 1)

/-- The wrap link that a hop over a box's end uses. -/
def wrapOf (ls : List ExpressLink) (m d : Nat) : Option ExpressLink :=
  ls.find? fun l => if d % 2 = 0 then l.fromModule == m && l.fromPort == d else l.toModule == m && l.toPort == d

/-- The delay of one hop of a box, in ns: 100 ns and its fibre (R34). -/
def Box.hopDelay (b : Box) (dims : Nat × Nat × Nat) (v : List ModuleFacts) (ls : List ExpressLink) (h : (Nat × Nat × Nat) × Nat) : Nat :=
  let m := b.moduleAt dims h.1
  100 + if b.wrapHop dims h.1 h.2 then (wrapOf ls m h.2).elim 0 (·.delay v) else (factsAt v m h.2).elim 0 (·.prop.toNat)

/-- H: the largest sum of hop delays from a member to a home position (R34), for the delay of each hop. -/
def Box.largestSum (b : Box) (home : Nat × Nat × Nat) (delay : (Nat × Nat × Nat) × Nat → Nat) : Nat :=
  (b.positions.map fun p => ((b.path home (b.ex + b.ey + b.ez) p).map delay).sum).foldl max 0

/-- H of a box that is to be placed, in ns. -/
def Box.voteDelay (b : Box) (dims : Nat × Nat × Nat) (v : List ModuleFacts) (ls : List ExpressLink) : Nat :=
  b.largestSum b.homePos (b.hopDelay dims v ls)

/-- The guard time of a slice in ns for a hop delay H: 400 ns on one module, 400 ns + 2 × H on several (R21, R34). -/
def guardNs (h : Nat) : Nat := 400 + 2 * h

/-- Is the program window of a slice with a hop delay shorter than 2,000 ns at a period (R35)? -/
def windowShort (period h : Nat) : Bool := decide (period < 100 + guardNs h + 2000)

/-- The link slot of a peer entry that names one. -/
def State.peerLink (s : State) (e m : Nat) : Option Nat :=
  ((List.range 8).find? fun i => s.flag F.RTE_SLICE_PEER_VALID (8 * e + i) && !s.flag F.RTE_SLICE_PEER_VIA (8 * e + i) &&
    s.fld F.RTE_SLICE_PEER_MODULE (8 * e + i) == m).map fun i => s.fld F.RTE_SLICE_PEER_LINK (8 * e + i)

/-- The hop delays of the holders at the end of this module's own links (R270). -/
def State.holderHops (s : State) (e : Nat) : List Nat :=
  (List.range 8).filterMap fun i =>
    if s.flag F.RTE_SLICE_PEER_VALID (8 * e + i) then (s.peerLink e (s.fld F.RTE_SLICE_PEER_MODULE (8 * e + i))).map fun l =>
      100 + s.fld F.LNK_LINK_DELAY_PROP l
    else none

/-- The hop delay H of the vote tree of an entry's slice in ns: as the placement service told it for the tables in force; of a slice with one
member, that of its farthest holder; otherwise a free value, which the home module holds to the hops that it knows (R34, R270). -/
def State.hopDelay (s : State) (e : Nat) : Nat :=
  match mapGet (fun _ => none) s.voteDelays e with
  | some h => h
  | none =>
    if s.fld F.RTE_SLICE_HOME e ≠ s.selfId then Config.voteDelay (s.fld F.RTE_SLICE_SLICE_ID e) (s.fld F.RTE_SLICE_EPOCH e)
    else (s.holderHops e).foldl max
      (if s.memberCount e = 1 then 0 else Config.voteDelay (s.fld F.RTE_SLICE_SLICE_ID e) (s.fld F.RTE_SLICE_EPOCH e))

/-! ## The tables of a member -/

/-- Every hop of a box that runs over a direct link. -/
def Box.directHops (b : Box) (dims : Nat × Nat × Nat) : List ((Nat × Nat × Nat) × Nat) :=
  (b.positions.map fun p => ((List.range 6).filter fun d => (b.next p d).isSome && !b.wrapHop dims p d).map fun d => (p, d)).flatten

/-- HOP of RTE_SLICE_HOP for the member at a position: each direction's link slot, valid where the box has a neighbour there; a hop over
the box's end names its wrap link. -/
def Box.hopsOf (b : Box) (dims : Nat × Nat × Nat) (v : List ModuleFacts) (ls : List ExpressLink) (p : Nat × Nat × Nat) : Nat :=
  let m := b.moduleAt dims p
  ((List.range 6).map fun d =>
    let slot : Option Nat :=
      if (b.next p d).isNone then none
      else if b.wrapHop dims p d then
        (wrapOf ls m d).map fun l => if d % 2 = 0 then slotOf l.fromPort l.fromGroups else slotOf l.toPort l.toGroups
      else (factsAt v m d).bind fun f => f.up.map fun g => 4 * d + g.val
    match slot with
    | some n => (n + 32) * 2 ^ (6 * d)
    | none => 0).sum

/-! ## Path sets, R229 and R234 -/

/-- Local lanes of the groups of a port, ascending (R191). -/
def lanesOfGroups (port : Nat) (gs : List Nat) : List Nat := (gs.map fun g => rangeFrom (8 * (4 * port + g)) 8).flatten

/-- A RELEASE entry of Table 9.4. -/
def releaseEntry (output : Nat) : Nat := output + 2 ^ 18

/-- A CONNECT entry of Table 9.4. -/
def connectEntry (input output : Nat) (pass : Bool) : Nat := output + input * 2 ^ 9 + bit pass * 2 ^ 20

/-- Both directions between the ends of a deck, end by end. -/
def joinEnds (pass : Bool) (xs ys : List Nat) : List Nat :=
  ((xs.zip ys).map fun e => [connectEntry e.1 e.2 pass, connectEntry e.2 e.1 pass]).flatten

/-- Trunk indices of pairs of a face, R221. -/
def trunkOf (face : Nat) (qs : List Nat) : List Nat := qs.map fun q => 192 + 48 * face + q

/-- The entries of every bypass deck of a link's hops, and of the deck at its far end, which joins `last` in place of the paths `old`. -/
def passSets (dims : Nat × Nat × Nat) (last old : List Nat) : ExpressHop → List ExpressHop → List (Nat × List Nat)
  | h, [] => [(nextOver dims h.module h.face, old.map releaseEntry ++ joinEnds false (trunkOf (oppositeFace h.face) h.pairs) last)]
  | h, k :: ks =>
    (k.module, joinEnds true (trunkOf (oppositeFace h.face) h.pairs) (trunkOf k.face k.pairs)) :: passSets dims last old k ks

/-- The path command entries of a link on an express path, by module: a LAUNCH and a LAND for each lane at its ends, in place of the paths that
its transmitters had, PASS paths on the decks in between. -/
def ExpressLink.sets (l : ExpressLink) (dims : Nat × Nat × Nat) : List (Nat × List Nat) :=
  match l.hops with
  | [] => []
  | h :: hs =>
    (l.fromModule, l.fromOld.map releaseEntry ++ joinEnds false (lanesOfGroups l.fromPort l.fromGroups) (trunkOf h.face h.pairs)) ::
      passSets dims (lanesOfGroups l.toPort l.toGroups) l.toOld h hs

/-- The modules of path sets, each once. -/
def setModules (sets : List (Nat × List Nat)) : List Nat :=
  sets.foldl (fun l x => if l.contains x.1 then l else l ++ [x.1]) []

/-- Write a set of path commands with a named tick to a module's deck: the entries, the tick, and START. -/
def State.issueSet (s : State) (m tick : Nat) (es : List Nat) : State :=
  let s := es.zipIdx.foldl (fun s e => s.writeAt m .DCK_CMD_BUF e.2 e.1 fun s => s.wr .DCK_CMD_BUF e.2 e.1) s
  let s := s.writeAt m .DCK_CMD_TIME 0 tick fun s => s.wr .DCK_CMD_TIME 0 tick
  s.writeAt m .DCK_CMD_CTRL 0 (1 + es.length * 4) fun s => s.deckStart es.length

/-- Write LNK_LINK_CFG of a link slot: enabled with its groups, or disabled. -/
def State.cfgLink (s : State) (m n v : Nat) : State := s.writeAt m .LNK_LINK_CFG n v fun s => s.linkCfg n v

/-- Enable a link slot with its groups. -/
def State.openPort (s : State) (m port : Nat) (gs : List Nat) : State := s.cfgLink m (slotOf port gs) (1 + (gs.map fun g => 2 ^ (g + 1)).sum)

/-- A direct link gives up lane groups: it goes on with the others. -/
def State.cutPort (s : State) (c : PortCut) : State :=
  let s := s.cfgLink c.module c.slot 0
  if c.rest.isEmpty then s else s.openPort c.module c.port c.rest

/-- Build links on express paths: direct links give up the lane groups that they take, their slots are enabled and every deck on their routes
gets its set with the same named tick (R234). -/
def State.buildLinks (s : State) (ls : List ExpressLink) (cuts : List PortCut) (tick : Nat) : State :=
  let s := cuts.foldl State.cutPort s
  let s := ls.foldl (fun s l => (s.openPort l.fromModule l.fromPort l.fromGroups).openPort l.toModule l.toPort l.toGroups) s
  let sets := (ls.map fun l => l.sets s.dims).flatten
  (setModules sets).foldl (fun s m => s.issueSet m tick ((sets.filter fun x => x.1 == m).map (·.2)).flatten) s

/-- The tick that the placement service names for the wrap links of a placement: the first after MMU_TIMEOUT and two tick periods, which
Table 9.5 allows (log entry 92). -/
def State.linkTick (s : State) : Nat :=
  let p := s.period * ns
  (s.time.next + (ceilDiv (s.fld F.MMU_TIMEOUT_LIMIT * 100) s.period + 2) * p) % 2 ^ 64

end Sys2Proof.Machine
end

