-- ==== Sys2Proof/Machine/Rings.lean ====
section
/-!
DEFINITION. Sys2Proof/Machine/Rings.lean: the front-end ports and connections (R307 to R312), the submission and completion
rings with their doorbells (R313 to R317), and the jobs and descriptors that they serve, as far as a connection must
know them.
-/
namespace Sys2Proof.Machine

/-! ## Jobs by id -/

/-- A job. -/
def State.job (s : State) (i : Nat) : Option Job := s.jobs.find? fun j => j.ident == i

/-- Change a job. -/
def State.updJob (s : State) (i : Nat) (g : Job → Job) : State :=
  { s with jobs := s.jobs.map fun j => if j.ident = i then g j else j }

/-- The job that a slot serves on its entry module. -/
def State.jobOfSlot (s : State) (n : Nat) : Option Job := s.jobs.find? fun j => j.placed && j.slot == n

/-- The saved context of a slice. -/
def State.savedOf (s : State) (slice : Nat) : Option SavedSlice := s.saved.find? fun v => v.slice == slice

/-- A job's frame number. -/
def State.jobFrame (s : State) (j : Job) : Nat :=
  if j.placed then s.rd .SEQ_FRAME j.slot
  else match s.savedOf j.slice with
    | some v => v.frame
    | none => 0

/-! ## Completions -/

/-- Statuses of Table 13.5. -/
def stDone : Nat := 0x0
/-- REFUSED. -/
def stRefused : Nat := 0x1
/-- FAULT. -/
def stFault : Nat := 0x2
/-- STOPPED. -/
def stStopped : Nat := 0x3
/-- PREEMPTED. -/
def stPreempted : Nat := 0x4
/-- RESUMED. -/
def stResumed : Nat := 0x5
/-- FE_ERROR. -/
def stFeError : Nat := 0x6
/-- CANCELLED. -/
def stCancelled : Nat := 0x7
/-- RELEASED. -/
def stReleased : Nat := 0x8

/-- A completion waits to be written on a connection. -/
def State.reply (s : State) (conn : Nat) (c : Cpl) : State := s.updConn conn fun k => { k with waiting := k.waiting ++ [c] }

/-- An event completion of a job, to its home connection with the TAG of its LOAD (R320). -/
def State.event (s : State) (j : Job) (status cause : Nat) (frame : Option Nat) (detail : Nat) : State :=
  s.reply j.homeConn { tag := j.tag, job := j.ident, opcode := 0xF, status := status, cause := cause, frame := frame,
                       detail := detail, held := 0 }

/-- A descriptor in progress by number. -/
def State.work (s : State) (k : Nat) : Option Work := s.works.find? fun w => w.num == k

/-- Change a descriptor in progress. -/
def State.updWork (s : State) (k : Nat) (g : Work → Work) : State :=
  { s with works := s.works.map fun w => if w.num = k then g w else w }

/-- A descriptor completes. -/
def State.finish (s : State) (w : Work) (status cause : Nat) (frame : Option Nat) (detail held : Nat) : State :=
  if s.works.any fun x => x.num == w.num then
    { s with works := s.works.filter fun x => x.num != w.num }.reply w.conn
      { tag := w.tag, job := if status = stRefused ∧ w.opcode = 1 then 0 else w.job, opcode := w.opcode, status := status
        cause := cause, frame := frame, detail := detail, held := held }
  else s

/-! ## Connections in and out of service, R310 to R312 -/

/-- A mover whose head names a connection that leaves service: its requests on the connection are abandoned, and it parks with code 0x23
once the others are answered (R155, R312). -/
def State.moverConnDown (s : State) (n : Nat) (tags : List Nat) (f m : Nat) : State :=
  match (s.mover f m).queue with
  | d :: _ =>
    if (d.srcSpace = 2 ∨ d.dstSpace = 2) ∧ d.conn = n then
      (s.updMover f m fun v => { v with reqs := v.reqs.filter fun r => !tags.contains r.tag }).parkMover f m 0x23
    else s
  | [] => s

/-- A connection leaves service: its outstanding requests are abandoned, a STATUS among them with FE_ERROR, and running movers
whose FE_CONN names it park. Completions written and not acknowledged are kept, to be written again (R317). -/
def State.connDown (s : State) (n st : Nat) : State :=
  let lost := (s.conn n).reqs
  let kept := if st = connError then lost.filter fun r => r.use == .completion || r.use == .notify else []
  let s := (s.updConn n fun c => { c with reqs := [], again := c.again ++ kept, retries := .none }).setFld F.FEI_CONN_CFG_STATE n st
  let s := lost.foldl (fun s r => match r.use with
    | .status k => match s.work k with
      | some w => s.finish w stFeError 0 none 0 0
      | none => s
    | _ => s) s
  let tags := lost.filterMap fun r => match r.use with
    | .mover tag => some tag
    | _ => none
  (List.range 56).foldl (fun s f => (List.range 16).foldl (fun s m => s.moverConnDown n tags f m) s) s

/-- The port of a connection. -/
def State.connPort (s : State) (n : Nat) : Nat := s.fld F.FEI_CONN_CFG_PORT n

/-- Does a connection's configuration hold a reserved or out-of-range value, R310? -/
def State.connBad (s : State) (n : Nat) : Bool :=
  s.fld F.FEI_CONN_CFG_MTU n == 3 || s.fld F.FEI_CONN_CFG_TIMEOUT n == 0 || decide (s.fld F.FEI_CONN_SQ_LOG2N n > 9) ||
    decide (s.fld F.FEI_CONN_CQ_LOG2N n > 9)

/-- Put a connection into service with the PSNs of FEI_CONN_PSN. -/
def State.connStart (s : State) (n : Nat) : State :=
  (s.updConn n fun c => { c with
    reqs := [], retries := .none, sendPsn := s.fld F.FEI_CONN_PSN_SQ_PSN n, recvPsn := s.fld F.FEI_CONN_PSN_RQ_PSN n }).setFld
      F.FEI_CONN_CFG_STATE n connOpen

/-- OP open: RESULT 1 unless closed, 3 for a reserved or out-of-range value; the indices start at zero (R313). -/
def State.connOpenCmd (s : State) (n : Nat) : State × Nat :=
  if s.connState n ≠ connClosed then (s, 1)
  else if s.connBad n then (s, 3)
  else (((s.wr .FEI_CONN_IDX n 0).updConn n fun c => { c with again := [] }).connStart n, 0)

/-- Is a connection bound to a job, R323? -/
def State.connBound (s : State) (n : Nat) : Bool := s.jobs.any fun j => j.conns.contains n

/-- OP close: RESULT 1 when closed already, 2 while bound to a job. -/
def State.connCloseCmd (s : State) (n : Nat) : State × Nat :=
  if s.connState n = connClosed then (s, 1)
  else if s.connBound n then (s, 2)
  else (s.connDown n connClosed, 0)

/-- The length of an operation. -/
def FeOp.len : FeOp → Nat
  | .read _ _ len => len
  | .write _ _ data => data.length
  | .notify _ => 0

/-- OP reopen of a connection in error: new PSNs, the kept indices, and the writes of completions that the error left unacknowledged
(R312, R317); RESULT 1 in another state. -/
def State.connReopenCmd (s : State) (n : Nat) : State × Nat :=
  if s.connState n ≠ connError then (s, 1)
  else
    let l := (s.conn n).again
    (l.foldl (fun s r => s.feSend n r.op.len r.use r.op) ((s.updConn n fun c => { c with again := [] }).connStart n), 0)

/-- A write of FEI_CONN_CMD with START = 1. -/
def State.connCmd (s : State) (n op : Nat) : State :=
  let s := s.setFld F.FEI_CONN_CMD_OP n op
  let (s, r) := match op with
    | 0 => s.connOpenCmd n
    | 1 => s.connCloseCmd n
    | 2 => s.connReopenCmd n
    | _ => (s, 3)
  s.setFld F.FEI_CONN_CMD_RESULT n r

/-- CONN_OPEN: FEI_CONN_CMD OP open opens a closed connection entry, R310. -/
def execConnOpen (n : Fin 1024) (s : State) : Res := .next (s.connCmd n 0)

/-- CONN_CLOSE: FEI_CONN_CMD OP close closes a connection, refused when it is bound to a job, R312. -/
def execConnClose (n : Fin 1024) (s : State) : Res := .next (s.connCmd n 1)

/-- CONN_REOPEN: FEI_CONN_CMD OP reopen sets new PSNs and returns the connection to service, R312. -/
def execConnReopen (n : Fin 1024) (s : State) : Res := .next (s.connCmd n 2)

/-! ## Ports, R307 to R309 -/

/-- FE_PORT_LINK_CHANGE: a front-end port's link comes up or goes down, with its lane FEC locks, R307. -/
def execFePortLinkChange (port : Fin 2) (up : Bool) (lanes : BitVec 4) (s : State) : Res :=
  .next ((s.setFld F.FEI_PORT_STATUS_UP port (bit up)).setFld F.FEI_PORT_STATUS_LANES port lanes.toNat)

/-- FE_ARP: an ARP request or Neighbour Solicitation for a front-end address is answered when FEI_PORT_IP enables the address
on the port, R309. -/
def execFeArp (port : Fin 2) (addr : IpAddr) (s : State) : Res :=
  let mine := match addr with
    | .v4 a => s.flag F.FEI_PORT_IP_V4_EN port && s.fld F.FEI_PORT_IP_IPV4 port == a.toNat
    | .v6 a => s.flag F.FEI_PORT_IP_V6_EN port && s.fld F.FEI_PORT_IP_IPV6 port == a.toNat
  if mine then .next (s.emit (.neighbour port addr)) else .next s

/-- Is the last packet of an operation at or before a PSN? -/
def FeReq.ackedBy (r : FeReq) (psn : Nat) : Bool :=
  decide ((psn + 2 ^ 24 - (r.psn + r.packets - 1) % 2 ^ 24) % 2 ^ 24 < 2 ^ 23)

/-- An operation is acknowledged: a STATUS completes DONE (R328). -/
def State.feAcked (s : State) (r : FeReq) : State :=
  match r.use with
  | .status k => match s.work k with
    | some w => s.finish w stDone 0 none 0 0
    | none => s
  | _ => s

/-- An acknowledgement on a connection: every operation up to its PSN is answered. -/
def State.feAck (s : State) (n psn : Nat) : State :=
  let l := (s.conn n).reqs.filter fun r => r.ackedBy psn
  let s := s.updConn n fun c => { c with reqs := c.reqs.filter (fun r => !r.ackedBy psn), retries := if l.isEmpty then c.retries else .none }
  l.foldl (fun s r => s.feAcked r) s

/-- FE_PACKET: a front-end packet other than a doorbell is dropped, refused with NAK or taken as an acknowledgement, R307 and
R308. -/
def execFePacket (p : FePacket) (s : State) : Res :=
  match p with
  | .other port => .next (s.bump .FEI_PORT_DROP port)
  | .request n =>
    if s.connUp n then .next ((s.bump .FEI_PORT_REFUSED (s.connPort n)).emit (.feNak n))
    else .next (s.bump .FEI_PORT_DROP (s.connPort n))
  | .ack n psn => if s.connUp n then .next (s.feAck n psn.toNat) else .next (s.bump .FEI_PORT_DROP (s.connPort n))

/-- Retries made for one cause. -/
def Retries.get (r : Retries) : RetryKind → Nat
  | .timeout => r.timeouts
  | .sequence => r.sequences
  | .notReady => r.notReadies

/-- One more retry for a cause. -/
def Retries.more (r : Retries) : RetryKind → Retries
  | .timeout => { r with timeouts := r.timeouts + 1 }
  | .sequence => { r with sequences := r.sequences + 1 }
  | .notReady => { r with notReadies := r.notReadies + 1 }

/-- The outstanding operations of a connection are sent again, in order. -/
def State.feAgain (s : State) (n : Nat) : State :=
  (s.conn n).reqs.foldl (fun s r => s.emit (r.op.out n)) (s.updConn n fun c => { c with
    reqs := c.reqs.map fun r => { r with sentAt := s.up } })

/-- The local acknowledgement timeout of a connection, 4.096 µs × 2^TIMEOUT (R311). -/
def State.ackLimit (s : State) (n : Nat) : Nat := 4096 * 2 ^ s.fld F.FEI_CONN_CFG_TIMEOUT n * ns

/-- The outstanding operations of a connection are sent again, or the connection enters error when the retries for the cause are
exhausted (R311). -/
def State.feRetry (s : State) (n : Nat) (k : RetryKind) : State :=
  let c := s.conn n
  if c.retries.get k ≥ s.fld F.FEI_CONN_CFG_RETRY n then s.connDown n connError
  else (s.updConn n fun c => { c with retries := c.retries.more k }).feAgain n |>.bump .FEI_CONN_RETX n (c.reqs.map (·.packets)).sum

/-- FE_ACK_TIMEOUT: the local acknowledgement timeout of the oldest operation expires and the request is retried or the connection enters
error, R311. -/
def execFeAckTimeout (n : Fin 1024) (s : State) : Res :=
  match (s.conn n).reqs with
  | r :: _ => if s.connUp n ∧ s.up ≥ r.sentAt + s.ackLimit n then .next (s.feRetry n .timeout) else .next s
  | [] => .next s

/-- The cause of retry that a syndrome tells: an RNR NAK, or a sequence error. -/
def syndromeRetry (x : Nat) : Option RetryKind :=
  if 0x20 ≤ x ∧ x ≤ 0x3F then some .notReady else if x = 0x60 then some .sequence else none

/-- The operation that a NAK names fails: a mover's descriptor completes FE_ERROR (R164), a STATUS completes FE_ERROR. -/
def State.feFailed (s : State) (r : FeReq) (syndrome : Nat) : State :=
  match r.use with
  | .mover tag => match s.moverOfTag (tag % 64) tag with
    | some m => s.moverNak (tag % 64) m syndrome
    | none => s
  | .status k => match s.work k with
    | some w => s.finish w stFeError 0 none syndrome 0
    | none => s
  | _ => s

/-- A NAK on a connection for one of its operations: on a queue pair that is not open it is dropped and counted (R308); an RNR NAK or a sequence
error is retried; any other fails the operation and puts the connection in error (R311). -/
def State.feNak (s : State) (n syndrome : Nat) (r : Option FeReq) : State :=
  if !s.connUp n then s.bump .FEI_PORT_DROP (s.connPort n)
  else match syndromeRetry syndrome with
    | some k => s.feRetry n k
    | none => ((r.map fun r => s.feFailed r syndrome).getD s).connDown n connError

/-- FE_NAK: a NAK from the submitter fails the descriptor with FE_ERROR and puts the connection in error; an RNR NAK or a
sequence error is retried up to RETRY times, R311. -/
def execFeNak (n : Fin 1024) (psn : BitVec 24) (syndrome : BitVec 8) (s : State) : Res :=
  .next (s.feNak n syndrome.toNat
    ((s.conn n).reqs.find? fun r => decide ((psn.toNat + 2 ^ 24 - r.psn) % 2 ^ 24 < r.packets)))

/-- A NAK to a request that a mover awaits reaches its connection as any other does (R311). -/
def State.moverNakIn (s : State) (tag segment syndrome : Nat) : State :=
  match s.moverOfTag (tag % 64) tag with
  | none => s.moverLate tag
  | some m => match (s.mover (tag % 64) m).queue with
    | d :: _ =>
      if segment ≠ d.segment then s.bump .MOV_FLD_LATE (tag % 64)
      else s.feNak d.conn syndrome ((s.conn d.conn).reqs.find? fun r => r.use == .mover tag)
    | [] => s

/-- MOVER_RESPONSE: a response to a request of a mover arrives, R154; a NAK is that of its connection. -/
def execMoverResponse (tag : BitVec 32) (segment : BitVec 8) (b : MoverAnswer) (s : State) : Res :=
  match b with
  | .nak syndrome => .next (s.moverNakIn tag.toNat segment.toNat syndrome)
  | b => .next (s.moverResponse tag.toNat segment.toNat b)

/-! ## Rings, R313 to R317 -/

/-- Entries of the submission ring. -/
def State.sqSize (s : State) (n : Nat) : Nat := 2 ^ (s.fld F.FEI_CONN_SQ_LOG2N n + 6)

/-- Entries of the completion ring. -/
def State.cqSize (s : State) (n : Nat) : Nat := 2 ^ (s.fld F.FEI_CONN_CQ_LOG2N n + 6)

/-- Difference of two ring indices. -/
def ringDiff (a b : Nat) : Nat := (a + 65536 - b % 65536) % 65536

/-- Is an index behind another by signed difference? -/
def ringBehind (a b : Nat) : Bool := decide (ringDiff a b ≥ 32768)

/-- Used entries of the completion ring. -/
def State.cqUsed (s : State) (n : Nat) : Nat := ringDiff (s.fld F.FEI_CONN_IDX_CQ_PROD n) (s.fld F.FEI_CONN_IDX_CQ_CONS n)

/-- Completions promised on a connection: of descriptors taken, in progress, or done and not written. -/
def State.cqPromised (s : State) (n : Nat) : Nat :=
  (s.conn n).taken.length + (s.works.filter fun w => w.conn == n).length +
    ((s.conn n).waiting.filter fun c => c.opcode != 0xF).length

/-- Is a doorbell accepted, R314? -/
def State.doorbellOk (s : State) (n imm : Nat) : Bool :=
  let i := bits imm 0 16
  imm / 2 ^ 17 == 0 &&
    (if bitOf imm 16 then
      decide (ringDiff (s.fld F.FEI_CONN_IDX_CQ_PROD n) i ≤ s.cqSize n) && !ringBehind i (s.fld F.FEI_CONN_IDX_CQ_CONS n)
    else
      decide (ringDiff i (s.fld F.FEI_CONN_IDX_SQ_CONS n) ≤ s.sqSize n) && !ringBehind i (s.fld F.FEI_CONN_IDX_SQ_PROD n))

/-- A doorbell on a connection that is not closed. -/
def State.doorbell (s : State) (n imm : Nat) : State :=
  if s.doorbellOk n imm then
    s.setFld (if bitOf imm 16 then F.FEI_CONN_IDX_CQ_CONS else F.FEI_CONN_IDX_SQ_PROD) n (bits imm 0 16)
  else (s.bump .FEI_CONN_BADDB n).refuse .FEI_CONN_IDX n imm

/-- DOORBELL: an RDMA WRITE with immediate of length zero updates SQ_PROD or CQ_CONS, or is ignored, R314. On a queue pair that
is not open it is dropped; a connection in error takes it (Table 13.9). -/
def execDoorbell (n : Fin 1024) (imm : BitVec 32) (s : State) : Res :=
  if s.connState n = connClosed then .next (s.bump .FEI_PORT_DROP (s.connPort n))
  else .next ((s.updConn n fun c => { c with recvPsn := (c.recvPsn + 1) % 2 ^ 24 }).doorbell n imm.toNat)

/-- Words of a submission entry. -/
def sqWords (e : BitVec 512) : List Nat := (List.range 8).map fun i => bits e.toNat (64 * i) 64

/-- Entries are taken in ring order while their completions have room beyond the 8 kept for events (R315). -/
def State.takeEntries (s : State) (n : Nat) : List (BitVec 512) → State
  | [] => s
  | e :: es =>
    if s.cqUsed n + s.cqPromised n + 8 < s.cqSize n then
      ((s.setFld F.FEI_CONN_IDX_SQ_CONS n ((s.fld F.FEI_CONN_IDX_SQ_CONS n + 1) % 65536)).updConn n fun c =>
        { c with taken := c.taken ++ [sqWords e] }).takeEntries n es
    else s

/-- DESCRIPTOR_FETCH: the module reads submission entries by RDMA READ and takes them in ring order when completion room
exists, R315. `entries` is what the submitter's memory answers for the entries from SQ_CONS on: at most 32, within one pass
of the ring and up to SQ_PROD. -/
def execDescriptorFetch (n : Fin 1024) (entries : List (BitVec 512)) (s : State) : Res :=
  let cons := s.fld F.FEI_CONN_IDX_SQ_CONS n
  let k := entries.length
  let at_ := cons % s.sqSize n
  if !s.connUp n ∨ k = 0 ∨ k > 32 ∨ k > ringDiff (s.fld F.FEI_CONN_IDX_SQ_PROD n) cons ∨ at_ + k > s.sqSize n then .next s
  else
    let s := s.feRead n (s.fld F.FEI_CONN_SQ_RKEY n) (s.fld F.FEI_CONN_SQ_ADDR n + at_ * 64) (64 * k) .fetch
    .next ((s.feAnswered n .fetch).takeEntries n entries)

/-- A completion record as it is written, Table 13.4. -/
def State.cplRecord (s : State) (n : Nat) (c : Cpl) : Nat :=
  let frame := match c.frame with
    | some f => f
    | none => match s.job c.job with
      | some j => s.jobFrame j
      | none => 0
  let phase := (s.fld F.FEI_CONN_IDX_CQ_PROD n / s.cqSize n + 1) % 2
  c.tag + c.job * 2 ^ 64 + c.opcode * 2 ^ 80 + c.status * 2 ^ 84 + c.cause * 2 ^ 88 +
    s.fld F.FEI_CONN_IDX_SQ_CONS n * 2 ^ 96 + phase * 2 ^ 112 + frame % 2 ^ 32 * 2 ^ 128 + c.detail % 2 ^ 64 * 2 ^ 160 +
    c.held % 2 ^ 32 * 2 ^ 224

/-- May a completion be written: one that was promised always, an event while an entry is free beyond those promised (R317)? -/
def State.cplFits (s : State) (n : Nat) (c : Cpl) : Bool :=
  if c.opcode = 0xF then decide (s.cqUsed n + s.cqPromised n < s.cqSize n) else decide (s.cqUsed n < s.cqSize n)

/-- The first completion that may be written, with those that go on waiting. -/
def splitFirst (p : Cpl → Bool) : List Cpl → Option (Cpl × List Cpl)
  | [] => none
  | c :: cs => if p c then some (c, cs) else (splitFirst p cs).map fun r => (r.1, c :: r.2)

/-- Write one completion at CQ_PROD and advance it; after the last of a burst, notify (R316). -/
def State.writeCpl (s : State) (n : Nat) (c : Cpl) (rest : List Cpl) : State :=
  let prod := s.fld F.FEI_CONN_IDX_CQ_PROD n
  let a := s.fld F.FEI_CONN_CQ_ADDR n + prod % s.cqSize n * 32
  let s := s.feWrite n (s.fld F.FEI_CONN_CQ_RKEY n) a (toBytes 32 (s.cplRecord n c)) .completion
  let s := (s.updConn n fun k => { k with waiting := rest }).setFld F.FEI_CONN_IDX_CQ_PROD n ((prod + 1) % 65536)
  if s.flag F.FEI_CONN_CFG_NOTIFY n && !(rest.any (s.cplFits n)) then s.feSend n 0 .notify (.notify ((prod + 1) % 65536)) else s

/-- COMPLETION_WRITE: the module writes a completion at CQ_PROD, advancing it and notifying when set, R316 and R317. -/
def execCompletionWrite (n : Fin 1024) (s : State) : Res :=
  if !s.connUp n then .next s
  else match splitFirst (s.cplFits n) (s.conn n).waiting with
    | some (c, rest) => .next (s.writeCpl n c rest)
    | none => .next s

end Sys2Proof.Machine
end

