-- ==== Sys2Proof/Machine/Jobs.lean ====
section
/-!
DEFINITION. Sys2Proof/Machine/Jobs.lean: descriptors (R318, R319) and jobs (R323 to R335): loading, running, copying, status,
stop and release, as the entry module's control complex carries them out.
-/
namespace Sys2Proof.Machine

/-! ## Descriptor words, Tables 13.1 and 13.3 -/

/-- Word i of a descriptor. -/
def dw (ws : List Nat) (i : Nat) : Nat := ws.getD i 0

/-- OPCODE. -/
def dOp (ws : List Nat) : Nat := bits (dw ws 0) 0 4
/-- FENCE. -/
def dFence (ws : List Nat) : Bool := bitOf (dw ws 0) 4
/-- JOB. -/
def dJob (ws : List Nat) : Nat := bits (dw ws 0) 16 16
/-- TAG. -/
def dTag (ws : List Nat) : Nat := dw ws 1

/-- Are words i to 7 zero? -/
def zeroFrom (ws : List Nat) (i : Nat) : Bool := (List.range (8 - i)).all fun j => dw ws (i + j) == 0

/-- Does a descriptor carry a reserved opcode, EVENT, or a reserved bit (cause OPCODE)? -/
def descBad (ws : List Nat) : Bool :=
  bits (dw ws 0) 5 11 != 0 || bits (dw ws 0) 32 32 != 0 ||
  match dOp ws with
  | 0 => !zeroFrom ws 2
  | 1 => bits (dw ws 4) 34 30 != 0 || bits (dw ws 5) 37 27 != 0 || bits (dw ws 7) 48 16 != 0
  | 2 => bits (dw ws 2) 32 32 != 0 || !zeroFrom ws 3
  | 3 => bits (dw ws 3) 48 16 != 0 || bits (dw ws 4) 48 16 != 0 || bits (dw ws 5) 40 24 != 0 || !zeroFrom ws 6
  | 4 => bits (dw ws 3) 48 16 != 0 || bits (dw ws 4) 48 16 != 0 || bits (dw ws 5) 40 24 != 0 || !zeroFrom ws 6
  | 5 => bits (dw ws 3) 32 32 != 0 || !zeroFrom ws 4
  | 6 => !zeroFrom ws 2
  | 7 => !zeroFrom ws 2
  | 8 => !zeroFrom ws 2
  | _ => true

/-- Causes of Table 13.6 for refusals. -/
def cauOpcode : Nat := 0x20
/-- NO_JOB. -/
def cauNoJob : Nat := 0x21
/-- STATE. -/
def cauState : Nat := 0x22
/-- SET_IMAGE. -/
def cauSetImage : Nat := 0x23
/-- CONN. -/
def cauConn : Nat := 0x24
/-- RANGE. -/
def cauRange : Nat := 0x25
/-- WAIT. -/
def cauWait : Nat := 0x26
/-- JOBS. -/
def cauJobs : Nat := 0x27
/-- Placement reasons of Table 11.2. -/
def reasonFields : Nat := 1
/-- SHAPE. -/
def reasonShape : Nat := 2
/-- REACH. -/
def reasonReach : Nat := 5
/-- VOTE_DEPTH. -/
def reasonVote : Nat := 6
/-- QUOTA. -/
def reasonQuota : Nat := 7
/-- SLOTS. -/
def reasonSlots : Nat := 8
/-- LINK. -/
def reasonLink : Nat := 9
/-- SUBMITTER and OPERATOR of Table 13.6. -/
def cauSubmitter : Nat := 0x70
/-- OPERATOR. -/
def cauOperator : Nat := 0x71

/-! ## Starting descriptors, R319 -/

/-- The next descriptor of a connection, unless a FENCE holds it back: one of an opcode that names a job (R318). -/
def State.nextDesc (s : State) (n : Nat) : Option (List Nat) :=
  match (s.conn n).taken with
  | ws :: _ =>
    if dFence ws && decide (1 < dOp ws) && s.works.any fun w => w.conn == n && w.job == dJob ws then none else some ws
  | [] => none

/-- The next descriptor is taken from its connection. -/
def State.takeDesc (s : State) (n : Nat) : State := s.updConn n fun c => { c with taken := c.taken.drop 1 }

/-- A descriptor is refused. -/
def State.refuseDesc (s : State) (n : Nat) (ws : List Nat) (job cause detail : Nat) : State :=
  s.reply n { tag := dTag ws, job := job, opcode := dOp ws, status := stRefused, cause := cause, frame := none
              detail := detail, held := 0 }

/-- A descriptor completes at once. -/
def State.doneDesc (s : State) (n : Nat) (ws : List Nat) (job : Nat) : State :=
  s.reply n { tag := dTag ws, job := job, opcode := dOp ws, status := stDone, cause := 0, frame := none, detail := 0, held := 0 }

/-- A descriptor becomes work in progress. -/
def State.addWork (s : State) (n job : Nat) (ws : List Nat) (begun : Bool) : State × Work :=
  let w : Work := { num := s.nextWork, conn := n, job := job, opcode := dOp ws, tag := dTag ws, words := ws, parts := []
                    begun := begun }
  ({ s with works := s.works ++ [w], nextWork := s.nextWork + 1 }, w)

/-- Carry out the next descriptor of a connection if it has an opcode and no reserved bit; nothing otherwise. -/
def State.withDesc (s : State) (n op : Nat) (g : State → List Nat → State) : Res :=
  match s.nextDesc n with
  | some ws => if dOp ws = op ∧ !descBad ws then .next (g (s.takeDesc n) ws) else .next s
  | none => .next s

/-- Code of a job state, Table 13.7. -/
def JobState.code : JobState → Nat
  | .queued => 0
  | .loading => 1
  | .idle => 2
  | .running => 3
  | .preempted => 4
  | .stopped => 5

/-- Carry out the next descriptor of a connection on the job it names: refused for NO_JOB, then for STATE, then for a cause
that `check` gives. -/
def State.withJob (s : State) (n op : Nat) (allowed : JobState → Bool) (check : State → Job → List Nat → Nat)
    (g : State → Job → List Nat → State) : Res :=
  s.withDesc n op fun s ws =>
    match s.job (dJob ws) with
    | some j =>
      if !j.conns.contains n then s.refuseDesc n ws (dJob ws) cauNoJob 0
      else if !allowed j.state then s.refuseDesc n ws j.ident cauState j.state.code
      else match check s j ws with
        | 0 => g s j ws
        | c => s.refuseDesc n ws j.ident c 0
    | none => s.refuseDesc n ws (dJob ws) cauNoJob 0

/-- No check beyond the state. -/
def noCheck : State → Job → List Nat → Nat := fun _ _ _ => 0

/-- NOP_DESCRIPTOR: a NOP descriptor completes DONE, R318. -/
def execNopDescriptor (n : Fin 1024) (s : State) : Res := s.withDesc n 0 fun s ws => s.doneDesc n ws 0

/-- INVALID_OPCODE: a descriptor with a reserved or EVENT opcode, or a reserved bit, is refused with cause OPCODE, R318. -/
def execInvalidOpcode (n : Fin 1024) (s : State) : Res :=
  match s.nextDesc n with
  | some ws =>
    if descBad ws then
      .next ((s.takeDesc n).refuseDesc n ws (if dOp ws ≤ 1 then 0 else dJob ws) cauOpcode 0)
    else .next s
  | none => .next s

/-! ## LOAD, R323 and R324 -/

/-- Connections that a LOAD names beside its own, 0xFFFF for none. -/
def loadConns (ws : List Nat) : List Nat :=
  (((List.range 4).map fun i => bits (dw ws 6) (16 * i) 16) ++ (List.range 3).map fun i => bits (dw ws 7) (16 * i) 16).filter
    fun c => c != 0xFFFF

/-- The cause that refuses a LOAD in its first step; 0 for none. -/
def State.loadCheck (s : State) (ws : List Nat) : Nat :=
  if bits (dw ws 3) 32 32 = 0 ∨ bits (dw ws 4) 17 6 = 0 ∨ bits (dw ws 4) 17 6 > 56 ∨ bits (dw ws 4) 27 7 = 0 ∨
      bits (dw ws 4) 27 7 > 64 then cauRange
  else if (loadConns ws).any fun c => !s.connUp c then cauConn
  else if s.jobs.length ≥ 256 then cauJobs
  else 0

/-- The next job id from a number on that no job holds, skipping 0 (R323). -/
def State.freeIdent (s : State) : Nat → Nat → Nat
  | 0, i => i
  | fuel + 1, i =>
    let i := if i % 65536 = 0 then 1 else i % 65536
    if (s.job i).isSome then s.freeIdent fuel (i + 1) else i

/-- The job that a LOAD creates. -/
def State.newJob (s : State) (n ident : Nat) (ws : List Nat) : Job :=
  { ident := ident, state := .queued, tag := dTag ws, homeConn := n, conns := n :: loadConns ws
    extent := bits (dw ws 4) 0 14, wrap := bits (dw ws 4) 14 3, fields := bits (dw ws 4) 17 6
    prio := bits (dw ws 4) 23 4, share := bits (dw ws 4) 27 7, frames := bits (dw ws 5) 0 21
    waitMs := bits (dw ws 5) 21 16, imageAddr := dw ws 2, imageRkey := bits (dw ws 3) 0 32
    imageLen := bits (dw ws 3) 32 32, order := s.nextOrder, reason := 0, tried := false, placed := false, slice := 0, slot := 0, entry := 0
    owned := [], home := s.selfId, imageFrames := [], otherFrames := [], stage := .fetching, undo := [], away := [], cause := ⟨0, 0⟩
    resumeOk := false, loadAt := s.now, placedAt := 0, advancedAt := 0, loadTick := s.up, placedTick := 0
    stopTick := 0, preempts := 0, advanced := 0, held := 0, run := none, entryIdx := 0, entryRep := 0, stopping := none
    releasing := .no, failing := none }

/-- LOAD: a LOAD descriptor creates a job, which the scheduler then places and loads, R324. -/
def execLoad (n : Fin 1024) (s : State) : Res :=
  s.withDesc n 1 fun s ws =>
    match s.loadCheck ws with
    | 0 =>
      let i := s.freeIdent 65536 s.nextJob
      let s := { s with jobs := s.jobs ++ [s.newJob n i ws], nextJob := i + 1, nextOrder := s.nextOrder + 1 }
      (s.addWork n i ws true).1
    | c => s.refuseDesc n ws 0 c 0

/-- The LOAD of a job in progress. -/
def State.loadWork (s : State) (i : Nat) : Option Work := s.works.find? fun w => w.job == i && w.opcode == 1

/-! ## Placing a job on the module -/

/-- Put a slot back to what it is without a slice. -/
def State.clearSlot (s : State) (n : Nat) : State :=
  let s := ([Reg.SEQ_SLOT_CFG, .SEQ_NEXT, .SEQ_FRAME, .SEQ_STATUS, .SEQ_SET_BASE, .SEQ_LIVE, .SEQ_FAULT, .SEQ_FAULT_ADDR,
    .JOB_SLOT_A, .JOB_SLOT_B, .PWR_SLOT_STATE, .PWR_SLOT_IDLE]).foldl (fun s r => s.resetReg r n) s
  s.setSlot n Slot.init

/-- A slot starts to serve a slice. -/
def State.openSlot (s : State) (n slice : Nat) : State :=
  ((s.clearSlot n).setFld F.SEQ_SLOT_CFG_SLICE_ID n slice).setFld F.SEQ_SLOT_CFG_ACTIVE n 1

/-- The slice entry of a new slice. -/
def State.openEntry (s : State) (e slice slot share home origin extent wrap hop : Nat) : State :=
  let s := s.putRoute .RTE_SLICE_BOX e (origin + extent * 2 ^ 14 + wrap * 2 ^ 28)
  let s := s.putRoute .RTE_SLICE_HOP e hop
  s.putRoute .RTE_SLICE e (slice + 2 ^ 12 + slot * 2 ^ 14 + s.fld F.RTE_SLICE_EPOCH e * 2 ^ 20 + share * 2 ^ 36 + home * 2 ^ 43)

/-- The quota entry of a slice, by its slice entry: LIMIT frames, none held. -/
def State.openQuota (s : State) (e slice limit : Nat) : State :=
  (((s.wr .LPD_QUOTA e 0).setFld F.LPD_QUOTA_SLICE_ID e slice).setFld F.LPD_QUOTA_ACTIVE e 1).setFld F.LPD_QUOTA_LIMIT e limit

/-- The lowest run of n consecutive free frames of job LPDDR from a number on: `run` counts those before k. -/
def Memory.freeRun (m : Memory) (n : Nat) : Nat → Nat → Nat → Option Nat
  | 0, k, run => if run ≥ n then some (k - run) else none
  | fuel + 1, k, run =>
    if run ≥ n then some (k - run)
    else m.freeRun n fuel (k + 1) (if m.ownerOf k = 0 then run + 1 else 0)

/-- Allocate given frames to a slice; none when the quota or an owner does not allow it. -/
def State.allocThese (s : State) (slice : Nat) : List Nat → Option State
  | [] => some s
  | k :: ks => match s.allocFrame slice k with
    | (s, 0) => s.allocThese slice ks
    | _ => none

/-- Frames of an image, R324. -/
def Job.imageCount (j : Job) : Nat := ceilDiv (j.imageLen * 4096) (2 ^ 21)

/-- Slice-virtual address at which the control complex maps the image while it fetches it: the top of the space. -/
def Job.imageVa (j : Job) : Nat := 2 ^ 48 - j.imageCount * 2 ^ 21

/-- A posting by the control complex on mover 15 of a field, under a fresh posting ID. -/
def State.ccPost (s : State) (f kind src dst len srcSpace dstSpace rkey conn : Nat) : State × Nat :=
  let i := s.nextIdent % 2 ^ 21
  let v := (kind + srcSpace * 2 ^ 4 + dstSpace * 2 ^ 6 + len * 2 ^ 16) + src * 2 ^ 64 + dst * 2 ^ 128 +
    (rkey + conn * 2 ^ 32) * 2 ^ 192
  let s := { s with nextIdent := s.nextIdent + 1 }
  (s.postDesc f 15 v 0x1FF (bits i 0 14) (bits i 14 7) true false, i)

/-- The parts of a transfer over fields: each a whole number of 4 KiB except the last (R327), as (field, offset, length). -/
def partsOf (fields : List Nat) (len : Nat) : List (Nat × Nat × Nat) :=
  let k := fields.length
  let per := ceilDiv (ceilDiv len 4096) k * 4096
  ((List.range k).map fun i => (fields.getD i 0, i * per, min per (len - i * per))).filter fun p => p.2.2 != 0

/-- A part that has been posted. -/
def Part.fresh (f i : Nat) : Part := { field := f, ident := i, past := false, status := 0, bytes := 0, code := 0 }

/-- Post the parts of a descriptor's transfer with a function of (field, offset, length). -/
def State.postParts (s : State) (w : Work) (parts : List (Nat × Nat × Nat)) (post : State → Nat → Nat → Nat → State × Nat) :
    State :=
  parts.foldl (fun s p =>
    let (s, i) := post s p.1 p.2.1 p.2.2
    s.updWork w.num fun w => { w with parts := w.parts ++ [Part.fresh p.1 i], begun := true }) s

/-! ## Freeing a job, R324 and R331 -/

/-- The fields of a slot return to the scheduler, and the slot serves no slice. -/
def State.returnFields (s : State) (n : Nat) : State :=
  let fs := s.fieldsOf n
  let s := s.invalidate n none
  let s := { s with remotes := s.remotes.filter fun r => !fs.contains r.field }
  let s := fs.foldl State.takeField s
  (s.clearSlot n).resetReg .MMU_SLOT_ROOT n

/-- A slice gives up its slot for good: its movers' queues are cancelled. -/
def State.leaveSlot (s : State) (n : Nat) : State :=
  (s.eachMover n fun s f m => s.updMover f m Mover.cancelAll).returnFields n

/-- The entry, the quota and every frame of a slice are given up. -/
def State.leaveEntry (s : State) (e slice : Nat) (frames : List Nat) : State :=
  let s := frames.foldl (fun s k => (s.freeFrame slice k).1) s
  let s := (s.setFld F.LPD_QUOTA_ACTIVE e 0).dropRoutes e
  let s := (s.setFld F.RTE_SLICE_ACTIVE e 0).dropPackets slice
  { s with saved := s.saved.filter (fun v => v.slice != slice), farFields := s.farFields.filter fun x => x.1 / 16384 != slice
           farJobs := s.farJobs.filter fun x => x.1 != slice, areas := mapDel slice s.areas
           voteDelays := mapSet (fun _ => none) e none s.voteDelays, nextDelays := mapSet (fun _ => none) e none s.nextDelays }

/-- Frames of job LPDDR that a slice owns on the module. -/
def State.framesOf (s : State) (slice : Nat) : List Nat :=
  (s.mem.owner.filter fun e => e.2 == slice + 1).map (·.1)

/-- Everything a job holds is freed on every member and holder (R331), and the job is deleted. -/
def State.dropJob (s : State) (j : Job) : State :=
  let s := if j.slice = 0 then s else s.tellAll j.slice (.sliceRelease (BitVec.ofNat 12 j.slice))
  let s := if j.placed then s.leaveSlot j.slot else s
  let s := if j.slice = 0 then s else s.leaveEntry j.entry j.slice (s.framesOf j.slice)
  { s with jobs := s.jobs.filter fun x => x.ident != j.ident }

/-- Put registers back to what a list says they held. -/
def State.putBack (s : State) (l : List (Nat × Nat)) : State := { s with regs := l.foldl (fun m e => mapSet regDflt e.1 e.2 m) s.regs }

/-- A LOAD that has failed ends: what the job held is freed, the tables that its placement wrote are as they were before
(R281), and the job is deleted. -/
def State.endLoad (s : State) (j : Job) (c : StopCause) : State :=
  let s := (s.dropJob j).putBack j.undo
  match s.loadWork j.ident with
  | some w => s.finish w c.status c.cause none c.detail 0
  | none => s

/-- A LOAD is refused, or ends in FE_ERROR, once the movers that fetch its image have parked (R162). -/
def State.failLoad (s : State) (j : Job) (status cause detail : Nat) : State :=
  let c : StopCause := ⟨status, cause, detail, none, none⟩
  let s := if j.placed then s.cancelMovers j.slot else s
  if !j.placed || s.moversDrained j.slot then s.endLoad j c
  else s.updJob j.ident fun j => { j with failing := some (j.failing.getD c) }

/-! ## Loading, R324 and R325 -/

/-- Frames of the save area of a field with a live-bank mask, R325. -/
def saveFrames (live : Nat) : Nat := ceilDiv (450 * (65536 * popCount 48 live + 131584) + 32768) (2 ^ 21)

/-- The image of a placed job. -/
def State.jobImage (s : State) (j : Job) : Img := s.memImg (j.imageFrames.headD 0 * 2 ^ 21)

/-- Where page k of a memory-map region lies, by rank (R83, Table 3.18): interleaving takes pages, or whole 1 GiB pages. -/
def MapRegion.rankOfPage (r : MapRegion) (members k : Nat) : Nat :=
  match r.place with
  | 0 => 0
  | 1 => (if r.huge then k / 512 else k) % members
  | _ => r.rank

/-- Rank that a PLACE of 0 means: the entry module's. -/
def State.entryRank (s : State) (j : Job) : Nat := (s.rankOf j.entry s.selfId).getD 0

/-- Rank of page k of a region for a job. -/
def State.pageRank (s : State) (j : Job) (r : MapRegion) (k : Nat) : Nat :=
  if r.place = 0 then s.entryRank j else r.rankOfPage (boxMembers j.extent) k

/-- Frames that a memory map needs on a rank. -/
def State.mapFrames (s : State) (j : Job) (m : Img) (rank : Nat) : Nat :=
  (m.regions.map fun r => ((List.range r.pages).filter fun k => s.pageRank j r k == rank).length).sum

/-- Does the memory map need more frames on some member than FRAMES allows, or another member have too few frames for it and the save
areas (cause QUOTA)? -/
def State.mapTooBig (s : State) (j : Job) (m : Img) : Bool :=
  ((List.range (boxMembers j.extent)).any fun r => decide (s.mapFrames j m r > j.frames)) ||
    j.away.any fun a => decide (s.mapFrames j m a.1 + saveFrames m.live * j.fields > a.2)

/-- Copy bytes of the image into a page of a slice's LPDDR; every tile of it gets its record (R128). -/
def State.fillPage (s : State) (slice : Nat) (m : Img) (src dst n : Nat) : State :=
  let mem := s.mem.writeIn dst ((List.range n).map fun i => BitVec.ofNat 8 (m (src + i) 1)) 0
  { s with mem := forNats (fun t mem => mem.touchLpddr (dst + 4096 * t) (s.epochOf slice)) (List.range (n / 4096)) mem }

/-- Map one 2 MiB page of a region on this module into a frame, filled from INIT or left zero (R83). -/
def State.mapOne (s : State) (j : Job) (m : Img) (r : MapRegion) (k frame : Nat) : State :=
  let s := if r.init = 0xFFFFFFFFFFFFFFFF then s
           else s.fillPage j.slice m (m.offOf 6 + r.init + k * 2 ^ 21) (frame * 2 ^ 21) (2 ^ 21)
  s.mapPage j.slot j.slice (r.va + k * 2 ^ 21) (s.globalOf (frame * 2 ^ 21) / 2 ^ 21) (bitOf r.flags 0)

/-- Map the pages of a region that lie on this module; 2 MiB pages take the lowest free frames, a 1 GiB page takes 512
consecutive ones from a multiple of 512. None when frames or quota do not allow it. -/
def State.mapRegion (s : State) (j : Job) (m : Img) (r : MapRegion) : Option State :=
  let here := (List.range r.pages).filter fun k => s.pageRank j r k == s.entryRank j
  if r.huge then
    (here.filter fun k => k % 512 == 0).foldl (fun o k => match o with
      | none => none
      | some s =>
        match (List.range (jobFrames / 512)).find? fun b =>
            (List.range 512).all fun i => s.mem.ownerOf (b * 512 + i) == 0 with
        | none => none
        | some b =>
          match s.allocThese j.slice (rangeFrom (b * 512) 512) with
          | none => none
          | some s =>
            let s := (List.range 512).foldl (fun s i =>
              if r.init = 0xFFFFFFFFFFFFFFFF then s
              else s.fillPage j.slice m (m.offOf 6 + r.init + (k + i) * 2 ^ 21) ((b * 512 + i) * 2 ^ 21) (2 ^ 21)) s
            some (s.mapHuge j.slot j.slice (r.va + k * 2 ^ 21) (s.globalOf (b * 2 ^ 30) / 2 ^ 21) (bitOf r.flags 0)))
      (some s)
  else
    here.foldl (fun o k => match o with
      | none => none
      | some s => match s.allocFrames j.slice 1 with
        | some (s, [f]) => some (s.mapOne j m r k f)
        | _ => none) (some s)

/-- Map every region's pages on this module. -/
def State.mapRegions (s : State) (j : Job) (m : Img) : Option State :=
  m.regions.foldl (fun o r => match o with | none => none | some s => s.mapRegion j m r) (some s)

/-- Remove the mapping of the image at the top of the slice-virtual space. -/
def State.unmapImage (s : State) (j : Job) : State :=
  let s := (List.range j.imageCount).foldl (fun s k =>
    let va := j.imageVa + k * 2 ^ 21
    let e1 := s.rawEntry (s.rd .MMU_SLOT_ROOT j.slot % 2 ^ 50 + va / 2 ^ 30 * 16)
    s.putEntry (bits e1 77 51 * 2 ^ 13 % 2 ^ 50 + va / 2 ^ 21 % 512 * 16) 0) s
  s.invalidate j.slot none

/-- Step 4 of R324: the image is checked, save areas and the memory map are allocated, page tables built, and the fields'
step-store loads started. -/
def State.loadPrograms (s : State) (j : Job) : State :=
  let m := s.jobImage j
  match m.fault j.extent j.fields j.imageLen with
  | some k => s.failLoad j stRefused cauSetImage (k % 16 * 2 ^ 20)
  | none =>
    if (List.range (m.countOf 1)).any fun i => !(m.store (m.stepMap i)).hasRest then s.failLoad j stRefused cauSetImage 0
    else if s.mapTooBig j m then s.failLoad j stRefused reasonQuota 0
    else
      let save := saveFrames m.live * j.fields
      let s1 := s.setFld F.LPD_QUOTA_LIMIT j.entry (j.frames + j.imageCount + save)
      match s1.allocFrames j.slice save with
      | none => s.failLoad j stRefused reasonQuota 0
      | some (s1, areas) =>
        match (s1.unmapImage j).mapRegions j m with
        | none => s.failLoad j stRefused reasonQuota 0
        | some s1 =>
          let s1 := s1.setFld F.SEQ_SET_BASE_BASE j.slot (s.globalOf (j.imageFrames.headD 0 * 2 ^ 21))
          let s1 := s1.setFld F.SEQ_LIVE_LIVE j.slot m.live
          let s1 := s1.tellAll j.slice (.sliceSet (BitVec.ofNat 12 j.slice) (BitVec.ofNat 64 (s.globalOf (j.imageFrames.headD 0 * 2 ^ 21)))
            (BitVec.ofNat 48 m.live) ((List.range (m.countOf 3)).map fun i => BitVec.ofNat 64 (m.depend i)))
          let s1 := j.owned.foldl (fun s f => s.loadStart f j.slot) s1
          s1.updJob j.ident fun j => { j with otherFrames := areas, stage := .programs }

/-- The bytes that a part of a transfer has moved: those of its completion, or PROGRESS of its posting in the mover or in a saved context. -/
def State.partBytes (s : State) (p : Part) : Nat :=
  let mine := fun (d : Desc) => d.cc && d.step + d.frame * 2 ^ 14 == p.ident
  let v := s.mover p.field 15
  if p.past then p.bytes
  else match v.queue.find? mine, v.finished.find? fun x => x.cc && x.step + x.frame * 2 ^ 14 == p.ident with
    | some d, _ => d.progress
    | none, some x => x.bytes
    | none, none =>
      match (((s.saved.map (·.fields)).flatten.filter fun x => x.field == p.field).map fun x =>
          (mapGet (fun _ => Mover.init) x.movers 15).queue).flatten.find? mine with
      | some d => d.progress
      | none => 0

/-- The bytes that a transfer has moved. -/
def State.workBytes (s : State) (w : Work) : Nat := (w.parts.map s.partBytes).sum

/-- A LOAD whose image has been fetched and whose fields are clear goes on to its programs; one whose fetch met a NAK ends. -/
def State.loadTick (s : State) (j : Job) : State :=
  match j.state, j.stage, s.loadWork j.ident with
  | .loading, .fetching, some w =>
    if j.failing.isSome then s.failLoad j 0 0 0
    else match w.parts.find? fun p => p.past && p.status == doneFe with
    | some p => s.failLoad j stFeError 0 (p.code % 256 + s.workBytes w * 2 ^ 8)
    | none =>
      if w.parts.all (·.past) && j.owned.all fun f => !s.flag F.SRM_FLD_CLEAR_BUSY f then s.loadPrograms j else s
  | _, _, _ => s

/-- The global targets of the pages that lie on other members, in the order of regions and pages, are entered (R83). -/
def State.mapAway (s : State) (j : Job) (m : Img) (targets : List (BitVec 43)) : State :=
  let pages := (m.regions.map fun r =>
    ((List.range r.pages).filter fun k => s.pageRank j r k != s.entryRank j && (!r.huge || k % 512 == 0)).map
      fun k => (r, k)).flatten
  (pages.zip targets).foldl (fun s p =>
    let va := p.1.1.va + p.1.2 * 2 ^ 21
    if p.1.1.huge then s.mapHuge j.slot j.slice va p.2.toNat (bitOf p.1.1.flags 0)
    else s.mapPage j.slot j.slice va p.2.toNat (bitOf p.1.1.flags 0)) s

/-- The other members of a job's slice hear of its state, which JOB_SLOT_A shows there (R329). -/
def State.tellState (s : State) (j : Job) (st : JobState) : State :=
  s.tellAll j.slice (.sliceState (BitVec.ofNat 12 j.slice) (BitVec.ofNat 3 st.code))

/-- LOAD_DONE: at the first tick after the programs are loaded the LOAD completes DONE and the job is IDLE, R324; a field that
rejected the set refuses it. `targets` are the pages on other members, bits [63:21] of their global addresses. -/
def execLoadDone (job : BitVec 16) (targets : List (BitVec 43)) (s : State) : Res :=
  match s.job job.toNat with
  | none => .next s
  | some j =>
    match j.state, j.stage, s.loadWork j.ident with
    | .loading, .programs, some w =>
      if j.owned.any fun f => s.flag F.SEQ_FLD_LOAD_BUSY f then .next s
      else match j.owned.find? fun f => s.fld F.SEQ_FLD_LOAD_ERROR f != 0 with
        | some f =>
          .next (s.failLoad j stRefused cauSetImage
            (s.fld F.SEQ_FLD_LOAD_ERROR f + f * 2 ^ 4 + s.fld F.SEQ_FLD_LOAD_CORE f * 2 ^ 10))
        | none =>
          let s := (s.mapAway j (s.jobImage j) targets).tellState j .idle
          let s := s.updJob j.ident fun j => { j with state := .idle, stage := .loaded }
          .next (s.finish w stDone 0 none (j.slice + j.home * 2 ^ 12 + boxMembers j.extent * 2 ^ 26) 0)
    | _, _, _ => .next s

/-- LOAD_WAIT_EXPIRED: WAIT_MS elapses without placement and the LOAD is refused with cause WAIT, R324; one with WAIT_MS = 0 is refused by its
first failed attempt instead. -/
def execLoadWaitExpired (job : BitVec 16) (s : State) : Res :=
  match s.job job.toNat with
  | some j =>
    if j.state = .queued ∧ j.waitMs ≠ 0 ∧ s.since j.loadTick ≥ j.waitMs * 1000000 then .next (s.failLoad j stRefused cauWait j.reason)
    else .next s
  | none => .next s

/-! ## RUN, R326 -/

/-- The entry module of a slot's slice: the one whose memory holds the slice's program set (R52, R324). -/
def State.entryModule (s : State) (n : Nat) : Nat := s.fld F.SEQ_SET_BASE_BASE n / 2 ^ 50

/-- The dependency records of a slot's program set (R57): from the image where this module holds it, else as the entry module told them. -/
def State.dependsOf (s : State) (n : Nat) : List Nat :=
  if s.entryModule n = s.selfId then
    let m := s.memImg (s.fld F.SEQ_SET_BASE_BASE n % 2 ^ 50)
    (List.range (m.countOf 3)).map m.depend
  else (s.slot n).depends

/-- Is a posting the one that a record of Table 3.17 names, for a frame: its program, step and frame agree? -/
def dependNames (d frame prog step posted : Nat) (cc : Bool) : Bool :=
  !cc && prog == bits d 8 8 && step == bits d 16 14 && posted == (frame - bits d 30 8) % 2 ^ 32

/-- May the frame of a slot that runs, or is to run again, still make the posting that a record names, one frame back? -/
def State.dependComes (s : State) (n d : Nat) : Bool :=
  bits d 30 8 == 1 && (s.slot n).started && s.fld F.SEQ_STATUS_INDEX n == bits d 8 8 &&
    (s.anyRunning n || (s.slot n).rerun || s.flag F.SEQ_STATUS_FAULTED n)

/-- Does a slot's next frame find every posting of this module on its program's dependency list made, complete and visible (R57)? -/
def State.dependMet (s : State) (n prog : Nat) : Bool :=
  let next := if (s.slot n).started then s.rd .SEQ_FRAME n + 1 else 0
  (s.dependsOf n).all fun d =>
    bits d 0 8 != prog || decide (next < bits d 30 8) || !s.dependComes n d &&
      (s.moversOf n).all fun p =>
        let v := s.mover p.1 p.2
        !(v.queue.any fun x => dependNames d next x.prog x.step x.frame x.cc) &&
          !(v.finished.any fun x => dependNames d next x.prog x.step x.frame x.cc)

/-- The program that a RUN names next: its entry's, or the rest program after the last. -/
def RunState.program (r : RunState) (m : Img) : Nat := if r.idx = r.entries then 255 else m.program (r.first + r.idx)

/-- The control complex writes SEQ_NEXT of a job's slot; a change is told to every other member, whose home module decides by it
(log entry 91). -/
def State.jobNext (s : State) (j : Job) (index : Nat) (valid : Bool) : State :=
  let old := s.rd .SEQ_NEXT j.slot
  let s := s.nextWrite j.slot index valid
  if s.rd .SEQ_NEXT j.slot = old then s else s.tellAll j.slice (.sliceNext (BitVec.ofNat 12 j.slice) (BitVec.ofNat 8 index) valid)

/-- The control complex writes SEQ_NEXT for a job's RUN: VALID only once the program's postings are complete (R57). -/
def State.runWrite (s : State) (j : Job) : State :=
  match j.run with
  | some r =>
    if j.placed ∧ j.state = .running then
      let p := r.program (s.jobImage j)
      s.jobNext j p (s.dependMet j.slot p)
    else s
  | none => s

/-- A RUN begins: the job is RUNNING, or runs once its slice is restored. -/
def State.runStart (s : State) (j : Job) (w : Work) : State :=
  let r : RunState := { first := bits (dw w.words 2) 0 16, entries := bits (dw w.words 2) 16 16, idx := 0, rep := 0
                        frames := 0, held := 0 }
  let s := s.updWork w.num fun w => { w with begun := true }
  let s := s.updJob j.ident fun j => { j with run := some r, state := if j.state = .idle then .running else j.state
                                              entryIdx := r.first, entryRep := 0 }
  match s.job j.ident with
  | some j => (s.tellState j .running).runWrite j
  | none => s

/-- The oldest RUN of a job that waits begins when none is in progress (R319). -/
def State.nextRun (s : State) (i : Nat) : State :=
  match s.job i with
  | some j =>
    if j.run.isSome then s
    else match s.works.find? fun w => w.job == i && w.opcode == 2 && !w.begun with
      | some w => if j.state = .idle ∨ j.state = .preempted then s.runStart j w else s
      | none => s
  | none => s

/-- The schedule's length of a job. -/
def State.scheduleLen (s : State) (j : Job) : Nat := (s.jobImage j).countOf 4

/-- RUN: a RUN descriptor runs schedule entries frame by frame and completes at the advance into the rest frame, R326. -/
def execRun (n : Fin 1024) (s : State) : Res :=
  s.withJob n 2 (fun st => st == .idle || st == .running || st == .preempted)
    (fun s j ws =>
      let first := bits (dw ws 2) 0 16
      let k := bits (dw ws 2) 16 16
      if k = 0 ∨ first + k > s.scheduleLen j then cauRange else 0)
    (fun s j ws => ((s.addWork n j.ident ws false).1).nextRun j.ident)

/-- The RUN in progress of a job. -/
def State.runWork (s : State) (i : Nat) : Option Work := s.works.find? fun w => w.job == i && w.opcode == 2 && w.begun

/-- A slice of a job advances at a tick: the RUN moves to its next frame; the advance into the rest frame completes it, and
SEQ_NEXT then names no program (R326). `past` says that the advance leaves a frame behind. -/
def State.runAdvance (s : State) (j : Job) (past : Bool) : State :=
  let j := { j with advanced := j.advanced + bit past, advancedAt := s.now }
  match j.run with
  | none => s.updJob j.ident fun _ => j
  | some r =>
    let started := decide (r.idx > 0) || decide (r.rep > 0)
    let r := { r with frames := r.frames + bit started }
    if r.idx = r.entries then
      let s := s.updJob j.ident fun _ => { j with run := none, state := .idle, entryRep := (s.jobImage j).repeats j.entryIdx }
      let s := (s.jobNext j 255 false).tellState j .idle
      let s := match s.runWork j.ident with
        | some w => s.finish w stDone 0 none r.frames (min r.held 0xFFFFFFFF)
        | none => s
      s.nextRun j.ident
    else
      let rep := r.rep + 1
      let e := r.first + r.idx
      let r' := if rep = (s.jobImage j).repeats e then { r with idx := r.idx + 1, rep := 0 } else { r with rep := rep }
      s.updJob j.ident fun _ => { j with run := some r', entryIdx := e, entryRep := rep - 1 }

/-- A slice of a job holds at a tick. -/
def State.runHold (s : State) (i : Nat) : State :=
  s.updJob i fun j => { j with held := j.held + 1, run := j.run.map fun r => { r with held := r.held + 1 } }

/-! ## COPY, R327 -/

/-- The connection of a COPY. -/
def copyConn (w : Work) : Nat := if bits (dw w.words 3) 32 16 = 0xFFFF then w.conn else bits (dw w.words 3) 32 16

/-- Post the parts of a COPY on mover 15 of up to 4 fields, once the job's pages are mapped and the queues have room. -/
def State.startCopy (s : State) (j : Job) (w : Work) : State :=
  let fs := (s.fieldsOf j.slot).take 4
  let ready := j.placed && (j.state == .idle || j.state == .running || j.state == .stopped) &&
    ((s.slot j.slot).phase == .placed || (s.slot j.slot).phase == .stopped)
  if w.begun ∨ !ready ∨ fs.isEmpty ∨ fs.any fun f => decide ((s.mover f 15).queue.length ≥ 32) then s
  else
    let remote := dw w.words 2
    let rkey := bits (dw w.words 3) 0 32
    let va := dw w.words 4
    s.postParts w (partsOf fs (dw w.words 5)) fun s f off len =>
      if w.opcode = 3 then s.ccPost f 2 (remote + off) (va + off) len 2 0 rkey (copyConn w)
      else s.ccPost f 3 (va + off) (remote + off) len 0 2 rkey (copyConn w)

/-- Every COPY that waits begins if it can. -/
def State.startCopies (s : State) : State :=
  s.works.foldl (fun s w =>
    if w.opcode = 3 ∨ w.opcode = 4 then
      match s.job w.job with
      | some j => s.startCopy j w
      | none => s
    else s) s

/-- The cause that refuses a COPY beyond the state; 0 for none. -/
def copyCheck (s : State) (j : Job) (ws : List Nat) : Nat :=
  let c := bits (dw ws 3) 32 16
  if c ≠ 0xFFFF ∧ (!j.conns.contains c ∨ !s.connUp c) then cauConn
  else if dw ws 4 % 64 ≠ 0 ∨ dw ws 5 % 64 ≠ 0 ∨ dw ws 5 = 0 then cauRange
  else 0

/-- Start a COPY. -/
def copyGo (n : Nat) (s : State) (j : Job) (ws : List Nat) : State :=
  let (s, w) := s.addWork n j.ident ws false
  s.startCopy j w

/-- COPY_IN: COPY_IN moves submitter memory into job memory through FE_READ movers, R327. -/
def execCopyIn (n : Fin 1024) (s : State) : Res := s.withJob n 3 (fun st => st != .stopped) copyCheck (copyGo n)

/-- COPY_OUT: COPY_OUT moves job memory to submitter memory through FE_WRITE movers, R327. -/
def execCopyOut (n : Fin 1024) (s : State) : Res := s.withJob n 4 (fun _ => true) copyCheck (copyGo n)

/-- The parts of a COPY are all over, or one met a NAK: it completes (R327, Table 13.5). One with a part that was rejected or failed its audit is
told by the stop of its job (R322). -/
def State.copyDone (s : State) (w : Work) : State :=
  let bytes := s.workBytes w
  match w.parts.find? fun p => p.past && p.status == doneFe with
  | some p => s.finish w stFeError 0 none (p.code % 256 + bytes % 2 ^ 40 * 2 ^ 8) 0
  | none =>
    if !w.begun ∨ !(w.parts.all (·.past)) ∨ w.parts.any (fun p => p.status == doneRejected || p.status == doneAudit) then s
    else if w.parts.any fun p => p.status != 0 then s.finish w stCancelled 0 none (bytes % 2 ^ 40) 0
    else s.finish w stDone 0 none bytes 0

/-- The completion of a part becomes visible: its descriptor takes it in, and a COPY may complete. -/
def State.partDone (s : State) (f : Nat) (x : MoverDone) : State :=
  let i := x.step + x.frame * 2 ^ 14
  if !x.cc then s
  else match s.works.find? fun w => w.parts.any fun p => p.field == f && p.ident == i && !p.past with
    | none => s
    | some w =>
      let s := s.updWork w.num fun w => { w with parts := w.parts.map fun p =>
        if p.field = f ∧ p.ident = i then { p with past := true, status := x.status, bytes := x.bytes, code := x.code } else p }
      if w.opcode = 1 then s
      else match s.work w.num with
        | some w => s.copyDone w
        | none => s

/-! ## STATUS, R328 -/

/-- Wall-clock time of a machine time, TAI ns, from the PTP relation; none while no relation is held. -/
def State.wall (s : State) (t : Nat) : Option Nat := s.time.ptp.map fun d => unsigned 64 (d + (t / ns : Nat))

/-- The snapshot of Table 13.8. -/
def State.snapshot (s : State) (j : Job) : List Byte :=
  let w := fun t => (s.wall t).getD 0
  let wallOk := (s.wall 0).isSome
  let metered := s.fld F.MET_STATUS_STATE == 2 && s.meter.metered.contains j.slice
  let hold := if j.placed then s.fld F.SEQ_STATUS_HOLD j.slot else if j.state = .preempted then 6 else 0
  let rep := if j.placed then s.fld F.SEQ_STATUS_REPLAY j.slot else match s.savedOf j.slice with
    | some v => bits v.status 4 2
    | none => 0
  let count := fun (f : Fld) => if j.placed then s.fld f j.slot else 0
  toBytes 2 j.ident ++ toBytes 1 j.state.code ++ toBytes 1 (hold + rep * 16 + bit wallOk * 64 + bit metered * 128) ++
    toBytes 2 j.slice ++ toBytes 2 (s.epochOf j.slice) ++ toBytes 4 (s.jobFrame j) ++
    toBytes 1 (count F.JOB_SLOT_B_OVERRUN) ++ toBytes 1 (count F.JOB_SLOT_B_EXCHANGE) ++ toBytes 1 (count F.JOB_SLOT_B_POWER) ++
    toBytes 1 0 ++ toBytes 2 j.entryIdx ++ toBytes 2 (min 65535 j.preempts) ++ toBytes 4 j.entryRep ++ toBytes 8 j.advanced ++
    toBytes 8 j.held ++ toBytes 8 j.loadAt ++ toBytes 8 j.placedAt ++ toBytes 8 j.advancedAt ++
    toBytes 8 (w j.loadAt) ++ toBytes 8 (w j.placedAt) ++ toBytes 8 (w j.advancedAt) ++ toBytes 40 0

/-- STATUS: STATUS writes a job snapshot to the submitter and completes DONE once it is acknowledged, R328. It waits while its
connection is out of service. -/
def execStatus (n : Fin 1024) (s : State) : Res :=
  if !s.connUp n then .next s
  else s.withJob n 5 (fun _ => true) noCheck fun s j ws =>
    let (s, w) := s.addWork n j.ident ws true
    s.feWrite n (bits (dw ws 3) 0 32) (dw ws 2) (s.snapshot j) (.status w.num)

/-! ## STOP, RELEASE and RESUME, R330, R331, R335 -/

/-- Ask for a stop; a fault stop stands before another (Table 13.9). -/
def State.askStop (s : State) (i : Nat) (c : StopCause) : State :=
  s.updJob i fun j => { j with stopping := match j.stopping with
    | some k => if k.status = stFault then some k else some c
    | none => some c }

/-- STOP: the job is stopped at the next tick, R330; the STOP completes then. -/
def execStop (n : Fin 1024) (s : State) : Res :=
  s.withJob n 6 (fun st => st != .stopped) noCheck fun s j ws =>
    ((s.addWork n j.ident ws true).1).askStop j.ident ⟨stStopped, cauSubmitter, 0, none, none⟩

/-- RELEASE: the job is stopped if needed and its fields, frames and save areas are freed at the next tick, R331. -/
def execRelease (n : Fin 1024) (s : State) : Res :=
  s.withJob n 7 (fun _ => true) noCheck fun s j ws =>
    let s := (s.addWork n j.ident ws true).1
    let s := if j.state = .stopped then s else s.askStop j.ident ⟨stStopped, cauSubmitter, 0, none, none⟩
    s.updJob j.ident fun j => { j with releasing := .asked }

/-- RESUME of a job pre-empted for the hold limit: it waits for the scheduler. -/
def Job.mayResume (j : Job) : Bool := j.state == .preempted && j.cause.code == 0x61

/-- RESUME: RESUME returns a job pre-empted for the hold limit to the scheduler, R335. -/
def execResume (n : Fin 1024) (s : State) : Res :=
  s.withDesc n 8 fun s ws =>
    match s.job (dJob ws) with
    | some j =>
      if !j.conns.contains n then s.refuseDesc n ws (dJob ws) cauNoJob 0
      else if !j.mayResume then s.refuseDesc n ws j.ident cauState j.state.code
      else (s.updJob j.ident fun j => { j with resumeOk := true }).doneDesc n ws j.ident
    | none => s.refuseDesc n ws (dJob ws) cauNoJob 0

/-- A write of JOB_CMD with START = 1. -/
def State.jobCmd (s : State) (op i : Nat) : State :=
  let s := (s.setFld F.JOB_CMD_OP 0 op).setFld F.JOB_CMD_JOB 0 i
  let res := fun (s : State) (r : Nat) => s.setFld F.JOB_CMD_RESULT 0 r
  if op = 3 then res s 3
  else match s.job i with
    | none => res s 1
    | some j =>
      match op with
      | 0 => if j.state = .stopped then res s 2 else res (s.askStop i ⟨stStopped, cauOperator, 0, none, none⟩) 0
      | 1 =>
        let s := if j.state = .stopped then s else s.askStop i ⟨stStopped, cauOperator, 0, none, none⟩
        res (s.updJob i fun j => { j with releasing := .asked }) 0
      | _ => if j.mayResume then res (s.updJob i fun j => { j with resumeOk := true }) 0 else res s 2

/-- JOB_CMD_STOP: JOB_CMD OP 0 stops a job with cause OPERATOR, R330. -/
def execJobCmdStop (job : BitVec 16) (s : State) : Res := .next (s.jobCmd 0 job.toNat)

/-- JOB_CMD_RELEASE: JOB_CMD OP 1 releases a job, R331. -/
def execJobCmdRelease (job : BitVec 16) (s : State) : Res := .next (s.jobCmd 1 job.toNat)

/-- JOB_CMD_RESUME: JOB_CMD OP 2 resumes a job as RESUME does, R335. -/
def execJobCmdResume (job : BitVec 16) (s : State) : Res := .next (s.jobCmd 2 job.toNat)

/-- LINGER_EXPIRED: a job STOPPED for LINGER_S seconds is released with an event completion, R331. -/
def execLingerExpired (job : BitVec 16) (s : State) : Res :=
  let l := s.fld F.JOB_CFG_LINGER_S
  match s.job job.toNat with
  | some j =>
    if j.state = .stopped ∧ l ≠ 0 ∧ s.since j.stopTick ≥ l * 1000000000 then
      .next (s.updJob j.ident fun j => { j with releasing := .linger })
    else .next s
  | none => .next s

/-- STOP descriptors of a job complete DONE once it is stopped. -/
def State.stopsDone (s : State) (i : Nat) : State :=
  (s.works.filter fun w => w.job == i && w.opcode == 6).foldl (fun s w => s.finish w stDone 0 none 0 0) s

/-- Frame programs of a slot stop where they are; what has started runs to completion (R81). -/
def State.haltCores (s : State) (n : Nat) : State :=
  let s := s.orphan (s.fieldsOf n)
  let s := (s.coresOf n).foldl (fun s c => s.updCore c.1 c.2 fun k =>
    if k.running ∨ k.outstanding ≠ 0 then { k with running := false, outstanding := 0 } else k) s
  s.setFld F.SEQ_STATUS_RUNNING n 0

/-- A slice is stopped on its slot: no frame runs any more, and its movers are cancelled (R330, R162). -/
def State.stopSlot (s : State) (n : Nat) : State :=
  let s := (s.haltCores n).cancelMovers n
  let s := s.setFld F.SEQ_NEXT_VALID n 0
  s.updSlot n fun v => { v with phase := .stopped, prot := false, decision := none, late := [], requests := [] }

/-- Ticks that a job's slice held during the RUN in progress (Table 13.4). -/
def Job.runHeld (j : Job) : Nat := match j.run with
  | some r => min r.held 0xFFFFFFFF
  | none => 0

/-- A descriptor in progress of a job completes CANCELLED, with the bytes of a COPY. -/
def State.cancelWork (s : State) (j : Job) (w : Work) : State :=
  s.finish w stCancelled 0 none (s.workBytes w) (if w.opcode = 2 ∧ w.begun then j.runHeld else 0)

/-- A job is stopped at a tick (R322, R330, R336): its RUN, or the descriptor whose work caused a fault, or else an event, tells
the cause; a LOAD completes STOPPED; after a fault every other descriptor in progress completes CANCELLED, as
does a COPY whose movers lie in a saved context. -/
def State.stopJob (s : State) (j : Job) (c : StopCause) : State :=
  let s := if j.placed then s.stopSlot j.slot else s
  let s := if j.slice = 0 then s else s.tellAll j.slice (.sliceStop (BitVec.ofNat 12 j.slice))
  let s := s.updJob j.ident fun j => { j with state := .stopped, stopping := none, run := none, stopTick := s.up, cause := ⟨0, 0⟩ }
  let teller := match c.work with
    | some k => s.work k
    | none => s.runWork j.ident
  let s := match teller with
    | some w => s.finish w c.status c.cause c.frame c.detail (if w.opcode = 2 then j.runHeld else 0)
    | none => if c.status = stFault then s.event j c.status c.cause c.frame c.detail else s
  let s := match s.loadWork j.ident with
    | some w => s.finish w (if c.status = stFault then stCancelled else c.status) (if c.status = stFault then 0 else c.cause) none 0 0
    | none => s
  let s := s.stopsDone j.ident
  let waiting := s.works.filter fun w => w.job == j.ident && w.opcode != 1 && w.opcode != 7
  waiting.foldl (fun s w =>
    if c.status = stFault ∨ w.opcode = 2 ∨ (w.opcode = 3 ∧ w.parts.isEmpty) ∨ (w.begun ∧ (s.savedOf j.slice).isSome) then s.cancelWork j w
    else s) s

/-- A job is released at a tick: everything it holds is freed, its id is retired, the RELEASE completes DONE and what else is in
progress CANCELLED; one released for LINGER_S tells it by an event (R331, Table 13.9). -/
def State.releaseJob (s : State) (j : Job) : State :=
  let s := match j.releasing with
    | .linger => s.event j stReleased 0 none 0
    | _ => s
  let mine := s.works.filter fun w => w.job == j.ident
  let s := mine.foldl (fun s w =>
    if w.opcode = 7 then s.finish w stDone 0 none 0 0 else s.cancelWork j w) s
  s.dropJob j

/-- A stop of a job that is due takes place; a pre-empted job that is released is not stopped first (Table 13.9). -/
def State.stopDueJob (s : State) (j : Job) : State :=
  match j.stopping with
  | some c => if j.state = .preempted ∧ j.releasing ≠ .no ∧ c.status ≠ stFault then s else s.stopJob j c
  | none => s

/-- A release of a job that is due takes place; the queues of its slice's movers are cancelled, and it waits for them to drain (R162). -/
def State.releaseDue (s : State) (i : Nat) : State :=
  match s.job i with
  | some j =>
    if j.releasing = .no then s
    else
      let s := if j.placed then s.cancelMovers j.slot else s
      if j.placed ∧ !s.moversDrained j.slot then s else s.releaseJob j
  | none => s

/-- A stop and a release of a job at a tick. -/
def State.stopTick (s : State) (j : Job) : State := (s.stopDueJob j).releaseDue j.ident

/-- The stops and releases of every job. -/
def State.stopsTick (s : State) : State := s.jobs.foldl State.stopTick s

/-- Is the slice of a slot to be stopped or released at the coming tick (R330, R331)? -/
def State.stopComes (s : State) (n : Nat) : Bool :=
  (s.slot n).stopDue.isSome || match s.jobOfSlot n with
    | some j => j.stopping.isSome || (j.releasing != .no && j.state != .stopped)
    | none => false

/-- A fault stops the job that a slot serves. On another module of the slice than its entry module, the entry module is told, which
stops the job (log entry 91); a slice of no job stops itself. -/
def State.faultStop (s : State) (n : Nat) (c : StopCause) : State :=
  match s.jobOfSlot n with
  | some j => s.askStop j.ident c
  | none =>
    if s.entryModule n = s.selfId then s.stopSlot n
    else s.tell (s.entryModule n) (.sliceFault (BitVec.ofNat 12 (s.fld F.SEQ_SLOT_CFG_SLICE_ID n)) (BitVec.ofNat 8 c.cause)
      (BitVec.ofNat 64 c.detail) (BitVec.ofNat 32 (c.frame.getD 0)))

/-- A fault stops the job of a slice, which may hold no slot by now. -/
def State.sliceStop (s : State) (slice : Nat) (c : StopCause) : State :=
  match s.jobs.find? fun j => j.slice == slice with
  | some j => s.askStop j.ident c
  | none => match s.slotOfSlice slice, s.savedOf slice with
    | some n, _ => s.faultStop n c
    | none, some v =>
      if v.setBase / 2 ^ 50 = s.selfId then s
      else s.tell (v.setBase / 2 ^ 50) (.sliceFault (BitVec.ofNat 12 slice) (BitVec.ofNat 8 c.cause) (BitVec.ofNat 64 c.detail)
        (BitVec.ofNat 32 (c.frame.getD 0)))
    | none, none => s

/-- The entry module hears of a fault that stops a slice's job. -/
def State.sliceFaulted (s : State) (slice cause detail frame : Nat) : State :=
  match s.jobs.find? fun j => j.slice == slice with
  | some j => s.askStop j.ident ⟨stFault, cause, detail, some frame, none⟩
  | none => s

/-- A fault of a slot's frame stops its job, naming the frame. -/
def State.frameStop (s : State) (n cause detail : Nat) : State :=
  s.faultStop n ⟨stFault, cause, detail, some (s.rd .SEQ_FRAME n), none⟩

end Sys2Proof.Machine
end

