-- ==== Sys2Proof/Machine/Schedule.lean ====
section
/-!
DEFINITION. Sys2Proof/Machine/Schedule.lean: the scheduler's placements, restores and pre-emptions (R332 to R335), saved contexts
(R46, R47), retired fields and failed elements (R174, R183 to R185), spare modules (R285), and movers parked too long (R157).
-/
namespace Sys2Proof.Machine

/-! ## Saved contexts, R46 and R47 -/

/-- Is a module offset in a live bank of a core window of a field? -/
def liveAt (f live a : Nat) : Bool :=
  match placeOf a with
  | .sram g w b => g == f && decide (w < 450) && bitOf live (b / 65536)
  | _ => false

/-- The entries of a sparse map, by a unit of bytes, that lie in live banks of a field. -/
def keepLive {α : Type} (f live unit : Nat) (m : List (Nat × α)) : List (Nat × α) := m.filter fun e => liveAt f live (e.1 * unit)

/-- The lines of a field's live banks as they are saved: a line that reads uncorrectable is saved with mark 2 (R185). -/
def Memory.saveField (m : Memory) (f live : Nat) : Memory :=
  let marks := (keepLive f live 64 m.upset).foldl (fun k e => if e.2 = 2 then mapSet (fun _ => 0) e.1 2 k else k) (keepLive f live 64 m.marks)
  { cells := keepLive f live 1 m.cells, marks := marks, upset := [], tiles := keepLive f live 4096 m.tiles, fldUndef := []
    bankUndef := keepLive f live 65536 m.bankUndef, lineDef := keepLive f live 64 m.lineDef
    lineUndef := keepLive f live 64 m.lineUndef, owner := [] }

/-- Put saved entries into a map, from one field to another, by a unit of bytes. -/
def putShifted {α : Type} (src dst unit : Nat) (saved m : List (Nat × α)) : List (Nat × α) :=
  saved.foldl (fun m e => mapIns (e.1 + dst * (0x80000000 / unit) - src * (0x80000000 / unit)) e.2 m) m

/-- The scratch banks of a field's cores, as keys of 64 KiB banks. -/
def scratchBanks (f live : Nat) : List Nat :=
  ((List.range 450).map fun w => ((List.range 48).filter fun b => !(bitOf live b)).map fun b => sramLine f w 0 / 65536 + b).flatten

/-- A saved field is restored onto a field: its live banks as they were saved, its scratch banks undefined (R53). -/
def Memory.restoreField (m : Memory) (v : SavedField) (f live n : Nat) : Memory :=
  let m := m.clearField f
  { m with
    cells := putShifted v.field f 1 v.mem.cells m.cells
    marks := putShifted v.field f 64 v.mem.marks m.marks
    tiles := putShifted v.field f 4096 v.mem.tiles m.tiles
    lineDef := putShifted v.field f 64 v.mem.lineDef m.lineDef
    lineUndef := putShifted v.field f 64 v.mem.lineUndef m.lineUndef
    bankUndef := (scratchBanks f live).foldl (fun k b => mapSet (fun _ => 0) b n k)
      (putShifted v.field f 65536 v.mem.bankUndef m.bankUndef) }

/-- The context of one field. -/
def State.saveField (s : State) (f live : Nat) : SavedField :=
  { field := f, cores := (List.range 450).map fun c => (c, s.core f c), mem := s.mem.saveField f live
    movers := (List.range 16).map fun m => (m, { s.mover f m with finished := [], blocked := false }) }

/-- The saved context of a slot's slice on this module. -/
def State.saveSlice (s : State) (n : Nat) : SavedSlice :=
  { slice := s.fld F.SEQ_SLOT_CFG_SLICE_ID n, epoch := s.epochOf (s.fld F.SEQ_SLOT_CFG_SLICE_ID n)
    frame := s.rd .SEQ_FRAME n, status := s.rd .SEQ_STATUS n
    fault := s.rd .SEQ_FAULT n, faultAddr := s.rd .SEQ_FAULT_ADDR n, next := s.rd .SEQ_NEXT n
    setBase := s.rd .SEQ_SET_BASE n, live := s.rd .SEQ_LIVE n, root := s.rd .MMU_SLOT_ROOT n, slot := s.slot n
    fields := (s.fieldsOf n).map fun f => s.saveField f (s.fld F.SEQ_LIVE_LIVE n) }

/-- The save areas of a slice on this module, R325. -/
def State.saveAreas (s : State) (slice : Nat) : List Nat :=
  match s.jobs.find? fun j => j.slice == slice with
  | some j => j.otherFrames
  | none => mapGet (fun _ => []) s.areas slice

/-- The saves of a slot's slice end: the save areas hold what the manual gives no layout of (log entry 93), and `saved` its meaning. -/
def State.contextSaved (s : State) (n : Nat) : State :=
  let v := s.saveSlice n
  let s := { s with saved := s.saved.filter (fun x : SavedSlice => x.slice != v.slice) ++ [v]
                    mem := (s.saveAreas v.slice).foldl (fun m k => m.undefineFrame k (s.free + 2)) s.mem
                    free := s.free + 1 }
  s.updSlot n fun x => { x with phase := .saved }

/-- What the movers of a saved slice's fields hold when the fields return goes with the context, a descriptor posted since the save among it; their
completions that are not visible stay with the fields. -/
def State.keepMovers (s : State) (n : Nat) : State :=
  let slice := s.fld F.SEQ_SLOT_CFG_SLICE_ID n
  let take := fun (x : SavedField) => { x with movers := (List.range 16).map fun m =>
    (m, { s.mover x.field m with finished := [], blocked := false }) }
  let s := { s with saved := s.saved.map fun (v : SavedSlice) => if v.slice = slice then { v with fields := v.fields.map take } else v }
  s.eachMover n fun s f m => s.updMover f m fun x => { Mover.init with finished := x.finished, blocked := x.blocked }

/-- CONTEXT_SAVE_DONE: when the last field's context save completes, the slice's fields return to the scheduler at the next tick,
R47. -/
def execContextSaveDone (n : Fin 56) (s : State) : Res :=
  if (s.slot n).phase = .saving ∧ s.moversDrained n then .next (s.contextSaved n) else .next s

/-- A core takes a saved context; which MMAs its check row saw stays with the core. -/
def Core.restore (k saved : Core) : Core := { saved with misses := k.misses, mmas := k.mmas, stepUpset := [] }

/-- One field's context is restored onto a field: cores, live banks and mover queues (R161). -/
def State.restoreField (s : State) (v : SavedField) (f live : Nat) : State :=
  let s := { s with mem := s.mem.restoreField v f live (s.free + 2), free := s.free + 1 }
  let s := v.cores.foldl (fun s c => s.updCore f c.1 fun k => k.restore c.2) s
  v.movers.foldl (fun s m => s.updMover f m.1 fun x => { m.2 with finished := x.finished, blocked := x.blocked }) s

/-- The parts of a transfer go with their movers, from field to field. -/
def Work.moveParts (w : Work) (moved : List (Nat × Nat)) : Work :=
  { w with parts := w.parts.map fun p => { p with field := ((moved.find? fun x => x.1 == p.field).map (·.2)).getD p.field } }

/-- The restore of a slot's slice ends; every core's generator is seeded again (R101), and the parts of COPYs
follow their movers. -/
def State.contextRestored (s : State) (n : Nat) (v : SavedSlice) : State :=
  let live := s.fld F.SEQ_LIVE_LIVE n
  let s := (v.fields.zip (s.fieldsOf n)).foldl (fun s p => (s.restoreField p.1 p.2 live).seedField p.2) s
  let moved := v.fields.map (·.field) |>.zip (s.fieldsOf n)
  let s := { s with saved := s.saved.filter fun x => x.slice != v.slice
                    works := s.works.map fun (w : Work) =>
                      if s.jobs.any (fun j => j.ident == w.job && j.slice == v.slice) then w.moveParts moved else w }
  s.updSlot n fun x => { x with phase := .restored }

/-- CONTEXT_RESTORE_DONE: when the last field's restore completes, the slice advances or reruns its abandoned frame at the next
tick, R47. -/
def execContextRestoreDone (n : Fin 56) (s : State) : Res :=
  match s.savedOf (s.fld F.SEQ_SLOT_CFG_SLICE_ID n) with
  | some v => if (s.slot n).phase = .restoring then .next (s.contextRestored n v) else .next s
  | none => .next s

/-! ## Placement, R281, R324 and R332 -/

/-- Does a list repeat nothing? -/
def noRepeats : List Nat → Bool
  | [] => true
  | x :: xs => !xs.contains x && noRepeats xs

/-- May the scheduler place anything: no change of period pends (R25), T covers I_mod (R372), no LPDDR device has failed (R131)
and no field of row 0 or 6 is fenced (R184)? -/
def State.mayPlace (s : State) : Bool :=
  s.time.change.isNone && decide (s.moduleIdle ≤ s.fld F.PWR_FRAME_T) &&
    ((List.range 32).all fun d => !s.flag F.LPD_DEV_STATUS_FAILED d) &&
    ((List.range 56).all fun f => !((decide (f < 8) || decide (48 ≤ f)) && s.fld F.MSH_FLD_STATE_STATE f == 2))

/-- Does the limit of a slot cover the idle cost of a job's fields (R371)? -/
def State.limitCovers (s : State) (j : Job) (n : Nat) : Bool :=
  s.fld F.PWR_SLOT_LIMIT_LIMIT n == 0xFFFFFF || decide (j.fields * s.fieldIdle ≤ s.fld F.PWR_SLOT_LIMIT_LIMIT n)

/-- Has the condition of a pre-empted job's cause come (R335)? Enough power is a free slot whose limit covers the slice's idle cost; T covers
that of the module wherever anything is placed (R372). -/
def State.resumeReady (s : State) (j : Job) : Bool :=
  match j.cause.code with
  | 0x61 => j.resumeOk
  | 0x62 => (List.range 56).any fun n => s.slotFree n && s.limitCovers j n
  | 0x63 => !s.flag F.INT_FLD_TEST_HELD (bits j.cause.detail 0 6)
  | 0x65 => j.resumeOk
  | 0x66 => s.timeState == timeLocked
  | _ => true

/-- A COPY_OUT of a STOPPED job that is not placed waits for one field (R327). -/
def State.copyWaits (s : State) (j : Job) : Bool :=
  j.state == .stopped && !j.placed && s.works.any fun w => w.job == j.ident && w.opcode == 4 && !w.begun

/-- Does a job wait for the scheduler? A pre-empted one that is to be stopped or released is not restored (Table 13.9). -/
def State.waits (s : State) (j : Job) : Bool :=
  (j.state == .queued) || (j.state == .preempted && !j.placed && j.stopping.isNone && j.releasing == .no && s.resumeReady j) || s.copyWaits j

/-- Does a job go before another: priority, then a resume before a queued job, then order of arrival (R332)? -/
def Job.before (a b : Job) : Bool :=
  let first := fun (j : Job) => bit (j.state == .queued)
  decide (a.prio > b.prio) || (a.prio == b.prio && (decide (first a < first b) ||
    (first a == first b && decide (a.order < b.order))))

/-- Does a job wait for a slice: a queued one, or one that was stopped before it had one? -/
def Job.fresh (j : Job) : Bool := j.state == .queued || j.slice == 0

/-- How many fields a waiting job needs on this module. -/
def Job.needs (j : Job) : Nat := if j.state = .stopped then 1 else j.fields

/-- Does the box of a job's LOAD exceed the machine, or does a box of several modules include one without coordinates (SHAPE)? -/
def State.shapeBad (s : State) (j : Job) : Bool :=
  let (dx, dy, dz) := s.dims
  decide (bits j.extent 0 5 + 1 > dx) || decide (bits j.extent 5 5 + 1 > dy) || decide (bits j.extent 10 4 + 1 > dz) ||
    (decide (boxMembers j.extent > 1) && !s.flag F.RTE_COORD_VALID)

/-- May this module carry no member of a slice on several modules: its time state sends no vote (R296), or it keeps time alone by
SOURCE 2 (R292)? -/
def State.placeBars (s : State) : Bool := !s.timeSet || s.fld F.TIM_CTRL_SOURCE == 2

/-- What the placement service needs of a member for a job: a reason of Table 11.2, 0 for none. -/
def memberReason (v : List ModuleFacts) (fields m : Nat) : Nat :=
  match factsOf v m with
  | none => reasonLink
  | some x =>
    if !x.valid then reasonShape
    else if !x.timed then reasonLink
    else if x.fields.length < fields then reasonFields
    else if x.slot.isNone || x.entry.isNone then reasonSlots
    else 0

/-- The first reason that is not zero. -/
def firstReason (l : List Nat) : Nat := (l.find? (· != 0)).getD 0

/-- May every direct hop of a box be used: its link is UP, and the sum of SHARE on it stays at 64 or below (R281, R282)? -/
def hopsOk (b : Box) (dims : Nat × Nat × Nat) (v : List ModuleFacts) (share : Nat) : Bool :=
  (b.directHops dims).all fun h => match factsAt v (b.moduleAt dims h.1) h.2 with
    | some f => f.up.isSome && decide (f.share + share ≤ 64)
    | none => false

/-- Why a box of several modules cannot be placed: the members first, then its wrap links (R279, R280), the vote depth (R35), and its
direct links; 0 when it can. -/
def boxReason (b : Box) (dims : Nat × Nat × Nat) (v : List ModuleFacts) (period fields share : Nat) : Nat :=
  match firstReason ((b.positions.map (b.moduleAt dims)).map (memberReason v fields)) with
  | 0 => match b.wrapLinks dims v with
    | .error c => c
    | .ok ls =>
      if windowShort period (b.voteDelay dims v ls) then reasonVote
      else if hopsOk b dims v share then 0
      else reasonLink
  | r => r

/-- The reason for which a waiting job cannot be placed, 0 when it can (Table 11.2). A slice on several modules that a change of period
would leave too short a program window is not restored (R35). -/
def State.placeReason (s : State) (j : Job) (p : Placing) : Nat :=
  if s.shapeBad j then reasonShape
  else if boxMembers j.extent > 1 ∧ s.placeBars then reasonLink
  else if s.freeFields.length < j.needs then reasonFields
  else if (List.range 56).all (fun n => !s.slotFree n) ∨
      (j.fresh ∧ (List.range 64).all fun e => s.flag F.RTE_SLICE_ACTIVE e) then reasonSlots
  else if j.state = .preempted ∧ boxMembers j.extent > 1 ∧ windowShort s.period (s.hopDelay j.entry) then reasonVote
  else if j.state ≠ .queued then 0
  else if boxMembers j.extent > 1 ∧ boxReason (boxAt p.origin.toNat j.extent j.wrap) s.dims (s.knowledge p.survey) s.period j.fields j.share ≠ 0
  then boxReason (boxAt p.origin.toNat j.extent j.wrap) s.dims (s.knowledge p.survey) s.period j.fields j.share
  else if (s.mem.freeRun j.imageCount jobFrames 0 0).isNone then reasonQuota
  else 0

/-- Is a choice one that the scheduler can make for a job that can be placed: free fields of the right number, a free slot, a box that
holds this module, and for a new slice a free entry and an unused slice id? -/
def State.placingOk (s : State) (j : Job) (p : Placing) : Bool :=
  let fs := p.fields.map (·.val)
  let b := boxAt p.origin.toNat j.extent j.wrap
  fs.length == j.needs && noRepeats fs && fs.all s.freeFields.contains && s.slotFree p.slot &&
    (j.state != .preempted || j.cause.code != 0x62 || s.limitCovers j p.slot) &&
    (!j.fresh || (!s.flag F.RTE_SLICE_ACTIVE p.entry && p.slice != 0 &&
      (b.positions.map (b.moduleAt s.dims)).contains s.selfId &&
      (s.entryOf p.slice.toNat).isNone && !(s.jobs.any fun x => x.slice == p.slice.toNat)))

/-- Fetch the image: a part on mover 15 of each of the first two fields (R324). -/
def State.fetchImage (s : State) (j : Job) : State :=
  match s.loadWork j.ident with
  | none => s
  | some w =>
    s.postParts w (partsOf (j.owned.take 2) (j.imageLen * 4096)) fun s f off len =>
      s.ccPost f 2 (j.imageAddr + off) (j.imageVa + off) len 2 0 j.imageRkey j.homeConn

/-- Map the image where it is fetched to. -/
def State.mapImage (s : State) (j : Job) : State :=
  (List.range j.imageCount).foldl (fun s k =>
    s.mapPage j.slot j.slice (j.imageVa + k * 2 ^ 21) (s.globalOf ((j.imageFrames.getD k 0) * 2 ^ 21) / 2 ^ 21) true) s

/-- The registers that the placement of a slice writes, with what they hold. -/
def State.tablesOf (s : State) (e n : Nat) : List (Nat × Nat) :=
  (stagedKeys e ++ [(Reg.RTE_SLICE, e), (.LPD_QUOTA, e), (.MMU_SLOT_ROOT, n)]).map fun k => (regKey k.1 k.2, s.rd k.1 k.2)

/-- Every member of a slice knows the fields that the slice owns on a module (R277). -/
def State.tellFields (s : State) (slice m mask : Nat) : State :=
  { s with farFields := mapSet (fun _ => none) (slice * 16384 + m) (some mask) s.farFields }.tellAll slice
    (.sliceFields (BitVec.ofNat 12 slice) (BitVec.ofNat 14 m) (BitVec.ofNat 56 mask))

/-- The other members of a slice on several modules are told the fields that it owns here. -/
def State.tellOwnFields (s : State) (slice e : Nat) (fs : List Nat) : State :=
  if s.memberCount e ≤ 1 then s
  else s.tellAll slice (.sliceFields (BitVec.ofNat 12 slice) (BitVec.ofNat 14 s.selfId) (BitVec.ofNat 56 (bitMask 56 fs.contains)))

/-- Another member's tables: its slice entry with the box, its hops and the home module, its slot, and the owners of its fields, whose SRAM
is cleared (R124, R269 to R271, R278). -/
def State.placeMember (s : State) (b : Box) (v : List ModuleFacts) (ls : List ExpressLink) (j : Job) (p : Placing) (home epoch : Nat)
    (q : Nat × Nat × Nat) : State :=
  let m := b.moduleAt s.dims q
  match factsOf v m with
  | some x => match x.slot, x.entry with
    | some n, some e =>
      if m = s.selfId then s
      else
        let w := fun (s : State) (r : Reg) (i x : Nat) => s.writeAt m r i x id
        let slice := p.slice.toNat
        let s := w s .RTE_SLICE_BOX e (p.origin.toNat + j.extent * 2 ^ 14 + j.wrap * 2 ^ 28)
        let s := w s .RTE_SLICE_HOP e (b.hopsOf s.dims v ls q)
        let s := w s .RTE_SLICE e (slice + 2 ^ 12 + n.val * 2 ^ 14 + epoch * 2 ^ 20 + j.share * 2 ^ 36 + home * 2 ^ 43)
        let s := w s .LPD_QUOTA e (slice + 2 ^ 12 + j.frames * 2 ^ 16)
        let mask := bitMask 56 fun f => (x.fields.take j.fields).any fun g => g.val == f
        let s := s.tellFields slice m mask
        let s := ((x.fields.take j.fields).map (·.val)).foldl (fun s f => w (w s .RTE_FLD_OWNER f (slice + 2 ^ 12)) .SRM_FLD_CLEAR f 1) s
        w s .SEQ_SLOT_CFG n (slice + 2 ^ 12)
    | _, _ => s
  | none => s

/-- The placement service lays a slice over the other modules of its box: wrap links are built, and every member gets its tables and the hop
delay of the vote tree. -/
def State.placeAway (s : State) (b : Box) (v : List ModuleFacts) (ls : List ExpressLink) (j : Job) (p : Placing) (home epoch : Nat) : State :=
  let s := b.positions.foldl (fun s q => s.placeMember b v ls j p home epoch q) s
  let s := s.tellOwnFields p.slice.toNat p.entry (p.fields.map (·.val))
  let s := s.tellAll p.slice.toNat (.sliceJob p.slice (BitVec.ofNat 16 j.ident) (BitVec.ofNat 64 j.tag))
  let s := s.tellAll p.slice.toNat (.voteDepth p.slice (BitVec.ofNat 16 (b.voteDelay s.dims v ls)))
  if ls.isEmpty then s else s.buildLinks ls (cutsOf v ls) s.linkTick

/-- This module's position in a box. -/
def State.ownPos (s : State) (b : Box) : Nat × Nat × Nat :=
  (b.positions.find? fun q => b.moduleAt s.dims q == s.selfId).getD (0, 0, 0)

/-- The LPDDR frames that each other member can allocate, by rank. -/
def Box.awayFrames (b : Box) (dims : Nat × Nat × Nat) (v : List ModuleFacts) (self : Nat) : List (Nat × Nat) :=
  (List.range b.size).filterMap fun r =>
    let m := b.moduleAt dims (b.position r)
    if m = self then none else (factsOf v m).map fun x => (r, x.frames)

/-- Place a queued job: step 3 of R324 begins. Other modules get their tables once the frames of the image are allocated here (R281). -/
def State.placeQueued (s : State) (j : Job) (p : Placing) : State :=
  let fs := p.fields.map (·.val)
  let slice := p.slice.toNat
  let b := boxAt p.origin.toNat j.extent j.wrap
  let v := s.knowledge p.survey
  let ls := match b.wrapLinks s.dims v with
    | .ok ls => ls
    | .error _ => []
  let home := b.moduleAt s.dims b.homePos
  let undo := s.tablesOf p.entry p.slot
  let s := s.openEntry p.entry slice p.slot j.share home p.origin.toNat j.extent j.wrap (b.hopsOf s.dims v ls (s.ownPos b))
  let s := { s with voteDelays := mapSet (fun _ => none) p.entry.val (some (b.voteDelay s.dims v ls)) s.voteDelays }
  let s := (s.openSlot p.slot slice)
  let s := fs.foldl (fun s f => s.giveField f slice) s
  let s := ((s.openQuota p.entry slice (j.frames + j.imageCount)).newRoot p.slot p.entry)
  let s := fs.foldl (fun s f => s.clearStart f 1) s
  let j := { j with state := .loading, placed := true, slice := slice, slot := p.slot, entry := p.entry, owned := fs
                    home := home, reason := 0, tried := true, placedAt := s.now, placedTick := s.up, undo := undo
                    away := b.awayFrames s.dims v s.selfId }
  let s := s.updJob j.ident fun _ => j
  match s.mem.freeRun j.imageCount jobFrames 0 0 with
  | none => s.failLoad j stRefused reasonQuota 0
  | some k =>
    let frames := rangeFrom k j.imageCount
    match s.allocThese slice frames with
    | none => s.failLoad j stRefused reasonQuota 0
    | some s =>
      let s := if b.size = 1 then s else s.placeAway b v ls j p home (s.fld F.RTE_SLICE_EPOCH p.entry)
      let j := { j with imageFrames := frames }
      ((s.updJob j.ident fun _ => j).mapImage j).fetchImage j

/-- A slice with a saved context takes a slot and fields again, and its restore begins (R47). -/
def State.restoreSlice (s : State) (slice entry : Nat) (v : SavedSlice) (p : Placing) : State :=
  let fs := p.fields.map (·.val)
  let n := p.slot.val
  let s := (s.openSlot n slice).putRoute .RTE_SLICE entry (setBits (s.rd .RTE_SLICE entry) 14 6 n)
  let s := (((s.wr .SEQ_FRAME n v.frame).wr .SEQ_STATUS n v.status).wr .SEQ_FAULT n v.fault).wr .SEQ_FAULT_ADDR n v.faultAddr
  let s := (((s.wr .SEQ_NEXT n v.next).wr .SEQ_SET_BASE n v.setBase).wr .SEQ_LIVE n v.live).wr .MMU_SLOT_ROOT n v.root
  let s := s.setSlot n { v.slot with phase := .restoring, requests := [], causes := none, decision := none, votes := []
                                     replaced := v.fields.map (·.field) != (List.range 56).filter fs.contains }
  (fs.foldl (fun s f => s.giveField f slice) s).tellOwnFields slice entry fs

/-- The restore of a job's slice begins. -/
def State.restoreStart (s : State) (j : Job) (v : SavedSlice) (p : Placing) : State :=
  (s.restoreSlice j.slice j.entry v p).updJob j.ident fun j => { j with
    placed := true, slot := p.slot, owned := p.fields.map (·.val), reason := 0, tried := true, resumeOk := false, held := 0
    placedAt := s.now, placedTick := s.up }

/-- The entry module of a slice places it again, and this member's part is restored. -/
def State.restoreMember (s : State) (p : Placing) : State :=
  match s.savedOf p.slice.toNat, s.entryOf p.slice.toNat with
  | some v, some e =>
    let fs := p.fields.map (·.val)
    if fs.length = v.fields.length ∧ (s.memberCount e ≤ 1 ∨ s.flag F.RTE_COORD_VALID) ∧ noRepeats fs ∧ fs.all s.freeFields.contains ∧ s.slotFree p.slot ∧
        (s.memberCount e ≤ 1 ∨ !s.placeBars) then
      s.restoreSlice p.slice.toNat e v p
    else s
  | _, _ => s

/-- The slice of a STOPPED job that never had one: an entry for this module alone, with no frames and an empty page table. -/
def State.sliceStopped (s : State) (j : Job) (p : Placing) : State :=
  ((s.openEntry p.entry p.slice.toNat p.slot j.share s.selfId s.selfId 0 0 0).openQuota p.entry p.slice.toNat 0).newRoot p.slot p.entry

/-- A STOPPED job takes a slot and one field, for its COPY_OUT alone (R327). DESIGN CHOICE (log entry 101): SRM_FLD_CLEAR runs at the
placement of a queued job only. -/
def State.placeStopped (s : State) (j : Job) (p : Placing) : State :=
  let fs := p.fields.map (·.val)
  let n := p.slot.val
  let slice := if j.slice = 0 then p.slice.toNat else j.slice
  let entry := if j.slice = 0 then p.entry.val else j.entry
  let s := if j.slice = 0 then s.sliceStopped j p else s
  let s := (s.openSlot n slice).putRoute .RTE_SLICE entry (setBits (s.rd .RTE_SLICE entry) 14 6 n)
  let s := s.wr .MMU_SLOT_ROOT n (s.globalOf (rootOffset entry))
  let s := s.updSlot n fun v => { v with phase := .stopped }
  let s := fs.foldl (fun s f => s.giveField f slice) s
  s.updJob j.ident fun j => { j with placed := true, slice := slice, entry := entry, slot := n, owned := fs, reason := 0, tried := true
                                     placedAt := s.now, placedTick := s.up }

/-- A waiting job is placed as the scheduler chose. -/
def State.place (s : State) (j : Job) (p : Placing) : State :=
  match j.state with
  | .queued => s.placeQueued j p
  | .preempted => match s.savedOf j.slice with
    | some v => s.restoreStart j v p
    | none => s
  | _ => s.placeStopped j p

/-- A waiting job cannot be placed: SHAPE, REACH and VOTE_DEPTH refuse a LOAD at once, any reason one that does not wait; otherwise
the reason is kept (R324). -/
def State.placeFails (s : State) (j : Job) (r : Nat) : State :=
  if j.state = .queued ∧ (r = reasonShape ∨ r = reasonReach ∨ r = reasonVote ∨ j.waitMs = 0) then
    s.failLoad j stRefused r 0
  else s.updJob j.ident fun j => { j with reason := r, tried := true }

/-- PLACEMENT: the scheduler places a waiting job, or restores a pre-empted one, once its conditions hold, R332. Jobs that go
before it have been tried since the latest tick. A choice that the scheduler cannot make changes nothing. A job of another entry
module that was pre-empted is restored here as that module has it. -/
def execPlacement (p : Placing) (s : State) : Res :=
  match s.job p.job.toNat with
  | none => if s.mayPlace ∧ !(s.jobs.any fun j => j.slice == p.slice.toNat) then .next (s.restoreMember p) else .next s
  | some j =>
    if !s.mayPlace ∨ !s.waits j ∨ s.jobs.any (fun k => s.waits k && k.before j && !k.tried) then .next s
    else match s.placeReason j p with
      | 0 => if s.placingOk j p then .next (s.place j p) else .next s
      | r => .next (s.placeFails j r)

/-! ## Pre-emption by the scheduler, R333 -/

/-- May the scheduler pre-empt a job for one of a priority? -/
def State.mayPreempt (s : State) (prio : Nat) (j : Job) : Bool :=
  j.placed && (j.state == .idle || j.state == .running) && decide (j.prio < prio) &&
    (s.slot j.slot).phase == .placed && !((s.slot j.slot).requests.any fun r => r.code == 0x60) &&
    decide (s.since j.placedTick ≥ s.fld F.JOB_CFG_MIN_RUN_MS * 1000000)

/-- Insert a job into the order of pre-emption: lowest priority first, then the most recently placed. -/
def insertVictim (j : Job) : List Job → List Job
  | [] => [j]
  | k :: ks => if j.prio < k.prio ∨ (j.prio = k.prio ∧ j.placedTick > k.placedTick) then j :: k :: ks else k :: insertVictim j ks

/-- Insert a number into a falling list. -/
def insertFalling (x : Nat) : List Nat → List Nat
  | [] => [x]
  | y :: ys => if y ≤ x then x :: y :: ys else y :: insertFalling x ys

/-- The most fields that k jobs of a list hold. -/
def mostFields (k : Nat) (l : List Job) : Nat := ((l.foldl (fun f j => insertFalling j.owned.length f) []).take k).sum

/-- k jobs, as early in the order as can be, that free as many fields as needed. -/
def pickVictims : Nat → Nat → List Job → List Job
  | _, _, [] => []
  | k, need, j :: js =>
    if k = 0 then []
    else if need ≤ j.owned.length + mostFields (k - 1) js then j :: pickVictims (k - 1) (need - j.owned.length) js
    else pickVictims k need js

/-- The fewest jobs that free enough fields; among choices of so many, those that come first in the order (R333). -/
def victimsFor (need : Nat) (l : List Job) : Option (List Job) :=
  ((List.range (l.length + 1)).find? fun k => decide (need ≤ mostFields k l)).map fun k => pickVictims k need l

/-- Would fields or a slot be enough for a waiting job? A slice keeps its entry while it is pre-empted, and frames stay with their slices. -/
def State.preemptHelps (s : State) (j : Job) : Bool :=
  j.state != .queued ||
    (!((List.range 64).all fun e => s.flag F.RTE_SLICE_ACTIVE e) && (s.mem.freeRun j.imageCount jobFrames 0 0).isSome)

/-- Does the slice of a slot give up its fields by a pre-emption that is asked for or under way? -/
def State.leaving (s : State) (n : Nat) : Bool :=
  s.flag F.SEQ_SLOT_CFG_ACTIVE n && (!(s.slot n).requests.isEmpty || (s.slot n).phase == .saving || (s.slot n).phase == .saved)

/-- SCHEDULER_PREEMPT: the scheduler pre-empts the fewest lower-priority jobs to place a waiting job, R333. -/
def execSchedulerPreempt (job : BitVec 16) (s : State) : Res :=
  match s.job job.toNat with
  | none => .next s
  | some j =>
    if !s.waits j ∨ !(j.reason = reasonFields ∨ j.reason = reasonSlots) ∨ !s.preemptHelps j then .next s
    else
      let order := (s.jobs.filter (s.mayPreempt j.prio)).foldl (fun l k => insertVictim k l) []
      let leaving := (List.range 56).filter s.leaving
      let need := j.needs - s.freeFields.length - (leaving.map fun n => (s.fieldsOf n).length).sum
      let noSlot := leaving.isEmpty && !(List.range 56).any s.slotFree
      match victimsFor (if noSlot then max need 1 else need) order with
      | some vs => .next (vs.foldl (fun s k => s.requestPre k.slot ⟨0x60, 0⟩) s)
      | none => .next s

/-! ## Retirement and failures -/

/-- DETAIL that names a field of this module. -/
def State.fieldDetail (s : State) (f : Nat) : Nat := f + s.selfId * 2 ^ 6

/-- FIELD_RETIREMENT: at the tick after a field is retired the owning slice is pre-empted and a replacement is sought; a fenced
field stops the job with cause FIELD_LOST, R185. -/
def execFieldRetirement (f : Fin 56) (s : State) : Res :=
  match s.slotOfField f with
  | none => .next s
  | some n => match s.fld F.MSH_FLD_STATE_STATE f with
    | 0 => .next s
    | 1 => .next (s.requestPre n ⟨0x64, s.fieldDetail f⟩)
    | _ => .next (s.frameStop n 0x47 (s.fieldDetail f))

/-- The lane groups and links of a fenced field of row 0 leave service, R193. -/
def State.fenceLinks (s : State) (f : Nat) : State :=
  if 8 ≤ f then s
  else
    let s := (List.range 24).foldl (fun s n =>
      if linkField n = f ∧ s.linkState n ≠ linkDisabled then s.linkGoesDown n causeDark else s) s
    (List.range 192).foldl (fun s l =>
      if l / 24 = f then ((s.laneGoesDark l).laneUnlit l).updLane l fun x => { x with engineOut := true } else s) s

/-- A router fails: its field is fenced. -/
def State.fenceField (s : State) (f cause : Nat) : State :=
  if s.fld F.MSH_FLD_STATE_STATE f = 2 then s else (s.fenceLinks f).retireField f 2 cause

/-- A core fails: its position is fenced and the spare takes its place, or its field is retired (Table 7.2). -/
def State.coreFailed (s : State) (f core : Nat) : State :=
  match s.prowOf f core with
  | none => s
  | some p =>
    if !s.inService f then s
    else if s.noSpare f (core % 30) then s.retireField f 1 1
    else s.fenceStart f (core % 30) p false

/-- Fields that can no longer be reached are fenced, one after another (R174). -/
def State.fenceUnreached (s : State) : Nat → State
  | 0 => s
  | fuel + 1 => match s.unreached with
    | some f => (s.fenceField f 4).fenceUnreached fuel
    | none => s

/-- A stitched link is fenced (R174). -/
def State.fenceLink (s : State) (l : Nat) : State :=
  if s.fencedLinks.contains l then s
  else
    let s := { s with fencedLinks := s.fencedLinks ++ [l] }
    (s.setFld F.MSH_MOD_REPAIR_LINKS 0 s.fencedLinks.length).saveRepairs

/-- An element fails. -/
def State.elementFailed (s : State) (e : Element) : State :=
  match e with
  | .router f => (s.fenceField f 3).fenceUnreached 56
  | .stitch l => (s.fenceLink l).fenceUnreached 56
  | .core a => s.coreFailed a.field a.core
  | .controller f => s.retireField f 1 2

/-- ELEMENT_FAILED: a router, stitched link, core or field controller fails, and the module fences it, reroutes or retires the
field, R174. -/
def execElementFailed (e : Element) (s : State) : Res := .next (s.elementFailed e)

/-! ## Movers parked too long, R157 -/

/-- The location of a mover's posting, R321. -/
def State.moverLoc (s : State) (f m code core step : Nat) : Nat :=
  f + m * 2 ^ 6 + code * 2 ^ 10 + s.selfId * 2 ^ 18 + step * 2 ^ 32 + core * 2 ^ 46

/-- The descriptor in progress that a control-complex posting serves. -/
def State.workOfPost (s : State) (f step frame : Nat) : Option Nat :=
  (s.works.find? fun w => w.parts.any fun p => p.field == f && p.ident == step + frame * 2 ^ 14 && !p.past).map (·.num)

/-- A posting stops the job of its slice with a cause, naming the mover and the posting frame. -/
def State.moverStop (s : State) (f m slice cause code core step frame : Nat) (cc : Bool) : State :=
  s.sliceStop slice ⟨stFault, cause, s.moverLoc f m code core step, some frame, if cc then s.workOfPost f step frame else none⟩

/-- MOVER_PARK_TIMEOUT: a mover parked for 1.000 s under a code other than 0x20 stops its job with a fault completion, R157.
DESIGN CHOICE (log entry 115): the time parked inside a saved context counts; the stop comes after the restore. -/
def execMoverParkTimeout (f : Fin 56) (m : Fin 16) (s : State) : Res :=
  let v := s.mover f m
  match v.queue with
  | d :: _ =>
    if d.state = descParked ∧ d.code ≠ 0x20 ∧ s.up ≥ v.parkedAt + second then
      .next (s.moverStop f m d.slice 0x45 d.code d.core d.step d.frame d.cc)
    else .next s
  | [] => .next s

/-! ## Spare modules, R284 and R285 -/

/-- Rewrite every page-table entry of a slice whose TARGET names a departing module, from the control complex's record. -/
def State.rewriteTargets (s : State) (slice old new : Nat) : State :=
  let hit := s.ccRecord.pages.filter fun e =>
    bitOf e.2 0 && bitOf e.2 1 && bits e.2 8 12 == slice && bits e.2 114 14 == old
  hit.foldl (fun s e => s.putEntry e.1 (setBits e.2 114 14 new)) s

/-- A member takes a spare in place of a departing module: its page-table entries of the slice name the spare, its cached translations are
invalidated (R135), and the spare is the home module where the departing module was. -/
def State.spareIn (s : State) (slice old new : Nat) : State :=
  let s := s.rewriteTargets slice old new
  let s := match s.slotOfSlice slice with
    | some n => s.invalidate n none
    | none => s
  match s.entryOf slice with
  | some e => if s.fld F.RTE_SLICE_HOME e = old then s.putRoute .RTE_SLICE e (setBits (s.rd .RTE_SLICE e) 43 14 new) else s
  | none => s

/-- The substitution of a departing module by a spare: its place among the four, the first that is free or that names the position, and its
value; none where all four are taken. -/
def State.substOf (s : State) (e old new : Nat) : Option (Nat × Nat) :=
  let logical := s.logicalId e old
  ((List.range 4).find? fun i =>
      !s.flag F.RTE_SLICE_SUBST_VALID (4 * e + i) || s.fld F.RTE_SLICE_SUBST_LOGICAL (4 * e + i) == logical).map fun i =>
    (i, logical + new * 2 ^ 14 + 2 ^ 28)

/-- The hops between two modules in dimension order, the shorter way on each axis (log entry 92). -/
def torusHops (dims : Nat × Nat × Nat) (m far : Nat) : List (Nat × Nat) :=
  let (x, y, z) := coordsOf m
  let (fx, fy, fz) := coordsOf far
  let (nx, ax) := ringWay dims.1 x fx
  let (ny, ay) := ringWay dims.2.1 y fy
  let (nz, az) := ringWay dims.2.2 z fz
  hopsOver dims m ax nx ++ hopsOver dims (idOf fx y z) (2 + ay) ny ++ hopsOver dims (idOf fx fy z) (4 + az) nz

/-- A link that only slices of a sum of SHARE use counts as unused: those of a slice that leaves it. -/
def unusedBy (share : Nat) (f : FaceFacts) : FaceFacts := if f.share ≤ share then { f with share := 0 } else f

/-- What is known of the machine once a slice leaves the links of a module: over a face of it, and over the opposite face of its neighbour. -/
def leaveLinks (dims : Nat × Nat × Nat) (v : List ModuleFacts) (old share : Nat) : List ModuleFacts :=
  v.map fun x => { x with faces := x.faces.mapIdx fun i g =>
    if x.module.toNat = old ∨ nextOver dims x.module.toNat i = old then unusedBy share g else g }

/-- The first port of a module with a free lane group. -/
def openPortOf (v : List ModuleFacts) (t : Taken) (m : Nat) : Nat :=
  ((List.range 6).find? fun p => !(groupsOn v t m p).isEmpty).getD 0

/-- Plan further links, each after those before it: from a port of a module to a port of another. A port of none is the first with a free lane
group. -/
def planLinks (dims : Nat × Nat × Nat) (v : List ModuleFacts) (t : Taken) :
    List ((Nat × Option Nat) × (Nat × Option Nat)) → Except Nat (List ExpressLink × Taken)
  | [] => .ok ([], t)
  | ((m, p), (far, q)) :: rest =>
    match expressLink dims v t m (p.getD (openPortOf v t m)) far (q.getD (openPortOf v t far)) (torusHops dims m far) with
    | .error c => .error c
    | .ok (l, t) => match planLinks dims v t rest with
      | .error c => .error c
      | .ok (ls, t) => .ok (l :: ls, t)

/-- The ends of the substitution links of a position: from each of its neighbours in the box to the spare (R284). -/
def State.substEnds (s : State) (e new : Nat) (p : Nat × Nat × Nat) : List ((Nat × Option Nat) × (Nat × Option Nat)) :=
  let b := s.box e
  (List.range 6).filterMap fun d => (b.next p d).map fun q =>
    ((s.physicalId e (b.moduleAt s.dims q), some (oppositeFace d)), (new, some d))

/-- The modules of holders that a PEER value names at the end of a link. -/
def peerEnds (peers : List (BitVec 35)) : List Nat :=
  (peers.filter fun v => v.getLsbD 34 && !v.getLsbD 14).map fun v => bits v.toNat 0 14

/-- The hop delay H of a slice once a position is substituted: hops to and from it run over the substitution links. -/
def State.spareDelay (s : State) (e : Nat) (v : List ModuleFacts) (ls : List ExpressLink) (p : Nat × Nat × Nat) : Nat :=
  let b := s.box e
  let link := fun (m : Nat) => (ls.find? fun l => l.fromModule == m).elim 0 (·.delay v)
  let home := (s.posOf e (s.fld F.RTE_SLICE_HOME e)).getD b.homePos
  b.largestSum home fun h =>
    let m := s.physicalId e (b.moduleAt s.dims h.1)
    match b.next h.1 h.2 with
    | some q =>
      if q = p then 100 + link m
      else if h.1 = p then 100 + link (s.physicalId e (b.moduleAt s.dims q))
      else 100 + (factsAt v m h.2).elim 0 (·.prop.toNat)
    | none => 100

/-- The fields that a slice of an entry holds on this module. -/
def State.fieldsHeld (s : State) (e : Nat) : Nat :=
  let slice := s.fld F.RTE_SLICE_SLICE_ID e
  match s.savedOf slice with
  | some v => v.fields.length
  | none => ((List.range 56).filter fun f => s.fieldOwner f == some slice).length

/-- What is known of a slice's entry on a module. -/
def entryOn (v : List ModuleFacts) (m slice : Nat) : Option EntryFacts :=
  (factsOf v m).bind fun x => x.entries.find? fun y => y.slice.toNat == slice

/-- The reason that a link of a switch is refused for: no free lane group at an end, or the limits of R279 and R280, which no spare then fits
(R284). -/
def spareReason (c : Nat) : Nat := if c = 3 then 3 else 10

/-- The plan of a switch to a spare, or the reason that refuses it (R281, R284, R35): the module is a member, a substitution is free, the spare
holds no entry and has room and time, its LPDDR takes the frames of the departing module's quota, every other module of the slice is known, and
every link keeps the limits of R279 and R280. -/
def State.sparePlan (s : State) (e old new : Nat) (survey : List ModuleFacts) : Except Nat Spare :=
  let v := leaveLinks s.dims (s.knowledge survey) old (s.fld F.RTE_SLICE_SHARE e)
  let slice := s.fld F.RTE_SLICE_SLICE_ID e
  let others := (s.partners e).filter (· != old)
  match s.posOf e old, s.substOf e old new, factsOf v new with
  | some p, some _, some x =>
    match x.slot, x.entry with
    | some _, some k =>
      if !x.entries.isEmpty ∨ x.fields.length < s.fieldsHeld e ∨ !x.valid ∨ !x.timed ∨ old = new then .error 10
      else if x.frames < s.fld F.LPD_QUOTA_HELD e then .error reasonQuota
      else if others.any fun m => (entryOn v m slice).isNone then .error reasonLink
      else
        let peers := peerEnds (((entryOn v old slice).map (·.peers)).getD [])
        match planLinks s.dims v ⟨[], []⟩ (s.substEnds e new p) with
        | .error c => .error (spareReason c)
        | .ok (ls, t) => match planLinks s.dims v t (peers.map fun h => ((h, none), (new, none))) with
          | .error c => .error (spareReason c)
          | .ok (hs, t) => match planLinks s.dims v t [((old, none), (new, none))] with
            | .ok (c :: _, _) =>
              let h := (hs.map fun l => 100 + l.delay v).foldl max (s.spareDelay e v ls p)
              if windowShort s.period h then .error reasonVote
              else .ok { entry := e, old := old, new := new, newEntry := k, position := p
                         tables := others.filterMap fun m => (entryOn v m slice).map fun y => (m, y)
                         links := ls, holders := hs, copy := c, cuts := cutsOf v (ls ++ hs ++ [c]), delay := h, stage := .saving }
            | .ok ([], _) => .error 10
            | .error c => .error (spareReason c)
    | _, _ => .error 10
  | _, _, _ => .error 10

/-- Change the plan of an entry's switch. -/
def State.setSpare (s : State) (e : Nat) (x : Option Spare) : State :=
  { s with spares := (s.spares.filter fun (y : Spare) => y.entry != e) ++ x.toList }

/-- Step 1 of R285: the slice is pre-empted for a spare that fits; a refusal changes no table, and the job shows its reason. -/
def State.spareBegin (s : State) (e old new : Nat) (survey : List ModuleFacts) : State :=
  let slice := s.fld F.RTE_SLICE_SLICE_ID e
  match s.sparePlan e old new survey with
  | .error r => { s with jobs := s.jobs.map fun j => if j.slice = slice then { j with reason := r } else j }
  | .ok x =>
    match s.slotOfSlice slice with
    | some n => (s.setSpare e (some x)).requestPre n ⟨0x65, old⟩
    | none => s.setSpare e (some x)

/-- What a memory holds in some frames of LPDDR. -/
def Memory.keepFrames (m : Memory) (frames : List Nat) : Memory :=
  let keep := fun (unit a : Nat) => frames.contains (a * unit / 2 ^ 21) && decide (a * unit < lpddrEnd)
  { cells := m.cells.filter fun e => keep 1 e.1, marks := m.marks.filter fun e => keep 64 e.1, upset := []
    tiles := m.tiles.filter fun e => keep 4096 e.1, fldUndef := [], bankUndef := m.bankUndef.filter fun e => keep 65536 e.1
    lineDef := m.lineDef.filter fun e => keep 64 e.1, lineUndef := m.lineUndef.filter fun e => keep 64 e.1
    owner := m.owner.filter fun e => frames.contains e.1 }

/-- Put frames of LPDDR into a memory, at the numbers they had. -/
def Memory.putFrames (m v : Memory) : Memory :=
  let m := v.owner.foldl (fun m e => m.clearFrame e.1) m
  { m with cells := putShifted 0 0 1 v.cells m.cells, marks := putShifted 0 0 64 v.marks m.marks, tiles := putShifted 0 0 4096 v.tiles m.tiles
           bankUndef := putShifted 0 0 65536 v.bankUndef m.bankUndef, lineDef := putShifted 0 0 64 v.lineDef m.lineDef
           lineUndef := putShifted 0 0 64 v.lineUndef m.lineUndef, owner := putShifted 0 0 1 v.owner m.owner }

/-- The page-table entries of a memory in a range, each with its index from there; an entry of zeros is none. -/
def Memory.entriesIn (m : Memory) (o size : Nat) : List (Nat × Nat) :=
  (((m.cells.filter fun c => decide (o ≤ c.1) && decide (c.1 < o + size)).map fun c => (c.1 - o) / 16).eraseDups).map fun i =>
    (i, ofBytes (m.bytes (o + 16 * i) 16))

/-- The module offset of the second-level table that an entry names. -/
def tableOf (x : Nat) : Nat := bits x 77 51 * 2 ^ 13 % 2 ^ 50

/-- The page tables under a root in the reserved region, as cells. -/
def Memory.keepTables (m : Memory) (root : Nat) : List Host.Cell :=
  let o := root % 2 ^ 50
  let tabs := (o, 2 ^ 22) :: ((m.entriesIn o (2 ^ 22)).filter fun e => bitOf e.2 0 && !bitOf e.2 1).map fun e => (tableOf e.2, 8192)
  if o < reservedBase then []
  else m.cells.filter fun c => tabs.any fun t => decide (t.1 ≤ c.1) && decide (c.1 < t.1 + t.2)

/-- Page tables that another module sent are laid out in this module's own reserved region (Table 5.3), under the top-level table of an
entry. -/
def State.takeTables (s : State) (e slice root : Nat) (v : Memory) : State :=
  let o := rootOffset e
  let s : State := { s with mem := s.mem.zeroRange o (o + 2 ^ 22)
                            ccRecord := { s.ccRecord with pages := mapDelRange o (o + 2 ^ 22) s.ccRecord.pages } }
  (v.entriesIn (root % 2 ^ 50) (2 ^ 22)).foldl (fun s x =>
    if !bitOf x.2 0 || bitOf x.2 1 then s.putEntry (o + 16 * x.1) x.2
    else
      let t := tableOffset s.nextTable
      let s : State := { s with mem := s.mem.zeroRange t (t + 8192), nextTable := s.nextTable + 1 }
      (v.entriesIn (tableOf x.2) 8192).foldl (fun s y => s.putEntry (t + 16 * y.1) y.2)
        (s.putEntry (o + 16 * x.1) (nextEntry slice (s.globalOf t)))) s

/-- A departing module's control-complex movers copy its saved context, the slice's frames and its page tables to a spare (log entry 92). -/
def State.spareOut (s : State) (slice new : Nat) : State :=
  match s.savedOf slice with
  | some v =>
    let m := s.mem.keepFrames (s.framesOf slice)
    s.emit (.contextCopy new v { m with cells := putShifted 0 0 1 (s.mem.keepTables v.root) m.cells } (s.saveAreas slice))
  | none => s

/-- Step 3 of R285: the departing module copies; another one is told to. -/
def State.spareCopy (s : State) (x : Spare) : State :=
  let slice := s.fld F.RTE_SLICE_SLICE_ID x.entry
  let s := s.setSpare x.entry (some { x with stage := .copied })
  if x.old = s.selfId then s.spareOut slice x.new else s.tell x.old (.spareCopy (BitVec.ofNat 12 slice) (BitVec.ofNat 14 x.new))

/-- What was copied arrives at the spare, which serves no slice yet: it holds the context, the page tables in its own reserved region, and the
frames at the numbers they had, counted in the quota of the entry that is to serve the slice (R141). -/
def State.spareArrives (s : State) (e : Nat) (v : SavedSlice) (frames : Memory) (areas : List Nat) : State :=
  if s.anySlice ∨ (List.range 64).any (fun e => s.flag F.RTE_SLICE_ACTIVE e) ∨ (s.savedOf v.slice).isSome ∨
      frames.owner.any (fun e => decide (jobFrames ≤ e.1) || s.mem.ownerOf e.1 != 0) then s
  else
    let own := v.root % 2 ^ 50 < reservedBase
    let s := { s with mem := s.mem.putFrames (frames.keepFrames (frames.owner.map Prod.fst))
                      areas := mapSet (fun _ => []) v.slice areas s.areas }
    let s := if own then s else s.takeTables e v.slice v.root frames
    let s := { s with saved := s.saved ++ [if own then v else { v with root := s.globalOf (rootOffset e) }] }
    (s.openQuota e v.slice frames.owner.length).setFld F.LPD_QUOTA_HELD e frames.owner.length

/-- HOP of a module once a position is substituted: in the direction of the position it names the substitution link. -/
def Spare.hopOf (x : Spare) (m hop : Nat) : Nat :=
  (x.links.filter fun l => l.fromModule == m).foldl (fun h l => setBits h (6 * l.fromPort) 6 (slotOf l.fromPort l.fromGroups + 32)) hop

/-- A PEER value once a spare replaces a module: it names the spare as the gateway. -/
def Spare.peerOf (x : Spare) (v : Nat) : Nat := if bitOf v 34 && bitOf v 14 && bits v 20 14 == x.old then setBits v 20 14 x.new else v

/-- The staged tables of another module of the slice: its substitutions, its hops and its gateways. -/
def State.stageAway (s : State) (x : Spare) (i v : Nat) (t : Nat × EntryFacts) : State :=
  let k := t.2.entry.val
  let w := fun (s : State) (r : Reg) (i v : Nat) => s.writeAt t.1 r i v id
  let s := w s .RTE_SLICE_SUBST (4 * k + i) v
  let hop := x.hopOf t.1 t.2.hop.toNat
  let s := if hop = t.2.hop.toNat then s else w s .RTE_SLICE_HOP k hop
  t.2.peers.zipIdx.foldl (fun s p => if x.peerOf p.1.toNat = p.1.toNat then s else w s .RTE_SLICE_PEER (8 * k + p.2) (x.peerOf p.1.toNat)) s

/-- The staged tables of this module. -/
def State.stageHere (s : State) (x : Spare) (i v : Nat) : State :=
  let e := x.entry
  let s := s.tableWrite .RTE_SLICE_SUBST e (4 * e + i) v
  let hop := s.fld F.RTE_SLICE_HOP_HOP e
  let s := if x.hopOf s.selfId hop = hop then s else s.tableWrite .RTE_SLICE_HOP e e (x.hopOf s.selfId hop)
  (List.range 8).foldl (fun s p =>
    let peer := s.rd .RTE_SLICE_PEER (8 * e + p)
    if x.peerOf peer = peer then s else s.tableWrite .RTE_SLICE_PEER e (8 * e + p) (x.peerOf peer)) s

/-- The tables of the spare: those of a member at the position of the departing module, with its quota. -/
def State.spareTables (s : State) (x : Spare) (i v : Nat) : State :=
  let e := x.entry
  let k := x.newEntry
  let w := fun (s : State) (r : Reg) (i v : Nat) => s.writeAt x.new r i v id
  let hops := (x.links.map fun l => (slotOf l.toPort l.toGroups + 32) * 2 ^ (6 * l.toPort)).sum
  let s := w (w s .RTE_SLICE_BOX k (s.rd .RTE_SLICE_BOX e)) .RTE_SLICE_HOP k hops
  let s := (List.range 4).foldl (fun s j => w s .RTE_SLICE_SUBST (4 * k + j) (if j = i then v else s.rd .RTE_SLICE_SUBST (4 * e + j))) s
  let s := x.holders.zipIdx.foldl (fun s l =>
    w s .RTE_SLICE_PEER (8 * k + l.2) (l.1.fromModule + slotOf l.1.toPort l.1.toGroups * 2 ^ 15 + 2 ^ 34)) s
  let s := w s .LPD_QUOTA k (s.rd .LPD_QUOTA e)
  let home := if s.fld F.RTE_SLICE_HOME e = x.old then x.new else s.fld F.RTE_SLICE_HOME e
  w s .RTE_SLICE k (setBits (setBits (setBits (s.rd .RTE_SLICE e) 14 6 0) 43 14 home) 57 3 0)

/-- What the spare has to know of the slice, as any member does: its job (R398), its hop delay (R34) and the fields of the other members (R277). -/
def State.spareTold (s : State) (x : Spare) : State :=
  let slice := s.fld F.RTE_SLICE_SLICE_ID x.entry
  let sl := BitVec.ofNat 12 slice
  let job := match s.jobs.find? fun j => j.slice == slice with
    | some j => (j.ident, j.tag)
    | none => (mapGet (fun _ => none) s.farJobs slice).getD (0, 0)
  let s := s.tell x.new (.sliceJob sl (BitVec.ofNat 16 job.1) (BitVec.ofNat 64 job.2))
  (s.farFields.filter fun f => f.1 / 16384 == slice).foldl (fun s f =>
    s.tell x.new (.sliceFields sl (BitVec.ofNat 14 f.1) (BitVec.ofNat 56 (f.2.getD 0)))) s

/-- Every module of a switch but the departing one: this one, the others of the slice, and the spare. -/
def State.spareModules (s : State) (x : Spare) : List Nat := x.tables.map (·.1) ++ (if x.old = s.selfId then [] else [s.selfId]) ++ [x.new]

/-- Steps 4 and 5 of R285: page-table entries that name the departing module are rewritten on every member, the staged tables of every member and
holder and the tables of the spare are written, and the commits are armed with the tick of the restore, from which the vote tree has its new hop
delay; the departing module gives up its entry, and the restore is allowed. -/
def State.spareRewrite (s : State) (x : Spare) (tick : Nat) : State :=
  let e := x.entry
  let slice := s.fld F.RTE_SLICE_SLICE_ID e
  let sl := BitVec.ofNat 12 slice
  match s.substOf e x.old x.new with
  | none => s
  | some (i, v) =>
    let s := ((x.tables.foldl (fun s t => s.stageAway x i v t) (s.stageHere x i v)).spareTables x i v).spareTold x
    let s := x.tables.foldl (fun (s : State) t => s.tell t.1 (.spareIn sl (BitVec.ofNat 14 x.old) (BitVec.ofNat 14 x.new)))
      (s.spareIn slice x.old x.new)
    let s := (x.tables.map (fun t => (t.1, t.2.entry.val)) ++ [(x.new, x.newEntry)]).foldl (fun (s : State) (m : Nat × Nat) =>
      s.writeAt m.1 .RTE_SLICE_COMMIT m.2 tick id) (s.commitArm e tick)
    let s := { s with nextDelays := mapSet (fun _ => none) e (some x.delay) s.nextDelays }
    let s := (s.spareModules x).foldl (fun s m => s.tell m (.voteDepth sl (BitVec.ofNat 16 x.delay))) s
    let s := (s.setSpare e none).tell x.old (.sliceRelease sl)
    let s := if x.old = s.selfId ∧ !(s.jobs.any fun j => j.slice == slice) then s.leaveEntry e slice (s.framesOf slice) else s
    { s with jobs := s.jobs.map fun j =>
      if j.slice = slice ∧ j.state = .preempted ∧ j.cause.code = 0x65 then { j with resumeOk := true } else j }

/-- The departing module's context cannot be read: the job is stopped with cause MODULE_LOST (R285). -/
def State.spareLost (s : State) (e old : Nat) : State :=
  let slice := s.fld F.RTE_SLICE_SLICE_ID e
  let s := s.setSpare e none
  match s.jobs.find? fun j => j.slice == slice with
  | some j => s.askStop j.ident ⟨stFault, 0x48, old, some (s.jobFrame j), none⟩
  | none => match s.slotOfSlice slice with
    | some n => s.frameStop n 0x48 old
    | none => s

/-- SPARE_SWITCH: the placement service replaces a member by a spare module through pre-emption, links, copy, table rewrite and restore, in
this order (R285); a step out of its order has no effect. What the departing module copied arrives at the spare by a step of its own. -/
def execSpareSwitch (e : Fin 64) (departing : BitVec 14) (step : SpareStep) (s : State) : Res :=
  let old := departing.toNat
  let away := !(s.slotOfSlice (s.fld F.RTE_SLICE_SLICE_ID e)).isSome
  match step with
  | .arrive v frames areas => .next (s.spareArrives e v frames areas)
  | step =>
    if !s.flag F.RTE_SLICE_ACTIVE e then .next s
    else match step, s.spares.find? fun x => x.entry == e.val && x.old == old with
      | .preempt spare survey, none => .next (s.spareBegin e old spare.toNat survey)
      | .links tick, some x =>
        if x.stage = .saving then
          .next ((s.buildLinks (x.links ++ x.holders ++ [x.copy]) x.cuts tick.toNat).setSpare e (some { x with stage := .linking }))
        else .next s
      | .copy, some x => if x.stage = .linking ∧ away then .next (s.spareCopy x) else .next s
      | .rewrite tick, some x => if x.stage = .copied then .next (s.spareRewrite x tick.toNat) else .next s
      | .lost, _ => .next (s.spareLost e old)
      | _, _ => .next s

end Sys2Proof.Machine
end

