-- ==== Sys2Proof/Machine/Resolve.lean ====
section
/-!
DEFINITION. Sys2Proof/Machine/Resolve.lean: how the control complex resolves the causes of faults and of parked movers: it maps
fresh pages (R499), compares tables with its record (R500), reads failing lines again (R138), and finds ports open again.
-/
namespace Sys2Proof.Machine

/-- What the resolution of a cause comes to: the cause is resolved; it is not yet; it was refused correctly and has no resolution
(R500); or data is lost, with the global address of the failing line (R138). -/
inductive Resolved where
  | done
  | waiting
  | never
  | lost (ga : Nat)
deriving DecidableEq, Repr

/-! ## NOT_MAPPED, R499 -/

/-- Map a fresh page for an address of a slot's slice, unless one is mapped by now. -/
def State.mapFresh (s : State) (n slice va : Nat) : State × Resolved :=
  match s.walk n va with
  | (_, .leaf _) => (s, .done)
  | _ =>
    match s.allocFrames slice 1 with
    | some (s, [k]) => (s.mapPage n slice (va / 2 ^ 21 * 2 ^ 21) (s.globalOf (k * 2 ^ 21) / 2 ^ 21) true, .done)
    | _ => (s, .waiting)

/-! ## Tables against the record, R500 -/

/-- Module offsets of the entries that translate an address, as the record has them. -/
def State.entriesOf (s : State) (n va : Nat) : List Nat :=
  let top := s.rd .MMU_SLOT_ROOT n % 2 ^ 50 + va / 2 ^ 30 * 16
  let e1 := mapGet (fun _ => 0) s.ccRecord.pages top
  if bitOf e1 0 && !bitOf e1 1 then [top, bits e1 77 51 * 2 ^ 13 % 2 ^ 50 + va / 2 ^ 21 % 512 * 16] else [top]

/-- Does an entry differ from the record, or lie in a line that does not read? -/
def State.entryOff (s : State) (o : Nat) : Bool :=
  s.rawEntry o != mapGet (fun _ => 0) s.ccRecord.pages o || s.mem.mark o != 0 ||
    mapGet (fun _ => 0) s.mem.upset (o / 64) == 2

/-- Rewrite the entries of a line from the record. -/
def State.rewriteEntry (s : State) (o : Nat) : State :=
  (rangeFrom 0 4).foldl (fun s i =>
    let p := o / 64 * 64 + 16 * i
    s.putEntry p (mapGet (fun _ => 0) s.ccRecord.pages p)) { s with mem := { s.mem with upset := mapSet (fun _ => 0) (o / 64) 0 s.mem.upset } }

/-- Compare the entries for an address with the record; where they differ, rewrite them and invalidate (R135). -/
def State.fixPages (s : State) (n va : Nat) : State × Resolved :=
  match (s.entriesOf n va).filter s.entryOff with
  | [] => (s, .never)
  | l => ((l.foldl State.rewriteEntry s).invalidate n none, .done)

/-- Compare the owners of a slice's frames and fields with the record. -/
def State.fixOwners (s : State) (slice : Nat) : State × Resolved :=
  let frames := s.ccRecord.frames.filter fun e => e.2 == slice + 1 && s.mem.ownerOf e.1 != e.2
  let fields := s.ccRecord.fields.filter fun e => e.2 == slice + 1 && s.fieldOwner e.1 != some slice
  if frames.isEmpty && fields.isEmpty then (s, .never)
  else
    let s := frames.foldl (fun s e => { s with mem := { s.mem with owner := mapSet (fun _ => 0) e.1 e.2 s.mem.owner } }) s
    (fields.foldl (fun s e => s.giveField e.1 slice) s, .done)

/-- The routing registers of an entry that the control complex keeps a record of. -/
def routeKeys (e : Nat) : List (Reg × Nat) := (Reg.RTE_SLICE, e) :: stagedKeys e

/-- What the record says a routing register holds, with EPOCH, ARMED and CRESULT as they stand; none where it says nothing. -/
def State.routeRecord (s : State) (r : Reg) (i : Nat) : Option Nat :=
  match mapGet (fun _ => 0) s.ccRecord.routes (regKey r i) with
  | 0 => none
  | v + 1 => some (if r = .RTE_SLICE then setBits (setBits v 20 16 (s.fld F.RTE_SLICE_EPOCH i)) 57 3 (bits (s.rd .RTE_SLICE i) 57 3) else v)

/-- The entry that the record gives a slice. -/
def State.recordedEntry (s : State) (slice : Nat) : Option Nat :=
  (List.range 64).find? fun e => match s.routeRecord .RTE_SLICE e with
    | some v => bits v 0 12 == slice && bitOf v 12
    | none => false

/-- Compare the routing registers of a slice's entry with the record. -/
def State.fixRoutes (s : State) (slice : Nat) : State × Resolved :=
  match s.recordedEntry slice with
  | none => (s, .never)
  | some e =>
    let off := (routeKeys e).filterMap fun k => (s.routeRecord k.1 k.2).bind fun v => if s.rd k.1 k.2 = v then none else some (k.1, k.2, v)
    if off.isEmpty then (s, .never) else (off.foldl (fun s x => s.wr x.1 x.2.1 x.2.2) s, .done)

/-! ## DATA_UE and PAGE_POISON, R138 -/

/-- Does a line of this module read uncorrectable through set-up space: an uncorrectable error, mark 2, or the lost pattern? -/
def State.lineLost (s : State) (o : Nat) : Bool := s.mem.mark o == 2 || mapGet (fun _ => 0) s.mem.upset (o / 64) == 2

/-- The first line of a range of this module that reads uncorrectable. -/
def State.lostLine (s : State) (o lines : Nat) : Option Nat := ((List.range lines).map fun i => o / 64 * 64 + 64 * i).find? s.lineLost

/-- Does a record of a leaf, at a module offset, map the 2 MiB unit of a global address for a slice? A leaf of the top level maps 1 GiB. -/
def leafMaps (root slice unit : Nat) (o e : Nat) : Bool :=
  bitOf e 0 && bitOf e 1 && bits e 8 12 == slice &&
    (if root ≤ o ∧ o < root + 2 ^ 22 then bits e 85 43 / 512 == unit / 512 else bits e 85 43 == unit)

/-- Set POISON in every entry of a slice that maps the 2 MiB frame of a global address, and invalidate. -/
def State.poisonFrame (s : State) (n slice ga : Nat) : State :=
  let root := s.rd .MMU_SLOT_ROOT n % 2 ^ 50
  let hit := s.ccRecord.pages.filter fun e => leafMaps root slice (ga / 2 ^ 21) e.1 e.2
  (hit.foldl (fun s e => s.putEntry e.1 (setBits e.2 3 1 1)) s).invalidate n none

/-- A failing line is lost: in SRAM it gets mark 2, in LPDDR its frame's entries are poisoned. -/
def State.loseLine (s : State) (n slice ga : Nat) : State :=
  match placeOf (ga % 2 ^ 50) with
  | .sram _ _ _ => if ga / 2 ^ 50 = s.selfId then { s with mem := s.mem.setMark (ga % 2 ^ 50) 2 } else s
  | _ => s.poisonFrame n slice ga

/-- The lines that an access read at a global address are read again: data is lost when one is uncorrectable again. Lines of another module
are read by its control complex, which is asked once and answers (log entry 91). -/
def State.rereadLines (s : State) (n slice ga lines : Nat) : State × Resolved :=
  if ga / 2 ^ 50 = s.selfId then match s.lostLine (ga % 2 ^ 50) lines with
    | some o => (s.loseLine n slice (s.globalOf o), .lost (s.globalOf o))
    | none => (s, .done)
  else match s.lineReads.find? fun x => x.1 == ga with
    | none => ({ s with lineReads := s.lineReads ++ [(ga, none)] }.tell (ga / 2 ^ 50) (.lineAsk (BitVec.ofNat 64 ga) (BitVec.ofNat 8 lines)), .waiting)
    | some (_, none) => (s, .waiting)
    | some (_, some answer) =>
      let s := { s with lineReads := s.lineReads.filter fun x => x.1 != ga }
      match answer with
      | some line => (s.loseLine n slice line, .lost line)
      | none => (s, .done)

/-- Another module's control complex asks for lines of this module to be read: it answers with the line that is lost, which in SRAM gets
mark 2. -/
def State.lineAsked (s : State) (m ga lines : Nat) : State :=
  match s.lostLine (ga % 2 ^ 50) lines with
  | some o =>
    let s := match placeOf o with
      | .sram _ _ _ => { s with mem := s.mem.setMark o 2 }
      | _ => s
    s.tell m (.lineAnswer (BitVec.ofNat 64 ga) (some (BitVec.ofNat 64 (s.globalOf o))))
  | none => s.tell m (.lineAnswer (BitVec.ofNat 64 ga) none)

/-- The answer to such a question. -/
def State.lineAnswered (s : State) (ga : Nat) (lost : Option Nat) : State :=
  { s with lineReads := s.lineReads.map fun x => if x.1 = ga then (ga, some lost) else x }

/-! ## Ports, R217, R231 and R233 -/

/-- Is the route of an address of a slot's slice open? -/
def State.routeOpen (s : State) (n slice va : Nat) : Bool :=
  match (s.walk n va).2 with
  | .leaf l => match s.targetOf slice (l.address va) with
    | .fault _ => false
    | _ => true
  | .fault _ => false

/-! ## One cause -/

/-- The control complex acts on a cause with a code of Table 5.4, met by a slice of a slot at a slice-virtual address by an access of some
lines. -/
def State.resolveCode (s : State) (n slice code va lines : Nat) : State × Resolved :=
  match code with
  | 0x01 => s.mapFresh n slice va
  | 0x09 => match (s.walk n va).2 with
    | .leaf l => (s, .lost (l.address va))
    | .fault _ => (s, .waiting)
  | 0x0A => match (s.walk n va).2 with
    | .leaf l => s.rereadLines n slice (l.address va) lines
    | .fault _ => (s, .waiting)
  | 0x0B => (s, .done)
  | 0x0C => s.fixOwners slice
  | 0x0D => s.fixRoutes slice
  | 0x0E => (s, if s.routeOpen n slice va then .done else .waiting)
  | 0x0F => (s, if s.routeOpen n slice va then .done else .waiting)
  | 0x10 => (s, if s.routeOpen n slice va then .done else .waiting)
  | _ => s.fixPages n va

/-- The control complex acts on a fault of a frame (FAULT_RESOLVE). -/
def State.resolveFault (s : State) (n : Nat) (x : FrameFault) : State × Resolved :=
  let slice := s.fld F.SEQ_SLOT_CFG_SLICE_ID n
  if x.cls = clsStepEcc ∨ x.cls ≥ 8 then (s, .waiting)
  else match x.link with
    | some l =>
      if x.code = codeNoRoute then s.fixRoutes slice else (s, if s.fld F.RTE_LINK_STATE l = 1 then .done else .waiting)
    | none =>
      if x.code = codeOwnUe then s.rereadLines n slice (s.globalOf (sramLine x.field x.core (x.addr / 64))) x.lines
      else s.resolveCode n slice x.code x.addr x.lines

/-- A fault of the frame is resolved. -/
def State.faultResolved (s : State) (n : Nat) (x : FrameFault) : State :=
  s.updSlot n fun v => { v with faults := v.faults.map fun y => if y = x then { y with resolved := true } else y }

/-- The causes of a slot's faulted frame are acted on, one after another, while the slice holds for them. -/
def State.resolveSlot (s : State) (n : Nat) : State :=
  ((s.slot n).faults.filter fun x => !x.resolved).foldl (fun s x =>
    match s.resolveFault n x with
    | (s, .done) => s.faultResolved n x
    | (s, .waiting) => s
    | (s, .never) => s.frameStop n 0x41 x.cls
    | (s, .lost ga) => s.frameStop n 0x43 ga) s

/-! ## Parked movers, Table 6.5 -/

/-- The address at which a parked head's next request meets its code: the source's, or the destination's when only that meets it. -/
def State.parkedAt (s : State) (f : Nat) (d : Desc) : Nat :=
  let w := s.moverWho f d
  let srcBad := d.kind != 1 && d.srcSpace == 0 && (s.moverTarget f w 0 d.w1 d.progress false).2 == .fault d.code
  if srcBad ∨ d.dstSpace ≠ 0 ∨ d.code = 0x0A then (d.w1 + d.progress) % 2 ^ 48 else (d.w2 + d.progress) % 2 ^ 48

/-- The global address that a parked head's next request reads. -/
def State.parkedSource (s : State) (f : Nat) (d : Desc) : Option Nat :=
  if d.kind = 1 ∨ d.srcSpace = 2 then none
  else match (s.moverTarget f (s.moverWho f d) d.srcSpace d.w1 d.progress false).2 with
    | .here o => some (s.globalOf o)
    | .away ga _ => some ga
    | .fault _ => none

/-- The control complex acts on a parked mover's code. -/
def State.resolvePark (s : State) (n f : Nat) (d : Desc) : State × Resolved :=
  let slice := s.fld F.SEQ_SLOT_CFG_SLICE_ID n
  match d.code with
  | 0x05 => (s, .never)
  | 0x06 => (s, .waiting)
  | 0x0A => match s.parkedSource f d with
    | some ga => s.rereadLines n slice ga (d.reqLen d.progress / 64)
    | none => (s, .waiting)
  | 0x0E => (s, .waiting)
  | 0x0F => (s, if s.portsOpen f d then .done else .waiting)
  | 0x10 => (s, if s.portsOpen f d then .done else .waiting)
  | c => if c < 0x11 then s.resolveCode n slice c (s.parkedAt f d) 1 else (s, .waiting)

/-- A COPY_OUT of a STOPPED job whose mover has no resolution: it completes FAULT with cause DATA_LOST, and its other parts are
cancelled (R330). -/
def State.copyLost (s : State) (f : Nat) (d : Desc) (ga : Nat) : State :=
  match s.workOfPost f d.step d.frame with
  | none => s
  | some k => match s.work k with
    | none => s
    | some w =>
      let s := w.parts.foldl (fun s p => if p.past then s else s.cancelMover p.field 15) s
      s.finish w stFault 0x43 none ga 0

/-- Data that a mover reads is lost: the job is stopped (R138), or, in a job already STOPPED, the COPY completes (R330). -/
def State.moverLost (s : State) (n f : Nat) (d : Desc) (ga : Nat) : State :=
  if (s.slot n).phase = .stopped then s.copyLost f d ga
  else s.faultStop n ⟨stFault, 0x43, ga, some d.frame, if d.cc then s.workOfPost f d.step d.frame else none⟩

/-- A parked mover of a slot: it is resumed once its cause is resolved, or the job is stopped. A mover parked with code 0x0B is
resumed at once; one parked under an automatic code or by command is left. -/
def State.resolveMover (s : State) (n f m : Nat) : State :=
  match (s.mover f m).queue with
  | d :: _ =>
    if d.state ≠ descParked ∨ (s.sliceBars f).isSome then s
    else match s.resolvePark n f d with
      | (s, .done) => s.updMover f m Mover.resume
      | (s, .waiting) => s
      | (s, .never) => if (s.slot n).phase = .stopped then s else s.moverStop f m d.slice 0x45 d.code d.core d.step d.frame d.cc
      | (s, .lost ga) => s.moverLost n f d ga
  | [] => s

/-- Every parked mover of a slot. -/
def State.resolveMovers (s : State) (n : Nat) : State := s.eachMover n fun s f m => s.resolveMover n f m

end Sys2Proof.Machine
end

