-- ==== Sys2Proof/Machine/Frame.lean ====
section
/-!
DEFINITION. Sys2Proof/Machine/Frame.lean: the close and its decisions (R22, R23, R27 to R30, R33 to R37, R39, R42), and what a
slice does at a tick: advance, hold, replay, realign, rotate and pre-empt (R27 to R31, R36, R40 to R45).
-/
namespace Sys2Proof.Machine

/-! ## Hold causes, Table 2.3 -/

/-- Code of a hold cause. -/
def Cause.code : Cause → Nat
  | .overrun => 1
  | .exchange => 2
  | .power => 3
  | .fault => 4
  | .rotation => 5
  | .preempt => 6
  | .decision => 7
  | .idle => 8

/-- Causes in the order of their priority. -/
def Cause.order : List Cause := [.preempt, .rotation, .fault, .decision, .power, .overrun, .exchange, .idle]

/-- The recorded cause of a hold, R30; 0 without a cause. -/
def recordedCause (cs : List Cause) : Nat :=
  match Cause.order.find? cs.contains with
  | some c => c.code
  | none => 0

/-! ## Members of a slot's slice -/

/-- How many modules a slot's slice has members on. -/
def State.membersOf (s : State) (n : Nat) : Nat :=
  match s.entryOf (s.fld F.SEQ_SLOT_CFG_SLICE_ID n) with
  | some e => s.memberCount e
  | none => 1

/-- The home module of a slot's slice. -/
def State.homeOf (s : State) (n : Nat) : Nat :=
  match s.entryOf (s.fld F.SEQ_SLOT_CFG_SLICE_ID n) with
  | some e => s.fld F.RTE_SLICE_HOME e
  | none => s.selfId

/-- The holders that the peers of a slot's entry name (R270). -/
def State.holdersOf (s : State) (n : Nat) : List Nat :=
  match s.entryOf (s.fld F.SEQ_SLOT_CFG_SLICE_ID n) with
  | some e => ((List.range 8).filter fun i => s.flag F.RTE_SLICE_PEER_VALID (8 * e + i)).map fun i =>
      s.fld F.RTE_SLICE_PEER_MODULE (8 * e + i)
  | none => []

/-- Does a slot's slice agree by votes (R33): it has members or holders on other modules (R270)? -/
def State.votes (s : State) (n : Nat) : Bool := decide (s.membersOf n > 1) || !(s.holdersOf n).isEmpty

/-- Does this module decide for a slot's slice? -/
def State.decides (s : State) (n : Nat) : Bool := !s.votes n || s.homeOf n == s.selfId

/-! ## The vote tree, R33 and R270 -/

/-- The link slot of a holder, a leaf of the vote tree whose entry names no hops (R270): the lowest one that ends at a member, the home module
before another (log entry 92). -/
def State.holderLink (s : State) (e : Nat) : Option Nat :=
  let ends := fun (q : Nat → Bool) => s.enabledLinks.find? fun l => q (s.fld F.LNK_LINK_STATUS_PEER l)
  (ends (· == s.fld F.RTE_SLICE_HOME e)).orElse fun _ => ends fun m => (s.posOf e m).isSome

/-- The link slot toward the home module of a slice, whatever the state of the link: a retrain delays what it carries (R36). -/
def State.homeLink (s : State) (e : Nat) : Option Nat :=
  if s.flag F.RTE_SLICE_ROLE e then s.holderLink e else s.slotToward e (s.fld F.RTE_SLICE_HOME e)

/-- The link slots by which a decision leaves this module: to each neighbour in the box whose way to the home module leads through here, and
to each holder at the end of a link of its own; none from a holder. -/
def State.treeLinks (s : State) (e : Nat) : List Nat :=
  if s.flag F.RTE_SLICE_ROLE e then []
  else
  let b := s.box e
  let down := match s.posOf e (s.fld F.RTE_SLICE_HOME e), s.posOf e s.selfId with
    | some p, some q => (List.range 6).filterMap fun d =>
        (b.next q d).bind fun c => if (b.way p c).bind (b.next c) = some q then s.hopLink e d else none
    | _, _ => []
  down ++ (List.range 8).filterMap fun i =>
    if s.flag F.RTE_SLICE_PEER_VALID (8 * e + i) then s.peerLink e (s.fld F.RTE_SLICE_PEER_MODULE (8 * e + i)) else none

/-- What a vote says, as numbers. -/
def Vote.values (x : Vote) : List Nat :=
  [x.member, bit x.holder, x.frame, x.replay, bit x.moving, bit x.rerun, bit x.faulted, x.lastClass, bit x.ready, bit x.fence, bit x.step,
    bit x.change] ++ x.causes.map Cause.code ++ (x.asked.map fun r => [r.code, r.detail]).flatten

/-- Code of a verdict. -/
def Verdict.code : Verdict → Nat
  | .advance => 0
  | .hold => 1
  | .replay => 2
  | .realign => 3
  | .preempt => 4

/-- What a decision says, as numbers. -/
def Decision.values (d : Decision) : List Nat :=
  [d.verdict.code, d.cause, d.frame, d.replay, d.next, d.told.code, d.told.detail, (d.begins.map (· + 1)).getD 0, bit d.change, bit d.halt,
    (d.ends.map (· + 1)).getD 0] ++ d.causes.map Cause.code

/-- The packet of a vote or a decision of a slice, with the frame number and replay count of its slot (Table 8.4). -/
def State.treePacket (s : State) (ptype slice m : Nat) (data : List Byte) : Packet :=
  let p := s.managePacket ptype slice m data
  match s.slotOfSlice slice with
  | some n => { p with replay := BitVec.ofNat 2 (s.fld F.SEQ_STATUS_REPLAY n), frame := BitVec.ofNat 32 (s.rd .SEQ_FRAME n) }
  | none => p

/-- A vote goes one hop up the tree. -/
def State.sendVote (s : State) (e slice : Nat) (x : Vote) : State :=
  let home := s.fld F.RTE_SLICE_HOME e
  let s := s.emit (.vote slice home x)
  match s.homeLink e with
  | some l => s.sendLink l { s.managePacket 5 slice home (Config.packetBody 5 x.values) with
      replay := BitVec.ofNat 2 x.replay, frame := BitVec.ofNat 32 x.frame }
  | none => s

/-- A decision goes one hop down the tree. -/
def State.sendDecision (s : State) (e slice : Nat) (d : Decision) : State :=
  (s.treeLinks e).foldl (fun s l =>
    s.sendLink l (s.treePacket 6 slice (s.fld F.LNK_LINK_STATUS_PEER l) (Config.packetBody 6 d.values))) (s.emit (.decision slice d))

/-! ## The guard time, R21 and R34 -/

/-- Guard time of a slot's slice in ns. -/
def State.guardOf (s : State) (n : Nat) : Nat :=
  if s.votes n then match s.entryOf (s.fld F.SEQ_SLOT_CFG_SLICE_ID n) with
    | some e => guardNs (s.hopDelay e)
    | none => guardNs 0
  else guardNs 0


/-! ## What a close finds -/

/-- Has a core received the exchanges of its frame, R77? -/
def Core.exchangesIn (k : Core) (prog frame replay : Nat) : Bool :=
  decide (((List.range 256).filter fun i =>
    mapGet (fun _ => none) k.recv (frame % 2 * 256 + i) == some ⟨frame, replay⟩).length ≥ headerXchgIn (k.header prog))

/-- Are all exchanges of a slot's frame delivered? -/
def State.exchangesDone (s : State) (n : Nat) : Bool :=
  (s.coresOf n).all fun p => (s.core p.1 p.2).exchangesIn (s.fld F.SEQ_STATUS_INDEX n) (s.rd .SEQ_FRAME n) (s.fld F.SEQ_STATUS_REPLAY n)

/-- Is every fault of a slot's frame resolved? -/
def State.faultsReady (s : State) (n : Nat) : Bool := (s.slot n).faults.all (·.resolved)

/-- An operation on a column of a slot's fields. -/
def State.opsOf (s : State) (n : Nat) : List ColOp := s.colOps.filter fun o => (s.fieldsOf n).contains o.field

/-- Have the steps and shifts begun of a slot ended, so that their maps come into force at the coming tick? -/
def State.opsOver (s : State) (n : Nat) : Bool :=
  let ops := (s.opsOf n).filter (·.begun)
  !ops.isEmpty && decide ((s.slot n).rotLeft ≤ 1) && ops.all (·.moved)

/-- Is a rotation step or shift of a slot in progress? -/
def State.rotating (s : State) (n : Nat) : Bool := (s.opsOf n).any (·.begun) && !s.opsOver n

/-- Does a test run on the spare of a column, or does a marked core that a shift made the spare still wait for its test (R355, Table 14.6)? -/
def State.spareTested (s : State) (f c : Nat) : Bool :=
  let x := s.position f c (s.spareOf f c)
  x.testing.isSome || x.markedAt.isSome

/-- May an operation begin: none runs in its column, a repair goes before a rotation step (Table 7.3), and a step or shift waits for
the spare's test (R355)? -/
def State.opReady (s : State) (o : ColOp) : Bool :=
  !o.begun && o.kind != .fenceSpare && !s.colBusy o.field o.col && !(o.kind == .rotate && s.colRepair o.field o.col) &&
    (o.kind == .fenceCore || !s.spareTested o.field o.col) &&
    (s.colOps.find? fun x => x.field == o.field && x.col == o.col && (x.kind == o.kind)) == some o

/-- Does a step or shift of a slot run? One runs at a time (R178). -/
def State.opRuns (s : State) (n : Nat) : Bool := (s.opsOf n).any (·.begun)

/-- The next fencing of a core of a slot. It begins at the tick although the frame is faulted (R181), also at the tick that ends another
step or shift (Table 7.3). -/
def State.fenceDue (s : State) (n : Nat) : Option ColOp :=
  let s := if s.opsOver n then { s with colOps := s.colOps.filter fun o => !(o.begun && (s.fieldsOf n).contains o.field) } else s
  if s.opRuns n then none else (s.opsOf n).find? fun o => o.kind == .fenceCore && s.opReady o

/-- The next step or shift of a slot, which begins when the slice would advance (R44). -/
def State.stepDue (s : State) (n : Nat) : Option ColOp :=
  if s.opRuns n then none else (s.opsOf n).find? s.opReady

/-- The causes present at the close on this module, R27 and R29. SEQ_NEXT names no program whose postings on this module are not all
visible (R57). -/
def State.causesAt (s : State) (n : Nat) : List Cause :=
  let v := s.slot n
  let started := v.started && !v.moving
  let running := started && s.anyRunning n
  let idle := (s.decides n && (v.named).isNone) || !s.dependMet n (s.fld F.SEQ_NEXT_INDEX n)
  (if running then [Cause.overrun] else []) ++
  (if started && !s.exchangesDone n then [Cause.exchange] else []) ++
  (if !s.covered n then [Cause.power] else []) ++
  (if s.flag F.SEQ_STATUS_FAULTED n || (running && !v.realigned && s.fld F.SEQ_STATUS_REPLAY n != 0) then [Cause.fault] else []) ++
  (if s.rotating n then [Cause.rotation] else []) ++
  (if v.moving then [Cause.preempt] else []) ++
  (if running && v.realigned then [Cause.decision] else []) ++
  (if idle then [Cause.idle] else [])

/-! ## Decisions -/

/-- Among the causes of the pre-emptions asked for, POWER counts only alone, and of others the lowest (Table 15.3). -/
def pickCause : List PreCause → PreCause
  | [] => ⟨0x60, 0⟩
  | c :: cs => cs.foldl (fun a b =>
      if b.code = 0x62 then a else if a.code = 0x62 then b else if b.code < a.code then b else a) c

/-- A hold with a recorded cause, among causes found. The program is the one that SEQ_NEXT named at the close (R23). -/
def State.holdFor (s : State) (n c : Nat) (cs : List Cause) : Decision :=
  { verdict := .hold, cause := c, frame := s.rd .SEQ_FRAME n, replay := s.fld F.SEQ_STATUS_REPLAY n
    next := (s.slot n).named.getD (s.fld F.SEQ_NEXT_INDEX n), causes := cs, told := ⟨0, 0⟩, begins := none, change := false, halt := false, ends := none }

/-- The frame is started again, under a replay count. -/
def State.againFor (s : State) (n replay cause : Nat) (cs : List Cause) : Decision :=
  { s.holdFor n cause cs with verdict := .replay, replay := replay, next := s.fld F.SEQ_STATUS_INDEX n }

/-- This module's vote. -/
def State.ownVote (s : State) (n : Nat) (cs : List Cause) : Vote :=
  let v := s.slot n
  { member := s.selfId, holder := false, frame := s.rd .SEQ_FRAME n, replay := s.fld F.SEQ_STATUS_REPLAY n, causes := cs
    moving := v.moving, rerun := v.rerun, faulted := s.flag F.SEQ_STATUS_FAULTED n
    lastClass := (v.faults.getLast?.map (·.cls)).getD 0, ready := s.faultsReady n && !s.flag F.SEQ_STATUS_PROGRAM n
    asked := v.requests, fence := (s.fenceDue n).isSome, step := (s.stepDue n).isSome
    change := (s.opsOver n && (s.opsOf n).any fun o => o.begun && o.kind.placement) || (v.phase == .restored && v.replaced) }

/-- A holder's vote: it votes no hold cause (R270). -/
def State.holderVote (s : State) : Vote :=
  { member := s.selfId, holder := true, frame := 0, replay := 0, causes := [], moving := false, rerun := false, faulted := false
    lastClass := 0, ready := true, asked := [], fence := false, step := false, change := false }

/-- What a faulted frame comes to (R40, R42): it is replayed once its causes are resolved and its power is covered; a replay with count 3
that ends faulted stops the job. -/
def State.judgeFault (s : State) (n : Nat) (vs : List Vote) (all : List Cause) : Decision :=
  let rep := s.fld F.SEQ_STATUS_REPLAY n
  if rep = 3 then
    { s.holdFor n 4 all with halt := true, ends := some (((vs.filter (·.faulted)).getLast?.map (·.lastClass)).getD 0) }
  else if vs.any (fun v => !v.ready) ∨ all.contains .power then { s.holdFor n 4 all with halt := true }
  else s.againFor n (rep + 1) 4 all

/-- What votes come to, for a slot whose members agree on the frame: a save, restore or rotation step in progress holds; then the fencing of
a core, a pre-emption, a fault and an abandoned frame; without a cause the slice advances, unless a step is due (R27 to R30, R40 to R48). -/
def State.judge (s : State) (n : Nat) (vs : List Vote) : Decision :=
  let all := Cause.order.filter fun c => vs.any fun v => v.causes.contains c
  let asked := (vs.map (·.asked)).flatten
  if vs.any (·.moving) ∨ all.contains .rotation then s.holdFor n (recordedCause all) all
  else match vs.find? (·.fence) with
    | some v => { s.holdFor n 5 (.rotation :: all) with begins := some v.member, halt := vs.any (·.faulted) }
    | none =>
      if !asked.isEmpty then { s.holdFor n 6 all with verdict := .preempt, told := pickCause asked }
      else if vs.any (·.faulted) then s.judgeFault n vs all
      else if all.contains .fault ∨ all.contains .decision then s.holdFor n (recordedCause all) all
      else if vs.any (·.rerun) then
        if all.contains .power then s.holdFor n 3 all else s.againFor n (s.fld F.SEQ_STATUS_REPLAY n) 0 all
      else if !all.isEmpty then s.holdFor n (recordedCause all) all
      else match vs.find? (·.step) with
        | some v => { s.holdFor n 5 [.rotation] with begins := some v.member }
        | none => { s.holdFor n 0 [] with verdict := .advance }

/-- The later of two frame numbers, by their signed difference (R291). -/
def laterFrame (a b : Nat) : Nat := if (b + 2 ^ 32 - a) % 2 ^ 32 < 2 ^ 31 then b else a

/-- The decision that votes come to: members a frame apart are realigned, which counts as a replay (R36) and needs the cover of one (R368);
members whose replay counts differ wait with cause FAULT for the late replay (log entry 109); a change of placement on any of them is announced
with the decision (R271). -/
def State.judgeVotes (s : State) (n : Nat) (vs : List Vote) : Decision :=
  let ms := vs.filter fun v => !v.holder
  let top := ms.foldl (fun m v => laterFrame m v.frame) (s.rd .SEQ_FRAME n)
  let rep := (ms.filter fun v => v.frame == top).foldl (fun m v => max m v.replay) 0
  let d :=
    if ms.any fun v => v.frame != top then
      let cs := Cause.order.filter fun c => c == .decision || ms.any fun v => v.causes.contains c
      if rep ≥ 3 then { s.holdFor n (recordedCause cs) cs with ends := some 0 }
      else if cs.contains .power ∨ ms.any (·.moving) then s.holdFor n (recordedCause cs) cs
      else { s.againFor n (rep + 1) (recordedCause cs) cs with verdict := .realign, frame := top }
    else if ms.any fun v => v.replay != rep then
      let cs := Cause.order.filter fun c => c == .fault || ms.any fun v => v.causes.contains c
      s.holdFor n (recordedCause cs) cs
    else s.judge n ms
  { d with change := vs.any (·.change) }

/-- The decision of a slice held on this module alone, for its causes. -/
def State.judgeAlone (s : State) (n : Nat) (cs : List Cause) : Decision := s.judgeVotes n [s.ownVote n cs]

/-- Modules that vote for a slot's slice: its members, and the holders that this module knows (R270). -/
def State.voters (s : State) (n : Nat) : List Nat :=
  match s.entryOf (s.fld F.SEQ_SLOT_CFG_SLICE_ID n) with
  | some e => ((List.range (s.memberCount e)).filterMap (s.memberOf e)) ++ s.holdersOf n
  | none => [s.selfId]

/-- The home module decides once every vote is in, and sends the decision down the tree (R33). -/
def State.tryDecide (s : State) (n : Nat) : State :=
  let vs := (s.slot n).votes
  let slice := s.fld F.SEQ_SLOT_CFG_SLICE_ID n
  if s.homeOf n ≠ s.selfId ∨ !s.timeSet ∨ !((s.voters n).all fun m => vs.any fun v => v.member == m) then s
  else
    let d := s.judgeVotes n vs
    let s := s.updSlot n fun v => { v with decision := some d, votes := [] }
    match s.entryOf slice with
    | some e => s.sendDecision e slice d
    | none => s

/-- A vote is taken, in place of an earlier one of its member. -/
def State.takeVote (s : State) (n : Nat) (x : Vote) : State :=
  (s.updSlot n fun v => { v with votes := v.votes.filter (fun y => y.member != x.member) ++ [x] }).tryDecide n

/-- VOTE: a VOTE packet carrying a member's frame number, replay count and hold causes arrives at the home module, R33, or on its way there;
a module without an active entry, or with a holder's alone, drops it (R274, R275). -/
def execVote (slice : BitVec 12) (x : Vote) (s : State) : Res :=
  match s.entryOf slice.toNat with
  | none => .next (s.bump .RTE_TRANSIT_DROP)
  | some e =>
    if s.flag F.RTE_SLICE_ROLE e then .next (s.bump .RTE_TRANSIT_DROP)
    else if s.fld F.RTE_SLICE_HOME e ≠ s.selfId then .next (s.sendVote e slice.toNat x)
    else match s.slotOfSlice slice.toNat with
      | some n => if (s.voters n).contains x.member then .next (s.takeVote n x) else .next s
      | none => .next s

/-- A member takes a decision. It came late when the member has not closed since the tick, or when another comes after it (R36). -/
def Slot.takeDecision (v : Slot) (d : Decision) : Slot :=
  if v.causes.isNone then { v with late := v.late ++ [d] }
  else { v with late := v.late ++ v.decision.toList, decision := some d }

/-- DECISION: a DECISION packet carrying the verdict and SEQ_NEXT arrives at a member, which applies it at the tick, R33, and passes it on;
a late one is applied at the next tick (R36). A holder's epoch rises at the tick of an announced change (R271). A module without an active
entry drops it (R275). -/
def execDecision (slice : BitVec 12) (d : Decision) (s : State) : Res :=
  match s.entryOf slice.toNat with
  | none => .next (s.bump .RTE_TRANSIT_DROP)
  | some e =>
    if s.fld F.RTE_SLICE_HOME e = s.selfId then .next s
    else
      let s := s.sendDecision e slice.toNat d
      match s.slotOfSlice slice.toNat with
      | some n => .next (s.updSlot n fun v => v.takeDecision d)
      | none => .next (if d.change then { s with epochDue := s.epochDue ++ [e] } else s)

/-! ## The close -/

/-- Slots that serve a slice. -/
def State.liveSlots (s : State) : List Nat := (List.range 56).filter fun n => s.flag F.SEQ_SLOT_CFG_ACTIVE n

/-- Slots of which the coming close is still to come. -/
def State.openSlots (s : State) : List Nat := s.liveSlots.filter fun n => (s.slot n).causes.isNone

/-- Holder entries that have not voted since the tick. -/
def State.openHolders (s : State) : List Nat :=
  (List.range 64).filter fun e => s.flag F.RTE_SLICE_ACTIVE e && s.flag F.RTE_SLICE_ROLE e && !s.votedHolders.contains e

/-- The guard time of the next close in ns: the largest of the slices that have not closed (R34), or that of a module without one. -/
def State.closeGuard (s : State) : Nat :=
  (s.openSlots.map s.guardOf ++ s.openHolders.map fun e => guardNs (s.hopDelay e)).foldl max (guardNs 0)

/-- The slots whose close lies a guard time before the tick. -/
def State.closingSlots (s : State) (g : Nat) : List Nat := s.openSlots.filter fun n => s.guardOf n == g

/-- A slot at its close: its causes, and its decision or its vote. A module whose time state is FREE or ACQUIRING sends no vote
(R296). -/
def State.closeSlot (s : State) (n : Nat) : State :=
  let cs := s.causesAt n
  let slice := s.fld F.SEQ_SLOT_CFG_SLICE_ID n
  let s := s.setFld F.SEQ_STATUS_RUNNING n (bit (s.anyRunning n))
  let s := s.updSlot n fun v => { v with
    causes := some cs, votes := [], seen := if s.flag F.SEQ_STATUS_FAULTED n then v.faults.length else 0
    clean := v.started && !cs.contains .overrun && !s.flag F.SEQ_STATUS_FAULTED n }
  if (s.slot n).phase = .stopped then s
  else if !s.votes n then s.updSlot n fun v => { v with decision := some (s.judgeAlone n cs) }
  else if !s.timeSet then s
  else if s.homeOf n = s.selfId then s.takeVote n (s.ownVote n cs)
  else match s.entryOf slice with
    | some e => s.sendVote e slice (s.ownVote n cs)
    | none => s

/-- The votes of holder entries whose close lies a guard time before the tick (R270). -/
def State.closeHolders (s : State) (g : Nat) : State :=
  (s.openHolders.filter fun e => guardNs (s.hopDelay e) == g).foldl (fun (s : State) e =>
    let s := { s with votedHolders := s.votedHolders ++ [e] }
    if s.timeSet then s.sendVote e (s.fld F.RTE_SLICE_SLICE_ID e) s.holderVote else s) s

/-- A close follows the completions of a mover (R163). -/
def Mover.closeDone (v : Mover) : Mover := { v with finished := v.finished.map fun x => { x with closed := true } }

/-- The completions of a slot's movers are followed by its close. -/
def State.closeMovers (s : State) (n : Nat) : State := s.eachMover n fun s f m =>
  if (s.mover f m).finished.isEmpty then s else s.updMover f m Mover.closeDone

/-- The completions of movers of fields that no slot serves are followed by the module's close. -/
def State.closeFree (s : State) : State :=
  (s.movers.filter fun e => !e.2.finished.isEmpty && (s.slotOfField (e.1 / 16)).isNone).foldl (fun s e =>
    s.updMover (e.1 / 16) (e.1 % 16) Mover.closeDone) s

/-- A slot's links that close for a path command, or that faulted in a retrain, fault its running frame at the close, once each until the
fault is resolved (R217, R231). -/
def State.closeFaults (s : State) (n : Nat) : State :=
  let v := s.slot n
  let due := (List.range 24).filter fun l => v.linkDue.contains l || ((s.link l).pathClosing && (s.usersOf l).contains n)
  let s := s.updSlot n fun v => { v with linkDue := [] }
  if !v.started ∨ v.moving ∨ v.phase = .stopped then s
  else due.foldl (fun s l =>
    if (s.slot n).faults.any fun x => x.link == some l && !x.resolved then s
    else s.faultSlot n (linkField l) 0 0 clsUnreachable codeClosing 0 1 (some l)) s

/-- A cut below the idle cost asks for the pre-emption of slots that close (R371, R372). -/
def State.cutPower (s : State) (ns : List Nat) : State :=
  ns.foldl (fun s n =>
    let s := s.updSlot n fun v => { v with requests := v.requests.filter fun r => r.code != 0x62 }
    if s.powerCut n then s.requestPre n ⟨0x62, 0⟩ else s) s

/-- What the close of slots does: completions made before it will be visible at the tick, links that close fault frames, causes of faults are
looked at again (R40), SEQ_NEXT is read, grants are computed, and every slice is judged. -/
def State.closeAll (s : State) (g : Nat) : State :=
  let ns := s.closingSlots g
  let s := ns.foldl State.closeMovers s
  let s := if g = guardNs 0 then s.closeFree else s
  let s := ns.foldl State.closeFaults s
  let s := ns.foldl (fun s n => if s.fld F.SEQ_STATUS_HOLD n = 4 then s.resolveSlot n else s) s
  let s := ns.foldl (fun s n => s.updSlot n fun v => { v with
    named := if s.nextValid n then some (s.fld F.SEQ_NEXT_INDEX n) else none }) s
  let s := (s.powerClose ns).cutPower ns
  (ns.foldl State.closeSlot s).closeHolders g

/-- CLOSE: at the close each field samples its cores, exchanges and fault marks, and the control complex evaluates each slice,
R22. Slices on several modules close before those on one, each by its own guard time (R34). -/
def execClose (s : State) : Res :=
  if !s.domains.control then .next s
  else .next ({ s with now := (s.time.next + 2 ^ 64 - s.closeGuard * ns) % 2 ^ 64 }.closeAll s.closeGuard)

/-! ## The limit of 64 holds, R39 -/

/-- Causes that count towards the limit. -/
def countingCauses : List Cause := [.power, .overrun, .exchange]

/-- The consecutive holds of a counting cause. -/
def State.holdCount (s : State) (n : Nat) (c : Cause) : Nat :=
  match c with
  | .overrun => s.fld F.JOB_SLOT_B_OVERRUN n
  | .exchange => s.fld F.JOB_SLOT_B_EXCHANGE n
  | .power => s.fld F.JOB_SLOT_B_POWER n
  | _ => 0

/-- Does a slice hold at a tick with a decision (R28)? A replay is started at a hold; a rerun, which records no cause, is none. -/
def Decision.holds (d : Decision) : Bool := d.verdict != .advance && (d.verdict != .replay || d.cause != 0)

/-- HOLD_LIMIT_REACHED: a counting hold cause present at 64 preceding ticks makes the decision at the next tick a pre-emption,
R39; the home module decides it for every member. -/
def execHoldLimitReached (n : Fin 56) (s : State) : Res :=
  match (s.slot n).decision with
  | some d =>
    match countingCauses.find? fun c => d.causes.contains c && decide (s.holdCount n c ≥ 64) with
    | some c =>
      if d.holds ∧ !d.causes.contains .preempt ∧ !d.causes.contains .rotation ∧ s.decides n then
        let told := if d.verdict = .preempt then pickCause [d.told, ⟨0x61, c.code⟩] else ⟨0x61, c.code⟩
        let d := { d with verdict := .preempt, cause := 6, told := told, begins := none, ends := none }
        let s := s.updSlot n fun v => { v with decision := some d }
        let slice := s.fld F.SEQ_SLOT_CFG_SLICE_ID n
        .next (if s.votes n then match s.entryOf slice with
          | some e => s.sendDecision e slice d
          | none => s
        else s)
      else .next s
    | none => .next s
  | none => .next s

/-! ## Starting a frame -/

/-- A core starts a program: registers of the sequencer, signatures and poison marks begin afresh, and copies of an earlier attempt
of the frame are dropped (R41, R65, R114). The shadow of P0 to P15 is taken at the first start under a frame number, and put back
at any other. -/
def Core.startFrame (k : Core) (prog frame : Nat) (first : Bool) : Core :=
  { k with pc := k.start prog + 9, loops := [], running := true, accPoison := 0, sigMain := 0, sigCheck := 0, outstanding := 0
           ptrs := if first then k.ptrs else k.shadow
           shadow := if first then k.ptrs else k.shadow
           recv := k.recv.filter fun e => match e.2 with
             | some r => r.frame != frame
             | none => false }

/-- The sequencer of a core starts a program: it reads the entry of the program table and the nine steps of the header (R49, R50). A
core whose entry cannot be read does not start. -/
def State.startCore (s : State) (f c prog frame : Nat) (first : Bool) : State :=
  let s := s.updCore f c fun k => k.startFrame prog frame first
  let k := s.core f c
  let s := s.readStep f c (prog / 4)
  if k.upsetAt (prog / 4) ≤ 1 then (rangeFrom (k.start prog) 9).foldl (fun s i => s.readStep f c i) s
  else s.updCore f c fun k => { k with running := false }

/-- A slot's slice starts a program under a frame number and a replay count; its detection goal is fixed (R343). -/
def State.startFrame (s : State) (n frame replay prog : Nat) (first : Bool) : State :=
  let s := s.wr .SEQ_FRAME n frame
  let s := (((s.setFld F.SEQ_STATUS_REPLAY n replay).setFld F.SEQ_STATUS_INDEX n prog).setFld F.SEQ_STATUS_RUNNING n 1).setFld
    F.SEQ_STATUS_FAULTED n 0
  let s := s.setFld F.SEQ_STATUS_PROGRAM n 0
  let s := if first then (s.resetReg .SEQ_FAULT n).resetReg .SEQ_FAULT_ADDR n else s
  let s := (s.orphan (s.fieldsOf n)).updSlot n fun v => { v with faults := [], seen := 0 }
  let s := (s.coresOf n).foldl (fun s c => s.startCore c.1 c.2 prog frame first) s
  s.updSlot n fun v => { v with
    started := true, realigned := false, clean := false, prot := true, rerun := false
    goalBudget := s.flag F.INT_STATUS_GOAL, sampleS := s.fld F.INT_STATUS_S, kLog2 := s.fld F.INT_STATUS_K_LOG2 }

/-! ## Holding -/

/-- A count of consecutive holds. -/
def nextHolds (present : Bool) (c : Nat) : Nat := if present then min 64 (c + 1) else 0

/-- The counts of a hold. -/
def State.countHold (s : State) (n : Nat) (cs : List Cause) : State :=
  ((s.setFld F.JOB_SLOT_B_OVERRUN n (nextHolds (cs.contains .overrun) (s.fld F.JOB_SLOT_B_OVERRUN n))).setFld
    F.JOB_SLOT_B_EXCHANGE n (nextHolds (cs.contains .exchange) (s.fld F.JOB_SLOT_B_EXCHANGE n))).setFld
    F.JOB_SLOT_B_POWER n (nextHolds (cs.contains .power) (s.fld F.JOB_SLOT_B_POWER n))

/-- A slot holds at a tick with a recorded cause: the cause and the counts, one record for the run (R31), since when FAULT has held, and the
release of input regions for IDLE (R62). -/
def State.holdSlot (s : State) (n c : Nat) (cs : List Cause) : State :=
  let slice := s.fld F.SEQ_SLOT_CFG_SLICE_ID n
  let s := (s.setFld F.SEQ_STATUS_HOLD n c).countHold n cs
  let s := s.log 0x02 0x1001 n (s.rd .SEQ_FRAME n + c * 2 ^ 32 + slice * 2 ^ 36)
  let s := s.updSlot n fun v => { v with
    faultSince := if c = 4 then some (v.faultSince.getD s.up) else none
    prot := v.prot && !(c == 8 && v.clean) }
  match s.jobOfSlot n with
  | some j => s.runHold j.ident
  | none => s

/-- A slot does not hold at a tick. -/
def State.endHolds (s : State) (n : Nat) : State :=
  let s := ((s.setFld F.SEQ_STATUS_HOLD n 0).countHold n []).closeRec 0x02 0x1001 n
  s.updSlot n fun v => { v with faultSince := none }

/-! ## Advancing, replaying, rotating, pre-empting -/

/-- The postings of a slot's frame are released at the tick at which the slice advances past it (R148). -/
def State.releaseFrame (s : State) (n : Nat) : State :=
  let old := s.rd .SEQ_FRAME n
  s.eachMover n fun s f m => s.updMover f m fun v => v.release old

/-- The job of a slot hears of an advance, which releases the completions of the frame passed (R32); `past` says that there was one. -/
def State.jobAdvance (s : State) (n : Nat) (past : Bool) : State :=
  match s.jobOfSlot n with
  | some j => s.runAdvance j past
  | none => s

/-- ADVANCE: the frame number rises by one, the postings of the frame passed are released, and the program named starts (R27, R148);
the first frame keeps number 0. -/
def State.advanceSlot (s : State) (n prog : Nat) : State :=
  let past := (s.slot n).started
  let old := s.rd .SEQ_FRAME n
  let s := s.endHolds n
  let s := if past then s.releaseFrame n else s
  (s.startFrame n (if past then (old + 1) % 2 ^ 32 else old) 0 prog true).jobAdvance n past

/-- Every member starts the later frame with its replay count increased by one: a member that is a frame behind leaves its own frame
(R36, R148). -/
def State.realignSlot (s : State) (n : Nat) (d : Decision) : State :=
  let late := d.frame != s.rd .SEQ_FRAME n
  let past := (s.slot n).started
  let s := if late && past then s.releaseFrame n else s
  let s := (s.startFrame n d.frame d.replay d.next late).updSlot n fun v => { v with realigned := true }
  if late then s.jobAdvance n past else s

/-- Holds of a rotation step at the clock step in force, R44. -/
def State.rotationHolds (s : State) : Nat :=
  let mhz := match s.fld F.PWR_STATUS_STEP with
    | 0 => 1200
    | 1 => 1050
    | 2 => 900
    | _ => 750
  ceilDiv (55296 * 1000 + 1500 * mhz) (mhz * s.period)

/-- ROTATION_STEP: the fencing, step or shift that is due on a slot begins, one at a time (R44, R178). -/
def State.beginStep (s : State) (n : Nat) : State :=
  match (s.fenceDue n).orElse fun _ => s.stepDue n with
  | some o => (s.beginOp o).updSlot n fun v => { v with rotLeft := s.rotationHolds }
  | none => s

/-- The step of a member begins at the tick: its running movers and those of every other member park with code 0x22 (R159). -/
def State.beginSteps (s : State) (n member : Nat) : State :=
  let s := if member = s.selfId then s.beginStep n else s
  s.eachMover n fun s f m => s.parkMover f m 0x22

/-- The end of a slot's steps and shifts: the maps come into force, and the epoch increments for a change of placement, on several modules
once the home module has announced it (R271). -/
def State.endSteps (s : State) (n : Nat) (announced : Bool) : State :=
  let ops := (s.opsOf n).filter (·.begun)
  let change := ops.any fun o => o.kind.placement
  if ops.isEmpty then s
  else if s.opsOver n then
    if change && s.votes n && !announced then s
    else
      let s := ops.foldl State.applyOp s
      let s := s.updSlot n fun v => { v with rotLeft := 0 }
      if change && !s.votes n then s.epochUpSlice (s.fld F.SEQ_SLOT_CFG_SLICE_ID n) else s
  else s.updSlot n fun v => { v with rotLeft := max 1 (v.rotLeft - 1) }

/-- PREEMPTION: a running program stops and its frame is abandoned, running movers park with code 0x20, the saves begin, the bucket is
gone, and the job is told (R45, R160, R334, R369). -/
def State.preemptSlot (s : State) (n : Nat) (told : PreCause) : State :=
  let ran := s.anyRunning n
  let s := s.haltCores n
  let s := s.eachMover n fun s f m => s.parkMover f m 0x20
  let s := s.setFld F.PWR_SLOT_STATE_BUCKET n 0
  let s := s.updSlot n fun v => { v with phase := .saving, requests := [], decision := none, late := [], decisionSince := none, lostReported := none, rerun := v.rerun || ran }
  match s.jobOfSlot n with
  | none => s
  | some j =>
    let s := s.updJob j.ident fun j => { j with state := .preempted, cause := told, resumeOk := false, preempts := min 65535 (j.preempts + 1) }
    s.event j stPreempted told.code (some (s.rd .SEQ_FRAME n)) told.detail

/-- The restore of a slot ends at the tick: the epoch increments for a replacement, movers parked with code 0x20 resume, and the job is
told (R161, R335). On several modules the home module announces the change of placement (R271). -/
def State.resumeSlot (s : State) (n : Nat) : State :=
  let slice := s.fld F.SEQ_SLOT_CFG_SLICE_ID n
  let moved := (s.slot n).replaced
  let s := s.updSlot n fun v => { v with phase := .placed, replaced := false }
  let s := if moved && !s.votes n then s.epochUpSlice slice else s
  let s := s.eachMover n fun s f m => match (s.mover f m).queue with
    | d :: _ => if d.state = descParked ∧ d.code = 0x20 then s.updMover f m Mover.resume else s
    | [] => s
  match s.jobOfSlot n with
  | none => s
  | some j =>
    let s := s.updJob j.ident fun j => { j with state := if j.run.isSome then .running else .idle, cause := ⟨0, 0⟩ }
    let s := s.event j stResumed 0 none (s.epochOf slice + bit moved * 2 ^ 16)
    s.nextRun j.ident

/-! ## A slot at a tick -/

/-- A program fault that the close found, or a decision that no replay is left, stops the job (R36, R42, R66). -/
def State.faultEnds (s : State) (n : Nat) (ends : Option Nat) : State :=
  match ((s.slot n).faults.take (s.slot n).seen).find? fun x => decide (x.cls ≥ 8) with
  | some x => s.frameStop n 0x42 (x.field + x.core * 2 ^ 6 + x.step * 2 ^ 15 + x.cls * 2 ^ 29 + s.selfId * 2 ^ 33)
  | none => match ends with
    | some c => if s.decides n then s.frameStop n 0x40 c else s
    | none => s

/-- What a decision does at the tick to the cores, movers and steps of a slot, beside the hold that it may be; the answer's number is the
demand that a frame started spends (R368, R373). -/
def State.actDecision (s : State) (n : Nat) (d : Decision) : State × Nat :=
  let demand := s.fld F.PWR_SLOT_STATE_DEMAND n
  match d.verdict with
  | .advance => (s.advanceSlot n d.next, s.demandOf n d.next (s.fld F.PWR_STATUS_STEP))
  | .replay => ((if d.cause = 0 then s.endHolds n else s).startFrame n d.frame d.replay d.next false, demand)
  | .realign => (s.realignSlot n d, demand)
  | .preempt => (s.preemptSlot n d.told, 0)
  | .hold =>
    let s := if d.halt then s.haltCores n else s
    let s := match d.begins with
      | some m => s.beginSteps n m
      | none => s
    (s, 0)

/-- A decision takes effect at the tick. -/
def State.applyDecision (s : State) (n : Nat) (d : Decision) : State × Nat :=
  let (s, spent) := s.actDecision n d
  let s := if d.holds then s.holdSlot n (if d.verdict = .preempt then 6 else d.cause) d.causes else s
  (if d.verdict = .hold then s.faultEnds n d.ends else s, spent)

/-- The pre-emptions asked for that begin at the tick although the close came before them: on this module alone for a slice that agrees by
votes only when its time is lost (R296). DESIGN CHOICE (log entry 94): a request between the close and the tick overrides the close's
decision at that tick; the manual does not say whether requests wait for a close. -/
def State.latePreempt (s : State) (n : Nat) (d : Decision) : Option PreCause :=
  let rs := if s.votes n then (s.slot n).requests.filter fun r => r.code == 0x66 else (s.slot n).requests
  let told := if d.verdict = .preempt then [d.told] else []
  if rs.isEmpty ∨ (s.slot n).phase ≠ .placed ∨ s.rotating n then none else some (pickCause (told ++ rs))

/-- A saved slice gives up its fields and its slot at the tick (R47). -/
def State.tickSaved (s : State) (n : Nat) : State :=
  let s := match s.jobOfSlot n with
    | some j => (s.runHold j.ident).updJob j.ident fun j => { j with placed := false }
    | none => s
  ((s.closeRec 0x02 0x1001 n).keepMovers n).returnFields n

/-- What a slice does at a tick that brought it no decision: it holds with cause DECISION beside its own causes when it agrees by votes (R36),
and with cause IDLE before its first close; a program of a frame that the close found faulted is stopped (R40). -/
def State.undecided (s : State) (n : Nat) : Decision :=
  let cs := (s.slot n).causes.getD [] ++ [if s.votes n then Cause.decision else .idle]
  { s.holdFor n (recordedCause cs) cs with halt := decide ((s.slot n).seen > 0) }

/-- Since when a slice on several modules has held without a decision (R37). -/
def State.markSilence (s : State) (n : Nat) (silent : Bool) : State :=
  s.updSlot n fun v => { v with
    decisionSince := if silent then some (v.decisionSince.getD s.up) else none
    lostReported := if silent then v.lostReported else none }

/-- Late decisions act at the tick before the decision of the close (R36); the number is what they spend. -/
def State.actLate (s : State) (n : Nat) (ds : List Decision) : State × Nat :=
  ds.foldl (fun (r : State × Nat) d =>
    let (s, spent) := r.1.actDecision n d
    (if d.verdict = .hold then s.faultEnds n d.ends else s, r.2 + spent)) (s, 0)

/-- What becomes of a decision at the tick at which a slice is stopped: it holds, and no frame starts (R330). -/
def Decision.stopped (d : Decision) : Decision :=
  let cs := d.causes ++ [.idle]
  { d with verdict := .hold, cause := recordedCause cs, causes := cs, begins := none, halt := true }

/-- A slice whose frames run takes its decision at the tick, or holds: those that came late act first, and the latest acts as the decision
where there is no other (R36). While this module's time is not set, a slice on several modules holds, and its decisions wait (R296). -/
def State.tickRunning (s : State) (n : Nat) : State :=
  let waits := s.votes n && !s.timeSet
  let kept := (s.slot n).late ++ (s.slot n).decision.toList
  let all := if waits then [] else kept
  let silent := s.votes n && all.isEmpty
  let d := all.getLast?.getD (s.undecided n)
  let s := if (s.slot n).phase = .restored ∧ !silent ∧ !(s.votes n && d.causes.contains .preempt) then s.resumeSlot n else s
  let d := if s.stopComes n then d.stopped else match s.latePreempt n d with
    | some c => { s.holdFor n 6 d.causes with verdict := .preempt, told := c }
    | none => d
  let s := (s.updSlot n fun v => { v with decision := none, late := if waits then kept else [] }).markSilence n silent
  let (s, before) := s.actLate n all.dropLast
  if (s.slot n).phase = .placed ∨ (s.slot n).phase = .restored then
    let (s, spent) := s.applyDecision n d
    if s.hasBucket n then s.tokenSpend n (before + spent) else s
  else s.holdSlot n 6 d.causes

/-- What the entry module of a slice has asked for at this tick: the slice is stopped (R330), or released (R331) once its movers have
drained (R162). -/
def State.tickTold (s : State) (n : Nat) : State :=
  match (s.slot n).stopDue with
  | none => s
  | some false => (s.stopSlot n).updSlot n fun v => { v with stopDue := none }
  | some true =>
    let slice := s.fld F.SEQ_SLOT_CFG_SLICE_ID n
    let s := s.stopSlot n
    if !s.moversDrained n then s
    else
      let s := s.leaveSlot n
      let s := match s.entryOf slice with
        | some e => s.leaveEntry e slice (s.framesOf slice)
        | none => s
      s.closeRec 0x02 0x1001 n

/-- A stopped slice holds: its SEQ_NEXT names no program, and a rotation step may still run (R330, R44). -/
def State.holdStopped (s : State) (n : Nat) : State :=
  let cs := (if s.rotating n then [Cause.rotation] else []) ++ [.idle]
  s.holdSlot n (recordedCause cs) cs

/-- A slot at a tick: steps and shifts end, an announced change of placement raises the epoch, and the slice does as its phase has it. -/
def State.tickSlot (s : State) (n : Nat) : State :=
  let announced := s.votes n && s.timeSet && ((s.slot n).late ++ (s.slot n).decision.toList).any (·.change)
  let s := s.endSteps n announced
  let s := if announced then s.epochUpSlice (s.fld F.SEQ_SLOT_CFG_SLICE_ID n) else s
  let s := match (s.slot n).phase with
    | .saved => s.tickSaved n
    | .stopped => s.holdStopped n
    | .saving => s.holdSlot n 6 ((s.slot n).causes.getD [])
    | .restoring => (s.holdSlot n 6 ((s.slot n).causes.getD [])).tokenSpend n 0
    | .placed => s.tickRunning n
    | .restored => s.tickRunning n
  (s.updSlot n fun v => { v with causes := none, grant := 0 }).tickTold n

/-! ## Limits of time, R37, R43 and R296 -/

/-- FAULT_UNRESOLVED: a fault not resolved within 1.000 s after the first hold stops the job with a fault completion, R43. -/
def execFaultUnresolved (n : Fin 56) (s : State) : Res :=
  match (s.slot n).faultSince with
  | some t =>
    if s.since t ≥ 1000000000 ∧ !s.faultsReady n then .next (s.frameStop n 0x41 (s.fld F.SEQ_FAULT_CLASS n)) else .next s
  | none => .next s

/-- TIME_LOST: a multi-module slice held with cause DECISION for 1.000 s while the time state is FREE or ACQUIRING is pre-empted,
R296. -/
def execTimeLost (n : Fin 56) (s : State) : Res :=
  match (s.slot n).decisionSince with
  | some t => if s.since t ≥ 1000000000 ∧ !s.timeSet then .next (s.requestPre n ⟨0x66, 0⟩) else .next s
  | none => .next s

/-- The entry module of a slice hears that its home module is lost: the job stops with cause MODULE_LOST and is released (R37). -/
def State.homeReported (s : State) (slice home : Nat) : State :=
  match s.jobs.find? fun j => j.slice == slice with
  | some j =>
    if home = s.selfId then s
    else (s.askStop j.ident ⟨stFault, 0x48, home, some (s.jobFrame j), none⟩).updJob j.ident fun j => { j with releasing := .asked }
  | none => s

/-- HOME_MODULE_LOST: a member that has held a slice with cause DECISION for 1.000 s treats the home module as lost and reports it,
R37; a member whose own time state is FREE or ACQUIRING does not. -/
def execHomeModuleLost (n : Fin 56) (s : State) : Res :=
  let v := s.slot n
  let slice := s.fld F.SEQ_SLOT_CFG_SLICE_ID n
  let home := s.homeOf n
  match v.decisionSince, v.lostReported with
  | some t, none =>
    if s.since t ≥ 1000000000 ∧ s.timeSet ∧ home ≠ s.selfId then
      let s := s.updSlot n fun v => { v with lostReported := some s.up }
      if s.entryModule n = s.selfId then .next (s.homeReported slice home)
      else .next (s.tell (s.entryModule n) (.homeLost (BitVec.ofNat 12 slice) (BitVec.ofNat 14 home)))
    else .next s
  | _, _ => .next s

/-- A member stops a slice on its own fields, frees all that it holds of it once its movers have drained, and records the release (R37). -/
def State.dropMember (s : State) (n : Nat) : State :=
  let r := Config.releaseRecord (s.fld F.SEQ_SLOT_CFG_SLICE_ID n)
  ((s.stopSlot n).updSlot n fun v => { v with stopDue := some true }).log 0x0C r.1 0 r.2

/-- ENTRY_MODULE_NO_ANSWER: the entry module is the lost home module, or has not answered a member's report within a further 1.000 s, so each
member stops the slice on its own fields and frees what it holds, R37. -/
def execEntryModuleNoAnswer (n : Fin 56) (s : State) : Res :=
  match (s.slot n).lostReported with
  | some t =>
    if (s.since t ≥ 1000000000 ∨ s.entryModule n = s.homeOf n) ∧ (s.jobOfSlot n).isNone then .next (s.dropMember n) else .next s
  | none => .next s

end Sys2Proof.Machine
end

