-- ==== Sys2Proof/Machine/Integrity.lean ====
section
/-!
DEFINITION. Sys2Proof/Machine/Integrity.lean: the detection goal and the error budget (R343 to R351) and the in-field test of
positions (R352 to R360). Rates are whole numbers of 10⁻¹² per hour, rounded down.
-/
namespace Sys2Proof.Machine

/-- A minute of machine time. -/
def minute : Nat := 60 * second

/-- Powered time since a position's last pass, R348: it stands still while the wafer is off. -/
def State.age (s : State) (x : Position) : Nat := ((s.domains.offAt.getD s.up : Nat) - x.agedFrom).toNat

/-- Has a position reached DUE_MIN (R348, R356)? -/
def State.overdue (s : State) (x : Position) : Bool := decide (s.age x ≥ s.fld F.INT_TEST_DUE_MIN * minute)

/-- The rate of a position, R348. -/
def State.rateOf (s : State) (x : Position) : Nat :=
  if s.overdue x || x.markedAt.isSome then s.fld F.INT_RATE_PESS else s.fld F.INT_RATE_BASE

/-! ## The error budget, R349 to R351 -/

/-- λ_model: the sum of the rates of every core in service on every field in service. -/
def State.lambdaModel (s : State) : Nat :=
  (((List.range 56).filter s.inService).map fun f => ((List.range 30).map fun c =>
    ((s.physOf f c).map fun p => s.rateOf (s.position f c p)).sum).sum).sum

/-- Signature differences counted by all fields. -/
def State.vecMisses (s : State) : Nat := ((List.range 56).map fun f => s.fld F.TEN_FLD_VEC_MISS_COUNT f).sum

/-- λ_obs: the differences of the last 60 minutes over the mean sampling fraction of those minutes. `history` holds S and the differences
counted at every second, the latest first; the count at its start is that of 60 minutes ago, or 0 before that. -/
def lambdaObs (misses : Nat) (history : List (Nat × Nat)) : Nat :=
  let window := history.take 3600
  let ss := (window.map (·.1)).sum
  let before := match history[3600]? with
    | some e => e.2
    | none => 0
  if ss = 0 then 0 else (misses - before) * 1000000000000 * 65536 * window.length / ss

/-- S for a rate λ and a limit E, with CAPPED, R350. -/
def samplingOf (lam limit smin smax : Nat) : Nat × Bool :=
  if lam ≤ limit then (smin, false)
  else
    let v := max smin (ceilDiv (65536 * (lam - limit)) lam)
    (min v smax, decide (v > smax))

/-- The goal that the coming tick brings into force is the budget (R343, Table 14.6). -/
def State.budgetGoal (s : State) : Bool := s.flag F.INT_MODE_GOAL

/-- EXCEEDED after a computation whose u is above E (or not), R351. -/
def State.judgeBudget (s : State) (above : Bool) : State :=
  let i := s.integ
  let s : State := { s with integ := { i with past := if above then min 60 (i.past + 1) else 0
                                              under := if above then 0 else min 60 (i.under + 1) } }
  if s.integ.past = 60 ∧ !s.flag F.INT_STATUS_EXCEEDED then (s.setFld F.INT_STATUS_EXCEEDED 0 1).service 1
  else if s.integ.under = 60 ∧ s.flag F.INT_STATUS_EXCEEDED then (s.setFld F.INT_STATUS_EXCEEDED 0 0).serviceOver 1
  else s

/-- The computation of λ, S and u. -/
def State.sample (s : State) : State :=
  let misses := s.vecMisses
  let history := ((s.fld F.INT_STATUS_S, misses) :: s.integ.history).take 3601
  let model := s.lambdaModel
  let obs := lambdaObs misses history
  let lam := max model obs
  let limit := s.fld F.INT_BUDGET_LIMIT
  let (sv, capped) := if s.budgetGoal then
      samplingOf lam limit (s.fld F.INT_SAMPLE_S_MIN) (s.fld F.INT_SAMPLE_S_MAX) else (65536, false)
  let s := (s.setFld F.INT_LAMBDA_RATE 0 model).setFld F.INT_LAMBDA_OBS_RATE 0 obs
  let s := s.setFld F.INT_UNDET_RATE 0 (lam * (65536 - sv) / 65536)
  let s : State := { s with integ := { s.integ with next := some (sv, capped), last := s.sec, history := history } }
  s.judgeBudget (decide (lam * (65536 - sv) > limit * 65536))

/-- SAMPLING_COMPUTE: once in every second the integrity block computes λ, S and u and updates EXCEEDED, R350. -/
def execSamplingCompute (s : State) : Res := if s.integ.last ≠ s.sec then .next s.sample else .next s

/-- The goal, K and S that a tick brings into force, R343, R346, R350. -/
def State.goalTick (s : State) : State :=
  let s := s.setFld F.INT_STATUS_GOAL 0 (s.fld F.INT_MODE_GOAL)
  let s := s.setFld F.INT_STATUS_K_LOG2 0 (if s.flag F.INT_MODE_GOAL then s.fld F.INT_MODE_SWEEP_LOG2 else 0)
  match s.integ.next with
  | some (v, capped) =>
    let s : State := { s with integ := { s.integ with next := none } }
    (s.setFld F.INT_STATUS_S 0 v).setFld F.INT_STATUS_CAPPED 0 (bit capped)
  | none => s

/-! ## In-field test, R352 to R360 -/

/-- Is a physical row of a column fenced? -/
def State.fenced (s : State) (f c p : Nat) : Bool := bitOf (s.fenceOf f c) p

/-- POSITION_DUE: a position whose age reaches DUE_MIN becomes due for in-field test, R356. -/
def execPositionDue (f : Fin 56) (c : Fin 30) (p : Fin 16) (s : State) : Res :=
  let x := s.position f c p
  if s.overdue x && x.dueAt.isNone && !s.fenced f c p then
    .next ((s.updPosition f c p fun x => { x with dueAt := some s.up }).refreshTest f)
  else .next s

/-- Does a test of a column run? -/
def State.columnTested (s : State) (f c : Nat) : Bool := (List.range 16).any fun p => (s.position f c p).testing.isSome

/-- May a test start: the library is loaded (R352), the field is in service, the position is not fenced, the column has no other test
and no step; on a spare that has become one, or is due or marked (R354, R356, R357), or on a due or marked position of a field that no slice owns (R358)? -/
def State.mayTest (s : State) (f c p : Nat) (inPlace : Bool) : Bool :=
  s.fld F.INT_LIB_STATE == 1 && s.inService f && !s.fenced f c p && !s.columnTested f c && !s.colBusy f c &&
    (if inPlace then
      (s.fieldOwner f).isNone && !s.isSpare f c p &&
        ((s.position f c p).dueAt.isSome || (s.position f c p).markedAt.isSome)
    else s.isSpare f c p && ((s.position f c p).fresh || (s.position f c p).dueAt.isSome || (s.position f c p).markedAt.isSome))

/-- A test starts; in place it clears the SRAM of its core. -/
def State.startTest (s : State) (f c p : Nat) (inPlace : Bool) : State :=
  let s := s.updPosition f c p fun x => { x with testing := some inPlace }
  let s := match inPlace, s.coreAtRow f c p with
    | true, some core => { s with mem := s.mem.clearCore f core }
    | _, _ => s
  s.refreshTest f

/-- TEST_START: an in-field test starts on a column spare, or in place on an unowned field, R354 and R358. -/
def execTestStart (f : Fin 56) (c : Fin 30) (p : Fin 16) (inPlace : Bool) (s : State) : Res :=
  if s.mayTest f c p inPlace then .next (s.startTest f c p inPlace) else .next s

/-- A test passes: the age is zero, and the position is neither due nor marked; a shift that waits for it is not needed, and the failures that
its check row reported are settled. -/
def State.testPasses (s : State) (f c p : Nat) : State :=
  let s := s.updPosition f c p fun _ => { agedFrom := s.up, dueAt := none, markedAt := none, testing := none, fresh := false }
  let s : State := { s with colOps := s.colOps.filter fun o =>
    !(o.field == f && o.col == c && o.prow == p && o.kind == .shift && !o.command && !o.begun) }
  let s := match s.coreAtRow f c p with
    | some core => s.cleanCheck f core
    | none => s
  (s.bump .INT_FLD_PASS f).refreshTest f

/-- The value of INT_FLD_LAST for a failure. -/
def lastOf (c p part : Nat) (inPlace : Bool) (now : Nat) : Nat :=
  c + p * 2 ^ 5 + part * 2 ^ 9 + 2 ^ 12 + bit inPlace * 2 ^ 13 + now / ns % 2 ^ 48 * 2 ^ 16

/-- A test fails in a part: it is counted, captured and recorded, and the repair of Table 7.2 follows (R354, R360). -/
def State.testFails (s : State) (f c p part : Nat) (inPlace : Bool) : State :=
  let s := (s.updPosition f c p fun x => { x with testing := none }).bump .INT_FLD_FAIL f
  let v := lastOf c p part inPlace s.now
  let s := if s.flag F.INT_FLD_LAST_VALID f then s else s.wr .INT_FLD_LAST f v
  let s := s.log 0x0F 0x8003 (f + c * 64) v
  let s := if !inPlace then s.addRepair f c p .fenceSpare false
    else if s.noSpare f c then s.retireField f 1 1
    else s.fenceStart f c p false
  s.refreshTest f

/-- TEST_DONE: an in-field test ends, passing and zeroing the age (`part` 0), or failing in a part of Table 14.4, R353. -/
def execTestDone (f : Fin 56) (c : Fin 30) (p : Fin 16) (part : Fin 6) (s : State) : Res :=
  match (s.position f c p).testing with
  | none => .next s
  | some inPlace => .next (if part = 0 then s.testPasses f c p else s.testFails f c p part inPlace)

/-- Is the maximum deferral of a due or of a marked position over, R359? -/
def State.deferralOver (s : State) (x : Position) : Bool :=
  (match x.dueAt with
   | some t => decide (s.up ≥ t + s.fld F.INT_TEST_DEFER_H * 60 * minute)
   | none => false) ||
  (match x.markedAt with
   | some t => decide (s.up ≥ t + s.fld F.INT_TEST_SUSPECT_MIN * minute)
   | none => false)

/-- MAXIMUM_DEFERRAL: the maximum deferral of a due or marked position expires and the owning slice is pre-empted with cause TEST,
R359. -/
def execMaximumDeferral (f : Fin 56) (c : Fin 30) (p : Fin 16) (s : State) : Res :=
  if s.deferralOver (s.position f c p) && !s.isSpare f c p && !s.fenced f c p then
    match s.slotOfField f with
    | some n => .next (s.requestPre n ⟨0x63, f + c * 2 ^ 6 + s.selfId * 2 ^ 11⟩)
    | none => .next s
  else .next s

end Sys2Proof.Machine
end

