-- ==== Sys2Proof/Machine/Cal.lean ====
section
/-!
DEFINITION. Sys2Proof/Machine/Cal.lean: calibration and trim (chapter 16), and the hourly save to both flash devices (R182, R348,
R391, R434).
-/
namespace Sys2Proof.Machine

/-! ## Trims -/

/-- First CAL_TRIM index and number of DACs of a group, Table 16.1. -/
def trimRange (g : Nat) : Nat × Nat :=
  match g with
  | 0 => (0, 1)
  | 1 => (1, 1920)
  | 2 => (1921, 960)
  | _ => (2881, 192)

/-- The bytes of a fuse slot under its CRC: the sequence number, and every trim in order (the layout is log entry 120). -/
def CalSlot.bytes (x : CalSlot) : List Byte :=
  toBytes 8 x.seq ++ ((List.range 3073).map fun i => toBytes 3 (mapGet (fun _ => 0) x.trims i)).flatten

/-- Does the CRC of a slot hold, R389? -/
def CalSlot.valid (x : CalSlot) : Bool := x.crc.toNat == crc64 x.bytes

/-- The newest valid slot of some, each with its number: the one of the highest sequence number (R384, R389). -/
def newestSlot : List (CalSlot × Nat) → Option (CalSlot × Nat)
  | [] => none
  | x :: xs => match newestSlot xs with
    | some y => if x.1.valid && decide (y.1.seq < x.1.seq) then some x else some y
    | none => if x.1.valid then some x else none

/-- The fuse slots with their numbers from 1. -/
def Cal.numbered (c : Cal) : List (CalSlot × Nat) := c.slots.mapIdx fun i x => (x, i + 1)

/-- The newest valid fuse slot; 0 when only the baseline is valid (R389). -/
def Cal.newest (c : Cal) : Nat := ((newestSlot c.numbered).map (·.2)).getD 0

/-- The slot that the last-good trims come from: none burned since the power-up counts (R384). -/
def Cal.source (c : Cal) : Option (CalSlot × Nat) := newestSlot (c.numbered.take c.old)

/-- The trim of a DAC in a slot, or its factory baseline. -/
def trimIn (x : Option (CalSlot × Nat)) (i : Nat) : Nat :=
  match x with
  | some y => mapGet (fun _ => 0) y.1.trims i
  | none => (Config.trimBaseline i).toNat

/-- The last-good trim of a DAC, R384. -/
def Cal.lastGood (c : Cal) (i : Nat) : Nat := trimIn c.source i

/-- Correction of one step of a trim DAC in units of 10⁻⁸; 0.078125 % for group 2 (R383). -/
def trimUnit (g part : Nat) : Nat := if g = 2 then 78125 else Config.trimStep g part

/-- The absolute limit of Table 16.3, in units of 10⁻⁸. -/
def absLimit (g part : Nat) : Nat :=
  match g, part with
  | 0, _ => 2000000
  | 1, 0 => 3000000
  | 1, _ => 500000
  | 2, _ => 10000000
  | _, _ => 8000000

/-- The drift limit of Table 16.3, in units of 10⁻⁸. -/
def driftLimit (g part : Nat) : Nat :=
  match g, part with
  | 0, _ => 300000
  | 1, 0 => 500000
  | 1, _ => 100000
  | 2, _ => 1000000
  | _, _ => 2000000

/-- The codes of a trim value: gain, offset for group 1; the one code of another group. -/
def trimCodes (g v : Nat) : List Int :=
  match g with
  | 0 => [signed 12 v]
  | 1 => [signed 10 (bits v 0 10), signed 10 (bits v 10 10)]
  | 2 => [signed 8 v]
  | _ => [signed 12 v]

/-- Is a new trim beyond a limit of its group: `lim` on the correction `d`? -/
def beyond (g : Nat) (lim : Nat → Nat → Nat) : Nat → List Int → Bool
  | _, [] => false
  | part, d :: ds => decide (d.natAbs * trimUnit g part > lim g part) || beyond g lim (part + 1) ds

/-- How a DAC is judged: 0 within both limits; 2 beyond the absolute limit; 3 beyond the drift limit (R383). -/
def judgeDac (g new last : Nat) : Nat :=
  let cs := trimCodes g new
  if beyond g absLimit 0 cs then 2
  else if beyond g driftLimit 0 (List.zipWith (· - ·) cs (trimCodes g last)) then 3
  else 0

/-- Width of the code of a part of a trim (Table 16.1). -/
def codeWidth (g : Nat) : Nat :=
  match g with
  | 1 => 10
  | 2 => 8
  | _ => 12

/-- A quotient rounded to the nearest whole number, ties away from zero (log entry 120). -/
def nearest (n : Int) (d : Nat) : Int :=
  if 0 ≤ n then (2 * n + d) / (2 * d) else -((2 * -n + d) / (2 * d))

/-- The code that takes a residual away, from the code under which it was read: the correction needed in steps, as in the example of R386.
`res` is in units of 10⁻⁸. A step of size zero corrects nothing. -/
def newCode (g part : Nat) (applied res : Int) : Int :=
  if trimUnit g part = 0 then applied else applied - nearest res (trimUnit g part)

/-- The value of CAL_TRIM that codes make, when each fits its width. -/
def trimValue (g : Nat) (cs : List Int) : Option Nat :=
  let w := codeWidth g
  if cs.all fun c => decide (-(2 : Int) ^ (w - 1) ≤ c) && decide (c < 2 ^ (w - 1)) then
    some ((cs.mapIdx fun i c => unsigned w c * 2 ^ (10 * i)).sum)
  else none

/-- Does a mean of MREF in µV lie within ±1.0 % of 2.5000 V, R380? -/
def mrefOk (v : Nat) : Bool := decide (2475000 ≤ v) && decide (v ≤ 2525000)

/-- The check of MREF before a run and during it. -/
def State.mrefCheck (s : State) (v : Nat) : State :=
  ((s.setFld F.CAL_MREF_VOLTS 0 v).setFld F.CAL_MREF_VALID 0 1).setFld F.CAL_STATUS_MREF_OK 0 (bit (mrefOk v))

/-! ## Runs, R381 to R388 -/

/-- Have all four groups passed since the last power-up of their domains (R390, R391)? -/
def State.allPassed (s : State) : Bool := (List.range 4).all fun g => s.fld F.CAL_GROUP_STATE g == 1

/-- A trim comes into force: CAL_TRIM shows it, and for groups 0 to 2 the deck's DAC holds it. -/
def State.putTrim (s : State) (x : Nat × Nat) : State :=
  let s := s.wr .CAL_TRIM x.1 x.2
  if x.1 ≤ 2880 then { s with cal := { s.cal with dacs := mapSet (fun _ => 0) x.1 (x.2 % 2 ^ 20) s.cal.dacs } } else s

/-- Trims come into force. -/
def State.putTrims (s : State) (l : List (Nat × Nat)) : State := l.foldl State.putTrim s

/-- The last-good trims of a group as values of CAL_TRIM. -/
def State.goodTrims (s : State) (g : Nat) : List (Nat × Nat) :=
  let src := s.cal.source
  (rangeFrom (trimRange g).1 (trimRange g).2).map fun i => (i, trimIn src i)

/-- BUSY of CAL_STATUS while a run goes on. -/
def State.showBusy (s : State) : State := s.setFld F.CAL_STATUS_BUSY 0 (bit (s.cal.run.isSome || s.cal.laser.isSome))

/-- An unpark that waited for a run goes on once the run is judged and applied (Table 16.4). -/
def State.unparkDue (s : State) : State :=
  if s.cal.unpark ∧ !s.deckCalRun ∧ s.cal.waiting.isEmpty then
    { s with cal := { s.cal with unpark := false } }.parkOff
  else s

/-- TRIM_APPLY: the trims that wait come into force at a tick, R388. -/
def State.trimApply (s : State) : State :=
  if s.cal.waiting.isEmpty then s
  else
    let s := s.putTrims s.cal.waiting
    let s : State := { s with cal := { s.cal with waiting := [] } }
    (s.setFld F.CAL_STATUS_PENDING 0 0).unparkDue

/-- A group's trims take effect at once, or wait for the next tick (R387, R388). -/
def State.applyTrims (s : State) (l : List (Nat × Nat)) : State :=
  if s.flag F.CAL_CTRL_APPLY_MODE ∧ s.ticks ≠ 0 then
    let s : State := { s with cal := { s.cal with
      waiting := (s.cal.waiting.filter fun x => !(l.any fun y => y.1 == x.1)) ++ l } }
    s.setFld F.CAL_STATUS_PENDING 0 1
  else s.putTrims l

/-- A group of a run is judged: its state, cause and count, and UNTRACED (R385, R391). -/
def State.groupResult (s : State) (g state cause failed : Nat) : State :=
  let s := s.wr .CAL_GROUP g (state + cause * 2 ^ 2 + failed * 2 ^ 5 + (s.cal.source.map (·.2)).getD 0 * 2 ^ 16)
  if state = 1 then
    if s.allPassed then
      ((s.setFld F.CAL_STATUS_UNTRACED 0 0).setFld F.CAL_UNTRACED_H_HOURS 0 0).serviceOver 3
    else s
  else
    ((s.bump .CAL_FAIL_CNT).log 0x12 0x8007 g (s.rd .CAL_GROUP g)).setFld F.CAL_STATUS_UNTRACED 0 1

/-- A run ends when its last group is judged. -/
def State.runOver (s : State) : State :=
  match s.cal.run with
  | some r =>
    if r.groups.isEmpty then
      let s : State := { s with cal := { s.cal with run := none } }
      let s := if r.command then (s.setFld F.CAL_CMD_BUSY 0 0).setFld F.CAL_CMD_RESULT 0 0 else s
      s.showBusy.opticsOn.unparkDue
    else s.unparkDue
  | none => s

/-- The gain correction of group 0 with which group 1 is read, in units of 10⁻⁸: its new trim when it passed, else its last-good one (R386). -/
def State.senseGain (s : State) : Int :=
  let v := if s.fld F.CAL_GROUP_STATE 0 = 1 then
      ((s.cal.waiting.find? fun x => x.1 == 0).map (·.2)).getD (s.fld F.CAL_TRIM_VALUE 0)
    else s.cal.lastGood 0
  signed 12 v * trimUnit 0 0

/-- The residual of a part of a DAC in units of 10⁻⁸, from its reading in units of 10⁻⁶: for group 1 as the corrected sense ADC gives it. -/
def State.residual (s : State) (g part : Nat) (r : BitVec 20) : Int :=
  let x := r.toInt * 100
  if g ≠ 1 then x
  else
    let c := s.senseGain
    x + x * c / (10 ^ 8 : Nat) + (if part = 0 then c else 0)

/-- The new trim of DAC k of a group by its readings, one for each part, with the trim in force applied (the example of R386); none without a
reading of every part, or where a code leaves its width. -/
def State.measured (s : State) (g k : Nat) (readings : List (BitVec 20)) : Option Nat :=
  let applied := trimCodes g (s.fld F.CAL_TRIM_VALUE ((trimRange g).1 + k))
  let rs := (readings.drop (k * applied.length)).take applied.length
  if (k + 1) * applied.length ≤ readings.length then
    trimValue g ((List.zip applied rs).mapIdx fun part x => newCode g part x.1 (s.residual g part x.2))
  else none

/-- How DAC k of a group is judged, with its trim after the run as a value of CAL_TRIM: 0, 2 or 3 as `judgeDac` has it, 1 for MREF (R380,
R383). -/
def State.dacJudged (s : State) (src : Option (CalSlot × Nat)) (g k : Nat) (bad : Bool) (readings : List (BitVec 20)) : Nat × Nat :=
  let last := trimIn src ((trimRange g).1 + k)
  if bad then (1, last)
  else match s.measured g k readings with
    | none => (2, last)
    | some v => match judgeDac g v last with
      | 0 => (0, v + 2 ^ 20)
      | j => (j, last)

/-- A group's measurements end: every DAC is judged by its limits; with MREF out of range the group fails (R380, R383). -/
def State.judgeDacs (s : State) (g : Nat) (bad : Bool) (readings : List (BitVec 20)) : State :=
  let (first, count) := trimRange g
  let src := s.cal.source
  let ds := (List.range count).map fun k => (first + k, s.dacJudged src g k bad readings)
  let failed := (ds.filter fun d => d.2.1 != 0).length
  let cause := if bad then 1 else if ds.any (fun d => d.2.1 == 2) then 2 else if failed = 0 then 0 else 3
  (s.applyTrims (ds.map fun d => (d.1, d.2.2))).groupResult g (if failed = 0 then 1 else if failed < count then 2 else 3) cause failed

/-- The first group of a run is judged. -/
def State.judgeGroup (s : State) (r : CalRun) (g mref : Nat) (readings : List (BitVec 20)) : State :=
  let bad := r.bad || !mrefOk mref
  let s := s.mrefCheck mref
  let s : State := { s with cal := { s.cal with run := some { r with groups := r.groups.drop 1, bad := bad } } }
  (s.judgeDacs g bad readings).runOver

/-- Group 3 of the wafer's power-up is judged: the optical engines carry light (R381). -/
def State.judgeLasers (s : State) (failed : Bool) (mref : Nat) (readings : List (BitVec 20)) : State :=
  let s := (s.mrefCheck mref).judgeDacs 3 (failed || !mrefOk mref) readings
  { s with cal := { s.cal with laser := none } }.showBusy.opticsOn

/-- May the groups of a commanded run be measured: 0 to 2 while the deck is parked or empty, 3 while no link slot is enabled (R382)? -/
def State.mayMeasure (s : State) (r : CalRun) (g : Nat) : Bool :=
  !r.command || (if g = 3 then s.enabledLinks.isEmpty else s.deckState == deckParked || s.deckState == deckEmpty)

/-- CAL_GROUP_JUDGED: a group's measurements end and each DAC is judged against its absolute and drift limits, R383. `mref` is
the mean of MREF in µV over the group, `codes` the readings of its DACs in order, as residuals in units of 10⁻⁶: a gain, for group 1 a gain and
an offset each (log entry 120). -/
def execCalGroupJudged (g : Fin 4) (mref : BitVec 24) (codes : List (BitVec 20)) (s : State) : Res :=
  match s.cal.laser, (g == 3) with
  | some failed, true => .next (s.judgeLasers failed mref.toNat codes)
  | _, _ => match s.cal.run with
    | some r => if r.groups.head? = some g.val ∧ s.mayMeasure r g then .next (s.judgeGroup r g mref.toNat codes) else .next s
    | none => .next s

/-- Every group of a run fails for MREF at its start (R380). -/
def State.failGroups (s : State) (gs : List Nat) : State :=
  let s := gs.foldl (fun s g =>
    (s.applyTrims (s.goodTrims g)).groupResult g 3 1 (trimRange g).2) s
  let s : State := { s with cal := { s.cal with run := match s.cal.run with
    | some r => some { r with groups := [] }
    | none => none } }
  s.runOver

/-- RESULT of CAL_CMD with OP 0. -/
def State.calRunCheck (s : State) (mask : Nat) : Nat :=
  if s.flag F.CAL_STATUS_BUSY then 1
  else if mask % 8 ≠ 0 ∧ s.deckState ≠ deckParked ∧ s.deckState ≠ deckEmpty then 2
  else if bitOf mask 3 ∧ s.enabledLinks ≠ [] then 2
  else 0

/-- CAL_CMD with OP 0 and START: the groups of MASK run, or the command is refused (R382). `mref` is the mean of the check before
the run (R380). -/
def State.calRun (s : State) (mask mref : Nat) : State :=
  let s := (s.setFld F.CAL_CMD_OP 0 0).setFld F.CAL_CMD_MASK 0 mask
  match s.calRunCheck mask with
  | 0 =>
    let gs := (List.range 4).filter (bitOf mask)
    let s : State := { s with cal := { s.cal with run := some { groups := gs, bad := false, command := true } } }
    let s := ((s.setFld F.CAL_STATUS_BUSY 0 1).setFld F.CAL_CMD_BUSY 0 1).setFld F.CAL_CMD_RESULT 0 0
    if mrefOk mref then (s.mrefCheck mref).runOver else (s.mrefCheck mref).failGroups gs
  | r => s.setFld F.CAL_CMD_RESULT 0 r

/-- CAL_RUN: CAL_CMD OP 0 runs the calibration groups set in MASK, R382. -/
def execCalRun (mask : BitVec 4) (mref : BitVec 24) (s : State) : Res := .next (s.calRun mask.toNat mref.toNat)

/-- Group 3 begins to run at the first power-up of the wafer after that of the control domain, after a check of MREF of its own (R380, R381). -/
def State.laserRun (s : State) : State :=
  let m := (Config.mrefMean s.free).toNat
  let s := { s with free := s.free + 1 }.mrefCheck m
  { s with cal := { s.cal with laser := some (!mrefOk m), laserDue := false } }.showBusy

/-- A wafer reset abandons a run of group 3, which runs again when the wafer returns (Table 16.4); otherwise nothing. -/
def State.calAbandon (s : State) : State :=
  if !s.lasersDark then s
  else
    let s := (s.putTrims (s.goodTrims 3)).groupResult 3 3 4 (trimRange 3).2
    let s : State := { s with cal := { s.cal with
      laser := none, laserDue := true, run := s.cal.run.map fun r => { r with groups := r.groups.filter fun g => g != 3 } } }
    s.runOver.showBusy

/-- A thermal shutdown ends what a run of group 3 left unburned: the next power-up of the wafer domain starts from the last-good trims, and
the group counts as not run (R390). -/
def State.lasersLost (s : State) : State :=
  if s.cal.laserDue then s else (s.putTrims (s.goodTrims 3)).resetReg .CAL_GROUP 3

/-- The calibration of groups 0 to 2 that a reset of the deck begins, after a check of MREF (R380, R381): the groups count as not run, and the
last-good trims are in force until they are judged. -/
def State.deckCalibrates (s : State) (mref : Nat) : State :=
  let later := match s.cal.run with
    | some r => r.groups.filter fun g => decide (g > 2)
    | none => []
  let command := match s.cal.run with
    | some r => r.command
    | none => false
  let s := [0, 1, 2].foldl (fun s g => (s.putTrims (s.goodTrims g)).resetReg .CAL_GROUP g) (s.mrefCheck mref)
  let s : State := { s with cal := { s.cal with
    run := some { groups := [0, 1, 2] ++ later, bad := !mrefOk mref, command := command }
    unpark := false, waiting := s.cal.waiting.filter fun x => decide (x.1 > 2880) } }
  (s.setFld F.CAL_STATUS_PENDING 0 (bit (!s.cal.waiting.isEmpty))).showBusy

/-- The deck domain is lost, and with it a run of its groups. -/
def State.deckCalLost (s : State) : State :=
  { s with cal := { s.cal with run := match s.cal.run with
    | some r => (match r.groups.filter fun g => decide (g > 2) with
      | [] => none
      | l => some { r with groups := l })
    | none => none } }.showBusy

/-- The control domain is lost while the deck runs on hold-up: a run of groups 0 to 2 goes on with what it has judged (Table 16.4), and the
rest of the calibration block is lost. -/
def State.calHeld (s : State) : State :=
  let s := [Reg.CAL_CTRL, .CAL_CMD, .CAL_FUSE, .CAL_UNTRACED_H, .CAL_FAIL_CNT].foldl (fun s r => s.resetReg r 0) s
  let s := (rangeFrom (trimRange 3).1 (trimRange 3).2).foldl (fun s i => s.resetReg .CAL_TRIM i) (s.resetReg .CAL_GROUP 3)
  let s : State := { s with cal := { s.cal with
    waiting := [], laser := none, run := match s.cal.run with
      | some r => (match r.groups.filter fun g => decide (g ≤ 2) with
        | [] => none
        | l => some { r with groups := l, command := false })
      | none => none } }
  (((s.setFld F.CAL_STATUS_PENDING 0 0).setFld F.CAL_STATUS_UNTRACED 0
    (bit ((List.range 3).any fun g => decide (s.fld F.CAL_GROUP_STATE g ≥ 2)))).showBusy)

/-! ## Fuse slots, R389 and R390 -/

/-- CAL_FUSE as the slots stand. -/
def State.showFuses (s : State) : State :=
  let inv := (List.range s.cal.slots.length).foldl (fun n i => match s.cal.slots[i]? with
    | some x => if x.valid then n else n + 2 ^ i
    | none => n) 0
  ((s.setFld F.CAL_FUSE_USED 0 s.cal.slots.length).setFld F.CAL_FUSE_NEWEST 0 s.cal.newest).setFld F.CAL_FUSE_INVALID 0 inv

/-- At power-up every invalid slot is recorded, R390. -/
def State.logInvalid (s : State) : State :=
  (List.range s.cal.slots.length).foldl (fun s i => match s.cal.slots[i]? with
    | some x => if x.valid then s else s.log 0x12 0x8008 0 (i + 1)
    | none => s) s

/-- RESULT of CAL_CMD with OP 1. -/
def State.burnCheck (s : State) (key : Nat) : Nat :=
  if s.flag F.CAL_STATUS_BUSY then 1
  else if key ≠ 0xA7 then 5
  else if !s.allPassed then 3
  else if s.cal.slots.length ≥ 8 then 4
  else 0

/-- CAL_CMD with OP 1 and START: the next free slot takes the trims in force; a loss of power during the burn leaves it invalid and
used (R390). -/
def State.burnSlot (s : State) (key : Nat) (intact : Bool) : State :=
  let s := s.setFld F.CAL_CMD_OP 0 1
  match s.burnCheck key with
  | 0 =>
    let trims := (List.range 3073).foldl (fun m i => mapSet (fun _ => 0) i (s.fld F.CAL_TRIM_VALUE i) m) []
    let new : CalSlot := { seq := (s.cal.slots.foldl (fun n x => max n x.seq) 0) + 1, trims := trims, crc := 0 }
    let crc := BitVec.ofNat 64 (crc64 new.bytes)
    let left := if intact then crc else if Config.burnLeft s.free = crc then crc + 1 else Config.burnLeft s.free
    let s : State := { s with free := s.free + 1, cal := { s.cal with slots := s.cal.slots ++ [{ new with crc := left }] } }
    s.showFuses.setFld F.CAL_CMD_RESULT 0 0
  | r => s.setFld F.CAL_CMD_RESULT 0 r

/-- FUSE_BURN: CAL_CMD OP 1 with KEY 0xA7 burns the next fuse slot with the trims in force, R390. `intact` says that power held
throughout the burn. -/
def execFuseBurn (key : BitVec 8) (intact : Bool) (s : State) : Res := .next (s.burnSlot key.toNat intact)

/-! ## The hourly save -/

/-- An hour of machine time. -/
def hour : Nat := 3600 * second

/-- The record of a write that failed on one device: counted and recorded, with the device and a byte offset (R414). -/
def State.flashFail (s : State) (device off : Nat) : State :=
  (s.bump .FWU_FLASH_ERR).log 0x14 0xC004 0 (device + off * 2)

/-- Byte offset of the module records in a flash device, with the regions of Table 18.2 in its order. -/
def recordsOffset : Nat := 2 * 4096 + 2 * 0x1000000 + 0x10000 + 2 * 0x400000000

/-- Write the module records of both devices, device A first; a copy whose write fails is invalid (R414). -/
def State.saveRecords (s : State) (r : ModuleRecords) (okA okB : Bool) : State :=
  let s : State := { s with flashA := { s.flashA with records := if okA then some r else none }
                            flashB := { s.flashB with records := if okB then some r else none } }
  let s := if okA then s else s.flashFail 0 recordsOffset
  if okB then s else s.flashFail 1 recordsOffset

/-- What the control complex saves: the repair map with every column's BASE and SPARE, the ages, the untraced hours and the next
sequence number; and the face maps, where the deck is supplied (log entry 123). -/
def State.recordsNow (s : State) : ModuleRecords :=
  { columns := (List.range 1680).map fun i => (i, s.rd .MSH_COL_MAP i)
    fields := (List.range 56).map fun f => (f, s.rd .MSH_FLD_STATE f)
    ages := (List.range 26880).map fun k => (k, s.age (mapGet (fun _ => Position.init) s.positions k))
    untraced := s.fld F.CAL_UNTRACED_H_HOURS
    nextSeq := some s.evr.next
    faceMaps := if s.domains.deck then (List.range 288).map fun q => (q, s.rd .DCK_FACE_MAP q)
                else (s.savedRecords.getD ModuleRecords.init).faceMaps
    links := s.fencedLinks }

/-- One more hour untraced; at 720 the service request is raised (R391). -/
def State.untracedHour (s : State) : State :=
  if !s.flag F.CAL_STATUS_UNTRACED then s
  else
    let h := min 65535 (s.fld F.CAL_UNTRACED_H_HOURS + 1)
    let s := s.setFld F.CAL_UNTRACED_H_HOURS 0 h
    if h = 720 then s.service 3 else s

/-- HOURLY_SAVE: once an hour the control complex saves position ages, rotation positions, untraced hours and the recorder's sequence
to flash, R348. `okA` and `okB` say which device took the write. DESIGN CHOICE (log entry 107): given before the hour is over it is the save
of an orderly shutdown, which counts no hour (R182, R391, R434). -/
def execHourlySave (okA okB : Bool) (s : State) : Res :=
  if s.up < s.savedAt + hour then .next (s.saveRecords s.recordsNow okA okB)
  else
    let s := s.untracedHour
    let s := s.saveRecords s.recordsNow okA okB
    .next { s with savedAt := s.up }

end Sys2Proof.Machine
end

