-- ==== Sys2Proof/Machine/Ed448.lean ====
section
/-!
DEFINITION. Sys2Proof/Machine/Ed448.lean: Ed448 of RFC 8032 (Table 0.2; R399, R415, R422), over the curve x² + y² = 1 + d x² y² modulo
2^448 − 2^224 − 1, with SHAKE256.
-/
namespace Sys2Proof.Machine

/-- The field prime. -/
def edPrime : Nat := 2 ^ 448 - 2 ^ 224 - 1

/-- The order of the base point. -/
def edOrder : Nat := 2 ^ 446 - 13818066809895115352007386748515426880336692474882178609894547503885

/-- A sum, a difference and a product in the field. -/
def edSum (a b : Nat) : Nat := (a + b) % edPrime
/-- A difference. -/
def edDiff (a b : Nat) : Nat := (a + edPrime - b % edPrime) % edPrime
/-- A product. -/
def edProd (a b : Nat) : Nat := a * b % edPrime

/-- A power in the field, by the low n bits of the exponent. -/
def edPow (a : Nat) : Nat → Nat → Nat
  | 0, _ => 1
  | n + 1, e =>
    let h := edPow a n (e / 2)
    if e % 2 = 1 then edProd (edProd h h) a else edProd h h

/-- The curve's constant d, −39081. -/
def edCurve : Nat := edPrime - 39081

/-- A point in projective coordinates: (x / z, y / z). -/
structure EdPoint where
  x : Nat
  y : Nat
  z : Nat
deriving DecidableEq, Repr

/-- The neutral point. -/
def EdPoint.zero : EdPoint := ⟨0, 1, 1⟩

/-- The base point. -/
def EdPoint.base : EdPoint :=
  ⟨224580040295924300187604334099896036246789641632564134246125461686950415467406032909029192869357953282578032075146446173674602635247710,
   298819210078481492676017930443930673437544040154080242095928241372331506189835876003536878655418784733982303233503462500531545062832660, 1⟩

/-- The sum of two points, RFC 8032 section 5.2.4; the same formulas double a point. -/
def EdPoint.add (p q : EdPoint) : EdPoint :=
  let a := edProd p.z q.z
  let b := edProd a a
  let c := edProd p.x q.x
  let d := edProd p.y q.y
  let e := edProd edCurve (edProd c d)
  let f := edDiff b e
  let g := edSum b e
  let h := edProd (edSum p.x p.y) (edSum q.x q.y)
  ⟨edProd (edProd a f) (edDiff (edDiff h c) d), edProd (edProd a g) (edDiff d c), edProd f g⟩

/-- A multiple of a point, by the low n bits of the scalar. -/
def EdPoint.times (p : EdPoint) : Nat → Nat → EdPoint
  | 0, _ => .zero
  | n + 1, k =>
    let h := p.times n (k / 2)
    if k % 2 = 1 then (h.add h).add p else h.add h

/-- Are two points one? -/
def EdPoint.same (p q : EdPoint) : Bool := edProd p.x q.z == edProd q.x p.z && edProd p.y q.z == edProd q.y p.z

/-- The 57 bytes of a point: y, and the lowest bit of x as the highest bit. -/
def EdPoint.bytes (p : EdPoint) : List Byte :=
  let i := edPow p.z 448 (edPrime - 2)
  toBytes 57 (edProd p.y i + edProd p.x i % 2 * 2 ^ 455)

/-- The point that 57 bytes spell, RFC 8032 section 5.2.3. -/
def edDecode (bs : List Byte) : Option EdPoint :=
  let v := ofBytes bs
  let y := v % 2 ^ 455
  let sgn := v / 2 ^ 455
  if bs.length ≠ 57 ∨ y ≥ edPrime then none
  else
    let u := edDiff (edProd y y) 1
    let w := edDiff (edProd edCurve (edProd y y)) 1
    let u3w := edProd (edProd u (edProd u u)) w
    let x := edProd u3w (edPow (edProd (edProd u3w (edProd u u)) (edProd w w)) 448 ((edPrime - 3) / 4))
    if edProd w (edProd x x) ≠ u ∨ (x = 0 ∧ sgn = 1) then none
    else some ⟨if x % 2 = sgn then x else edPrime - x, y, 1⟩

/-- Bytes of an ASCII text. -/
def ascii (t : String) : List Byte := t.toList.map fun c => BitVec.ofNat 8 c.toNat

/-- dom4 of RFC 8032 for a context string. -/
def edDomain (ctx : List Byte) : List Byte := ascii "SigEd448" ++ toBytes 1 0 ++ toBytes 1 ctx.length ++ ctx

/-- The scalar and the prefix of a secret key of 57 bytes. -/
def edSecret (key : List Byte) : Nat × List Byte :=
  let h := shake256 key 114
  let s := ofBytes (h.take 55)
  (s - s % 4 + setBits (leAt h 55 1) 7 1 1 * 2 ^ 440, h.drop 57)

/-- The public key of a secret key. -/
def edPublic (key : List Byte) : List Byte := (EdPoint.base.times 448 (edSecret key).1).bytes

/-- A hash as a scalar. -/
def edHash (bs : List Byte) : Nat := ofBytes (shake256 bs 114) % edOrder

/-- The Ed448 signature of a message under a context string. -/
def edSign (key ctx msg : List Byte) : List Byte :=
  let (s, pre) := edSecret key
  let r := edHash (edDomain ctx ++ pre ++ msg)
  let rb := (EdPoint.base.times 446 r).bytes
  let k := edHash (edDomain ctx ++ rb ++ edPublic key ++ msg)
  rb ++ toBytes 57 ((r + k * s) % edOrder)

/-- Does an Ed448 signature verify? The group equation is taken with the cofactor 4. -/
def edVerify (pub ctx msg sig : List Byte) : Bool :=
  let rb := sig.take 57
  let s := ofBytes (sig.drop 57)
  match edDecode pub, edDecode rb with
  | some a, some r =>
    let k := edHash (edDomain ctx ++ rb ++ pub ++ msg)
    sig.length == 114 && decide (s < edOrder) &&
      ((EdPoint.base.times 446 s).times 3 4).same ((r.add (a.times 446 k)).times 3 4)
  | _, _ => false

/-! ## Keys, R420 and R422 -/

/-- The device secret as bytes. -/
def deviceSecret : List Byte := toBytes 32 Config.deviceSecret.toNat

/-- The device key. -/
def deviceKey : List Byte := shake256 (ascii "OX2-DEVID" ++ deviceSecret) 57

/-- The metrology record key. -/
def metrologyKey : List Byte := shake256 (ascii "OX2-METREC" ++ deviceSecret) 57

/-- cdi1, from the measurement of the first stage and the fused security version, one byte (log entry 15). -/
def cdi1 (m1 : List Byte) (secVer : Nat) : List Byte := shake256 (ascii "OX2-CDI1" ++ deviceSecret ++ m1 ++ toBytes 1 secVer) 64

/-- The layer-1 key. -/
def layerKey (m1 : List Byte) (secVer : Nat) : List Byte := shake256 (ascii "OX2-L1" ++ cdi1 m1 secVer) 57

/-- The alias key. -/
def aliasKey (m1 : List Byte) (secVer : Nat) (m2 : List Byte) : List Byte := shake256 (ascii "OX2-ALIAS" ++ cdi1 m1 secVer ++ m2) 57

/-- The cartridge's key. -/
def cartKey : List Byte := toBytes 57 Config.cartSecret.toNat

/-- The key of Strelvox's device authority. -/
def authorityKey : List Byte := toBytes 57 Config.authoritySecret.toNat

/-- The 114 bytes of a signature. -/
def sign114 (key : List Byte) (ctx : String) (msg : List Byte) : List Byte := slice (edSign key (ascii ctx) msg) 0 114

end Sys2Proof.Machine
end

