-- ==== Sys2Proof/Machine/Meter.lean ====
section
/-!
DEFINITION. Sys2Proof/Machine/Meter.lean: the Campion cartridge and the module's side of metering (chapter 17). A metering value
changes inside the cartridge only; the MET_ registers are mirrors of it.
-/
namespace Sys2Proof.Machine

/-- Change the cartridge. -/
def State.updCart (s : State) (g : Cart → Cart) : State := { s with cart := g s.cart }

/-- Change the module's side. -/
def State.updMeter (s : State) (g : Meter → Meter) : State := { s with meter := g s.meter }

/-! ## The module's side: records, R399 to R401 and R407 to R408 -/

/-- Bytes 0 to 63 of a record, Table 17.3. -/
def AssignRec.body (r : AssignRec) : List Byte :=
  toBytes 2 0x4D41 ++ toBytes 1 r.op ++ toBytes 1 0 ++ toBytes 8 r.seq ++ toBytes 8 r.effective ++ toBytes 8 r.fields ++
    toBytes 2 r.slice ++ toBytes 2 r.job ++ toBytes 8 r.tag ++ toBytes 2 r.module ++ toBytes 22 0

/-- The 192 bytes of a record. -/
def AssignRec.bytes (r : AssignRec) : List Byte := r.body ++ sign114 metrologyKey "OX2-MET-ASSIGN" r.body ++ toBytes 14 0

/-- MET_STATUS.PENDING shows the records not acknowledged. -/
def State.showPending (s : State) : State := s.setFld F.MET_STATUS_PENDING 0 s.meter.pending.length

/-- The module makes a record, holds it and sends it. With 256 records held it makes none. -/
def State.sendRecord (s : State) (op effective fields slice job tag : Nat) : State :=
  if s.meter.pending.length ≥ 256 then s
  else
    let r : AssignRec := { op := op, seq := s.meter.nextSeq, effective := effective, fields := fields, slice := slice, job := job
                           tag := tag, module := s.selfId }
    let s := s.updMeter fun m => { m with pending := m.pending ++ [(r, s.up)], nextSeq := m.nextSeq + 1 }
    s.showPending.emit (.assign r.bytes)

/-- An assignment that no verified cartridge meters is recorded, R408. -/
def State.unmetered (s : State) (slice : Nat) : State := s.log 0x13 0x9001 0 (slice + s.fld F.MET_STATUS_STATE * 2 ^ 12)

/-- The states in which each assignment is recorded as unmetered. -/
def State.unmeteredState (s : State) : Bool :=
  let st := s.fld F.MET_STATUS_STATE
  st == 0 || st == 3 || st == 4

/-- What is to be reported of a field now: its slice with the job and the tag, as the entry module told them where it is another one. -/
def State.holdingOf (s : State) (f : Nat) : Option Holding :=
  match s.fieldOwner f with
  | some slice =>
    match s.jobs.find? fun j => j.placed && j.slice == slice with
    | some j => some { field := f, slice := slice, job := j.ident, tag := j.tag }
    | none =>
      let j := (mapGet (fun _ => none) s.farJobs slice).getD (0, 0)
      some { field := f, slice := slice, job := j.1, tag := j.2 }
  | none => none

/-- The field mask of some holdings. -/
def maskOf (l : List Holding) : Nat := l.foldl (fun n h => n + 2 ^ h.field) 0

/-- The holdings of a list by slice, in the order of their first fields. -/
def bySlice (l : List Holding) : List (List Holding) :=
  ((l.map (·.slice)).eraseDups).map fun x => l.filter fun h => h.slice == x

/-- ASSIGNMENT_RECORD_SEND: at a tick the fields that left a slice are reported by RELEASE records, then those that came into one by
ASSIGN records (R400, Table 17.6). -/
def State.assignTick (s : State) : State :=
  let new := (List.range 56).filterMap s.holdingOf
  let left := s.meter.held.filter fun h => !new.contains h
  let came := new.filter fun h => !s.meter.held.contains h
  let s := (bySlice left).foldl (fun s l => match l.head? with
    | some h => (s.sendRecord 2 s.now (maskOf l) h.slice h.job h.tag).updMeter fun m => { m with metered := m.metered.filter (· != h.slice) }
    | none => s) s
  let s := (bySlice came).foldl (fun s l => match l.head? with
    | some h =>
      let s := s.sendRecord 1 s.now (maskOf l) h.slice h.job h.tag
      if s.unmeteredState then s.unmetered h.slice else s
    | none => s) s
  s.updMeter fun m => { m with held := new }

/-- TIME_RECORD_SEND: once in every second of machine time the module sends a TIME record, R400. -/
def execTimeRecordSend (s : State) : Res :=
  if s.meter.timeSec ≠ s.sec + 1 then
    .next ((s.updMeter fun m => { m with timeSec := s.sec + 1 }).sendRecord 3 s.now 0 0 0 0)
  else .next s

/-- The records not acknowledged go out again, in SEQ order. -/
def State.resend (s : State) : State := s.meter.pending.foldl (fun s r => s.emit (.assign r.1.bytes)) s

/-- RECORD_RESEND: every 100 ms the module resends the unacknowledged records in SEQ order, R401. -/
def execRecordResend (s : State) : Res :=
  if s.up ≥ s.meter.resentAt + 100000000 * ns then .next (s.resend.updMeter fun m => { m with resentAt := s.up }) else .next s

/-- MET_STATUS.STATE takes an outcome. A start that ends unverified leaves an UNMETERED record for each open assignment; a state
that becomes VERIFIED has the pending records resent (R408). -/
def State.meterState (s : State) (st : Nat) : State :=
  let was := s.fld F.MET_STATUS_STATE
  let s := s.setFld F.MET_STATUS_STATE 0 st
  if st = 2 ∧ was ≠ 2 then s.resend
  else if was = 1 ∧ st ≠ 1 ∧ st ≠ 2 then (((s.meter.held.map (·.slice)).eraseDups).foldl State.unmetered s)
  else s

/-- A start: the checks begin. -/
def State.meterStart (s : State) : State :=
  (s.setFld F.MET_STATUS_STATE 0 1).updMeter fun m => { m with startAt := s.up, checked := false, accepted := false }

/-- Is a record older than 10 s unacknowledged? -/
def State.recordOld (s : State) : Bool := s.meter.pending.any fun r => decide (s.up ≥ r.2 + 10 * second)

/-- VERIFIED, when the checks passed, a record was accepted since the start and none is unacknowledged for 10 s. -/
def State.meterVerified (s : State) : State :=
  if s.fld F.MET_STATUS_STATE = 1 ∧ s.meter.checked ∧ s.meter.accepted ∧ !s.recordOld then s.meterState 2 else s

/-- CARTRIDGE_CHECK_TIMEOUT: a state unsettled 8 s after the start, or a record unacknowledged for 10 s, makes the state FAILED, R407. -/
def execCartridgeCheckTimeout (s : State) : Res :=
  let st := s.fld F.MET_STATUS_STATE
  if (st = 1 ∧ s.up ≥ s.meter.startAt + 8 * second) ∨ ((st = 1 ∨ st = 2) ∧ s.recordOld) then .next (s.meterState 4) else .next s

/-- CARTRIDGE_REMOVAL: the cartridge is taken out of its bay; the shorting bar carries the feeds, and the state is ABSENT, R407. -/
def execCartridgeRemoval (s : State) : Res :=
  .next ((s.updCart fun c => { c with seated := false, powered := false }).meterState 0)

/-! ## The cartridge: its log, R403 -/

/-- The payload of an entry, 64 bytes. -/
def LogPayload.bytes : LogPayload → List Byte
  | .slice sl job tag m start stop energy field =>
    toBytes 2 sl ++ toBytes 2 job ++ toBytes 8 tag ++ toBytes 2 m ++ toBytes 2 0 ++ toBytes 8 start ++ toBytes 8 stop ++
      toBytes 8 energy ++ toBytes 8 field ++ toBytes 16 0
  | .period a b u swid => toBytes 8 a ++ toBytes 8 b ++ toBytes 8 u ++ toBytes 8 swid ++ toBytes 32 0
  | .event code data => toBytes 2 code ++ toBytes 16 data ++ toBytes 46 0

/-- TYPE of an entry. -/
def LogPayload.code : LogPayload → Nat
  | .slice .. => 1
  | .period .. => 2
  | .event .. => 3

/-- The 96-byte body of an entry, Table 17.4. -/
def LogEntry.body (e : LogEntry) : List Byte :=
  toBytes 8 e.lseq ++ toBytes 1 e.payload.code ++ toBytes 1 (bit e.untraced + bit e.late * 2 + bit e.part * 4) ++ toBytes 2 0 ++
    toBytes 4 e.evtCnt ++ toBytes 8 e.ctime ++ toBytes 8 e.mtime ++ e.payload.bytes

/-- The 224 bytes of an entry. -/
def LogEntry.bytes (e : LogEntry) : List Byte := e.body ++ sign114 cartKey "OX2-MET-LOG" e.body ++ toBytes 14 0

/-- Entries that the cartridge, and the module's ring, keep. -/
def logSize : Nat := 1048576

/-- MET_REJECT follows the cartridge's count; as a statistics counter it sticks at its maximum (R445). -/
def State.mirrorRejects (s : State) : State := s.bump .MET_REJECT 0 (min (2 ^ 48 - 1) s.cart.rejects - s.fld F.MET_REJECT_COUNT)

/-- The mirrors that come with an entry. -/
def State.mirrorSmall (s : State) : State :=
  if !s.domains.cartPort.up then s
  else
    let s := s.setFld F.MET_STATUS_UNTRACED 0 (bit s.cart.untraced)
    let s := (s.wr .MET_SWID 0 s.cart.swid).wr .MET_VERSION 0 (s.cart.version + s.cart.secVer * 2 ^ 16)
    (s.wr .MET_EVT_CNT 0 s.cart.evtCnt).mirrorRejects

/-- The cartridge writes an entry and pushes it to the module, at once where the isolated port is up (R404). -/
def State.cartLog (s : State) (p : LogPayload) (untraced late part : Bool) : State :=
  let c := s.cart
  let e : LogEntry := { lseq := c.nextLseq, untraced := untraced, late := late, part := part, evtCnt := c.evtCnt, ctime := c.ctime
                        mtime := (c.timeMap.getD (0, 0)).1, payload := p }
  let s := s.updCart fun c => { c with log := (e :: c.log).take logSize, nextLseq := c.nextLseq + 1 }
  let s := s.mirrorSmall
  if s.domains.cartPort.up then s.emit (.logged e) else s

/-- The copies in the order in which a read looks for one: on device A, and on device B one that A does not hold (R414). -/
def State.copies (s : State) : List LogEntry := s.flashA.ring ++ s.flashB.ring

/-- LSEQ of the newest copy on either device; 0 without one. -/
def State.newestLog (s : State) : Nat := (s.copies.map (·.lseq)).foldl max 0

/-- LSEQ of the oldest copy on either device; 0 without one. -/
def State.oldestLog (s : State) : Nat := (s.copies.map (·.lseq)).foldl min s.newestLog

/-- The entries of the cartridge's log that the module has no copy of are pushed, the oldest first, once the port is back; those that the
cartridge has overwritten leave a gap (R404). Mirrors come with an entry. -/
def State.pushLog (s : State) : State :=
  let due := (s.cart.log.filter fun e => decide (e.lseq > s.newestLog)).reverse
  if due.isEmpty then s else due.foldl (fun s e => s.emit (.logged e)) s.mirrorSmall

/-- The cartridge logs an event. -/
def State.cartEvent (s : State) (code what : Nat) : State :=
  s.cartLog (.event code (Config.eventData code what)) s.cart.untraced false false

/-! ## Assignments in the cartridge, R401 and R402 -/

/-- Fields of a mask. -/
def maskFields (m : Nat) : List Nat := (List.range 56).filter (bitOf m)

/-- The account that holds a field; 0 for none. -/
def Cart.accountOf (c : Cart) (f : Nat) : Nat :=
  match c.accounts.find? fun a => !a.closed && bitOf a.fields f with
  | some a => a.num
  | none => 0

/-- Field-rail energy in µJ of an account in some bins. -/
def fieldEnergy (bins : List Bin) (num : Nat) : Nat :=
  (bins.map fun b => ((b.rails.zip b.accounts).map fun x => if x.2 = num then x.1 else 0).sum).sum

/-- Field-rail energy in µJ of all fields in some bins. -/
def totalEnergy (bins : List Bin) : Nat := (bins.map fun b => (b.rails.take 56).sum).sum

/-- What an account is apportioned of a period, in mJ, rounded down: its field energy, and of the residue R and the shared rails the
share of its field energy in the whole (R397). `fe` and `total` are field energies in µJ. -/
def apportion (feeds shared total fe : Nat) : Int :=
  if total = 0 then 0
  else
    let residue : Int := 1000 * (feeds : Int) - total - shared
    let split : Int := shared + residue
    ((fe : Int) * total + split * fe) / (1000 * (total : Int))

/-- The bins of a period. -/
def binsOf (bins : List Bin) (p : PeriodSum) : List Bin := bins.filter fun b => decide (p.start ≤ b.at_) && decide (b.at_ < p.stop)

/-- An account's energies with a period's share added or taken. -/
def Account.share (a : Account) (p : PeriodSum) (old new : List Bin) : Account :=
  let total := totalEnergy new
  let before := apportion p.feeds p.shared total (fieldEnergy old a.num)
  let after := apportion p.feeds p.shared total (fieldEnergy new a.num)
  { a with energy := a.energy + after - before, field := a.field + fieldEnergy new a.num - fieldEnergy old a.num }

/-- The bins of a closed period are credited again: the accounts and UNASSIGNED change by the difference. -/
def Cart.recredit (c : Cart) (p : PeriodSum) (old new : List Bin) : Cart :=
  let accounts := c.accounts.map fun a => a.share p (binsOf old p) (binsOf new p)
  let moved := ((accounts.zip c.accounts).map fun x => x.1.energy - x.2.energy).sum
  { c with accounts := accounts, unassigned := c.unassigned - moved }

/-- The accounts of the fields once some of them come to an account. -/
def movedTo (fields num : Nat) (accounts : List Nat) : List Nat :=
  (rangeFrom 0 56).map fun f => if bitOf fields f then num else accounts.getD f 0

/-- Fields come to an account (0: to none) from a cartridge time on: the bins since are credited again, and so is the open one where it began
no earlier. -/
def Cart.moveFields (c : Cart) (fields from_ num : Nat) : Cart :=
  let new := c.bins.map fun b => if from_ ≤ b.at_ then { b with accounts := movedTo fields num b.accounts } else b
  let c' := c.periods.foldl (fun x p => x.recredit p c.bins new) c
  { c' with bins := new, holders := if from_ ≤ c.ctime then movedTo fields num c.holders else c.holders }

/-- Cartridge time in ms of a machine time, by the latest TIME record, rounded up to a bin's start; none without a TIME record. -/
def Cart.timeOf (c : Cart) (t : Nat) : Option Int :=
  match c.timeMap with
  | some (m, ct) => some ((ct : Int) - (-(timeDiff t m)) / (1000000 * (ns : Int)))
  | none => none

/-- From which cartridge time a record applies, and whether it is late: from EFFECTIVE within the last 10 s, and otherwise from its arrival,
that is from the bin that starts next (R396, R402). -/
def Cart.applyFrom (c : Cart) (effective : Nat) : Nat × Bool :=
  match c.timeOf effective with
  | some t => if t + 10000 ≥ (c.ctime : Int) then (t.toNat, false) else (c.ctime + 1, true)
  | none => (c.ctime + 1, false)

/-- Fields leave the accounts that hold them; an account left with none is closed. -/
def Cart.leave (c : Cart) (fields stop : Nat) (late : Bool) : Cart :=
  { c with accounts := c.accounts.map fun a =>
    if !a.closed && (maskFields fields).any (bitOf a.fields) then
      let rest := (maskFields a.fields).foldl (fun n f => if bitOf fields f then n else n + 2 ^ f) 0
      { a with fields := rest, late := a.late || late, closed := rest == 0, stop := if rest = 0 then stop else a.stop }
    else a }

/-- The cartridge applies an accepted record. -/
def Cart.apply (c : Cart) (r : AssignRec) : Cart :=
  let c := { c with lastSeq := r.seq }
  let (from_, late) := c.applyFrom r.effective
  match r.op with
  | 1 =>
    let c := (c.leave r.fields r.effective late)
    let a : Account := { num := c.nextNum, slice := r.slice, job := r.job, tag := r.tag, module := r.module, fields := r.fields
                         start := r.effective, stop := 0, energy := 0, field := 0, untraced := c.untraced, late := late, part := false
                         closed := false }
    { c with accounts := c.accounts ++ [a], nextNum := c.nextNum + 1 }.moveFields r.fields from_ a.num
  | 2 => (c.leave r.fields r.effective late).moveFields r.fields from_ 0
  | _ => { c with timeMap := some (r.effective, c.ctime) }

/-- The fields of a record as the cartridge reads them. -/
def readRecord (bs : List Byte) : AssignRec :=
  { op := leAt bs 2 1, seq := leAt bs 4 8, effective := leAt bs 12 8, fields := leAt bs 20 8, slice := leAt bs 28 2
    job := leAt bs 30 2, tag := leAt bs 32 8, module := leAt bs 40 2 }

/-- Does a record set a reserved bit or value? -/
def recordReserved (bs : List Byte) : Bool :=
  bs.length != 192 || leAt bs 0 2 != 0x4D41 || leAt bs 3 1 != 0 || leAt bs 2 1 == 0 || decide (leAt bs 2 1 > 3) ||
    decide (leAt bs 20 8 ≥ 2 ^ 56) || decide (leAt bs 28 2 ≥ 2 ^ 12) || decide (leAt bs 40 2 ≥ 2 ^ 14) || leAt bs 42 22 != 0 ||
    leAt bs 178 14 != 0

/-- Does the signature of a record verify with the key enrolled at pairing? What this module's signing unit signed does, where that key is
this module's. -/
def Cart.signed (c : Cart) (bs : List Byte) : Bool :=
  let body := bs.take 64
  let sig := slice bs 64 114
  if c.own then
    sig == sign114 metrologyKey "OX2-MET-ASSIGN" body || edVerify (edPublic metrologyKey) (ascii "OX2-MET-ASSIGN") body sig
  else edVerify Config.foreignKey (ascii "OX2-MET-ASSIGN") body sig

/-- The module takes the acknowledgement of a record. -/
def State.acknowledged (s : State) (r : AssignRec) : State :=
  let s := (s.updMeter fun m => { m with pending := m.pending.filter fun p => p.1.seq != r.seq, accepted := true }).showPending
  let s := if r.op = 1 then s.updMeter fun m => { m with metered := m.metered.filter (· != r.slice) ++ [r.slice] } else s
  s.meterVerified

/-- The cartridge counts a record it does not accept; a bad signature or module is logged (R401). -/
def State.rejected (s : State) (logged : Bool) : State :=
  let s := s.updCart fun c => { c with rejects := c.rejects + 1 }
  if logged then s.cartEvent 0x04 0 else s

/-- ASSIGNMENT_RECORD: the cartridge takes a slice-assignment record of 192 bytes, accepting and acknowledging it or rejecting it,
R401. -/
def execAssignmentRecord (bytes : List Byte) (s : State) : Res :=
  let r := readRecord bytes
  if !(s.cart.seated && s.cart.powered && s.domains.cartPort.up) then .next s
  else if !s.cart.signed bytes then .next (s.rejected true)
  else if recordReserved bytes then .next (s.rejected false)
  else if s.cart.paired ≠ some r.module then .next (s.rejected true)
  else if r.seq = s.cart.lastSeq + 1 then .next ((s.updCart fun c => c.apply r).acknowledged r)
  else if r.seq ≤ s.cart.lastSeq ∧ 0 < r.seq then .next (s.acknowledged r)
  else .next (s.rejected false)

/-! ## Bins and periods, R393 to R397 -/

/-- Energy in µJ that a feed's register takes from a bin of 1 ms: nothing below 0.2 A, the value at 420 A above it (Table 17.1). -/
def feedEnergy (volts amps : Nat) : Nat := if amps < 20 then 0 else volts * min amps 42000

/-- Is a feed voltage where class 0.5 is not promised? -/
def voltOff (v : Nat) : Bool := (decide (440 ≤ v) && decide (v < 480)) || (decide (580 < v) && decide (v ≤ 600))

/-- A condition was seen in this period. -/
def seen (m : Nat) (b : Bool) : Nat := if b then setBits m 0 1 1 else m

/-- BIN_SAMPLE: every 1 ms bin ends and the cartridge credits each field rail to the slice assigned at its start, R396. The bins of the last
10 s are kept, and with them the rest of a period that reaches into them. -/
def execBinSample (b : BinIn) (s : State) : Res :=
  let c := s.cart
  if !(c.seated && c.powered) then .next s
  else
    let rails := (List.range 64).map fun i => (b.rails.getD i 0#32).toNat
    let bin : Bin := { at_ := c.ctime, rails := rails.take 56, accounts := (List.range 56).map fun f => c.holders.getD f 0 }
    let t : Int := (b.celsius.toNat : Int) - 128
    .next (s.updCart fun c => { c with
      bins := bin :: (c.bins.filter fun x => decide (x.at_ + 10000 > c.ctime) || c.periods.any fun p => decide (p.start ≤ x.at_) && decide (x.at_ < p.stop))
      holders := (List.range 56).map c.accountOf
      openA := c.openA + feedEnergy b.voltsA.toNat b.ampsA.toNat
      openB := c.openB + feedEnergy b.voltsB.toNat b.ampsB.toNat
      shared := c.shared + (rails.drop 56).sum
      ctime := c.ctime + 1
      volt := seen c.volt (voltOff b.voltsA.toNat || voltOff b.voltsB.toNat)
      past := seen c.past (decide (b.ampsA.toNat > 25000) || decide (b.ampsB.toNat > 25000))
      temp := seen c.temp (decide (t < -10) || decide (t > 55)) })

/-- The first period of a run in which a condition was seen logs its event; the marks move on. -/
def State.periodEvent (s : State) (m code : Nat) : State := if m = 1 then s.cartEvent code 0 else s

/-- A closed assignment's entry. -/
def State.logSlice (s : State) (a : Account) : State :=
  s.cartLog (.slice a.slice a.job a.tag a.module a.start a.stop a.energy.toNat (a.field / 1000)) a.untraced a.late a.part

/-- The mirrors of a period end: the legal registers and the open assignments. -/
def State.mirrorPeriod (s : State) : State :=
  if !s.domains.cartPort.up then s
  else
    let s := ((s.wr .MET_FEED_A 0 s.cart.feedA).wr .MET_FEED_B 0 s.cart.feedB).wr .MET_UNASSIGNED 0 s.cart.unassigned.toNat
    let s := (List.range 64).foldl (fun s n => s.resetReg .MET_SLOT_E n) s
    let open_ := s.cart.accounts.filter fun a => !a.closed
    (((List.range 64).zip open_).foldl (fun s x =>
      s.wr .MET_SLOT_E x.1 (x.2.energy.toNat % 2 ^ 64 + x.2.slice * 2 ^ 64 + 2 ^ 76)) s).mirrorSmall

/-- The apportioning of a period: the feeds take the whole mJ of the period, the accounts their shares, UNASSIGNED the rest. -/
def Cart.closePeriod (c : Cart) : Cart :=
  let a := c.openA / 1000
  let b := c.openB / 1000
  let p : PeriodSum := { start := c.periodAt, stop := c.ctime, feeds := a + b, shared := c.shared }
  let bins := binsOf c.bins p
  let total := totalEnergy bins
  let shares := c.accounts.map fun x => apportion p.feeds p.shared total (fieldEnergy bins x.num)
  { c with
    feedA := c.feedA + a, feedB := c.feedB + b, openA := c.openA % 1000, openB := c.openB % 1000, shared := 0, periodAt := c.ctime
    accounts := (c.accounts.zip shares).map fun x =>
      { x.1 with energy := x.1.energy + x.2, field := x.1.field + fieldEnergy bins x.1.num, untraced := x.1.untraced || c.untraced }
    unassigned := c.unassigned + (((a + b : Nat) : Int) - shares.sum)
    periods := p :: c.periods.filter fun q => decide (q.stop + 10000 > c.ctime)
    periodsRun := c.periodsRun + 1 }

/-- Is an account closed, with no share in the bin that is open? -/
def Cart.settled (c : Cart) (a : Account) : Bool := a.closed && !c.holders.contains a.num

/-- A period ends. -/
def State.periodEnd (s : State) : State :=
  let s := s.updCart Cart.closePeriod
  let s := (s.cart.accounts.filter s.cart.settled).foldl State.logSlice s
  let s := s.updCart fun c => { c with accounts := c.accounts.filter fun a => !c.settled a }
  let s := ((s.periodEvent s.cart.volt 0x07).periodEvent s.cart.past 0x08).periodEvent s.cart.temp 0x09
  let s := s.updCart fun c => { c with volt := c.volt % 2 * 2, past := c.past % 2 * 2, temp := c.temp % 2 * 2 }
  let s := if s.cart.periodsRun % 900 = 0 then
      (s.cartLog (.period s.cart.feedA s.cart.feedB s.cart.unassigned.toNat s.cart.swid) s.cart.untraced false s.cart.part).updCart
        fun c => { c with part := false }
    else s
  s.mirrorPeriod

/-- PERIOD_END: at each 1 s period end the cartridge splits residue and shared rails and updates its legal registers, R397. -/
def execPeriodEnd (s : State) : Res :=
  if s.cart.seated && s.cart.powered && decide (s.cart.ctime ≥ s.cart.periodAt + 1000) then .next s.periodEnd else .next s

/-! ## Copies in the module, R404 -/

/-- Byte offset of the metrology copies in a flash device, with the regions of Table 18.2 in its order. -/
def ringOffset : Nat := recordsOffset + 256 * 0x100000

/-- MET_LOG_PTR as the ring stands. -/
def State.showRing (s : State) : State :=
  (s.setFld F.MET_LOG_PTR_OLDEST 0 s.oldestLog).setFld F.MET_LOG_PTR_NEWEST 0 s.newestLog

/-- A pushed entry is stored in the ring of both devices; entries missing before it are counted. -/
def State.storeEntry (s : State) (e : LogEntry) (okA okB : Bool) : State :=
  let newest := s.newestLog
  if e.lseq ≤ newest then s
  else
    let s := if newest ≠ 0 ∧ e.lseq > newest + 1 then s.bump .MET_LOG_GAP 0 (e.lseq - newest - 1) else s
    let put := fun (l : List LogEntry) => (e :: l).take logSize
    let s : State := { s with flashA := { s.flashA with ring := if okA then put s.flashA.ring else s.flashA.ring }
                              flashB := { s.flashB with ring := if okB then put s.flashB.ring else s.flashB.ring } }
    let s := if okA then s else s.flashFail 0 ringOffset
    let s := if okB then s else s.flashFail 1 ringOffset
    let s := match e.payload with
      | .event code _ => if code = 0x06 then s.setFld F.MET_STATUS_TAMPER 0 1 else s
      | _ => s
    s.showRing

/-- LOG_ENTRY: a signed log entry pushed by the cartridge is stored in the module's flash ring, R404. `okA` and `okB` say which
device took the write. -/
def execLogEntry (e : LogEntry) (okA okB : Bool) (s : State) : Res := .next (s.storeEntry e okA okB)

/-- LOG_CURSOR_WRITE: a write of MET_LOG_CURSOR shows the named log copy in MET_LOG_WIN; zeros for one that the ring does not hold,
R404. -/
def State.logCursor (s : State) (lseq : Nat) : State :=
  let s := s.wr .MET_LOG_CURSOR 0 lseq
  match s.copies.find? fun e => e.lseq == lseq with
  | some e => s.wr .MET_LOG_WIN 0 (ofBytes e.bytes)
  | none => s.wr .MET_LOG_WIN 0 0

/-- LOG_CURSOR_WRITE, R404. -/
def execLogCursorWrite (lseq : BitVec 64) (s : State) : Res := .next (s.logCursor lseq.toNat)

/-! ## Calibration, seal and the verification port, R405 and R409 to R411 -/

/-- CARTRIDGE_CALIBRATION: the cartridge calibrates its ADCs at start and every 24 hours, setting or clearing UNTRACED, R405. `mref`
is its mean of MREF in µV, `drift` the largest drift of an ADC gain in 10⁻⁵. -/
def execCartridgeCalibration (mref : BitVec 24) (drift : BitVec 16) (s : State) : Res :=
  let c := s.cart
  let due := match c.calAt with
    | some t => decide (c.ctime ≥ t + 86400000)
    | none => true
  if !(c.seated && c.powered && due) then .next s
  else
    let ok := mrefOk mref.toNat && decide (drift.toNat ≤ 200)
    let s := s.updCart fun c => { c with calAt := some c.ctime, untraced := !ok
                                         accounts := c.accounts.map fun a => { a with untraced := a.untraced || !ok } }
    .next (s.cartEvent 0x03 (bit ok))

/-- TAMPER: an opening of the bay latch increments the event counter and logs TAMPER, at the next start where it happens without
power, R409. -/
def execTamper (s : State) : Res :=
  if s.cart.powered then .next ((s.updCart fun c => { c with evtCnt := c.evtCnt + 1 }).cartEvent 0x06 0)
  else .next (s.updCart fun c => { c with tamperOff := true })

/-- The cartridge starts: a loss of supply and an opening without power are logged; open assignments carry PARTIAL (R409, R412). -/
def State.cartStart (s : State) (loss : Bool) : State :=
  let s := s.updCart fun c => { c with powered := true, calAt := none, part := c.part || loss
                                       holders := (List.range 56).map c.accountOf
                                       accounts := c.accounts.map fun a => { a with part := a.part || loss } }
  let s := if loss then s.cartEvent 0x02 0 else s
  let s := s.cartEvent 0x01 0
  let s := if s.cart.tamperOff then
      (s.updCart fun c => { c with evtCnt := c.evtCnt + 1, tamperOff := false }).cartEvent 0x06 0 else s
  s.meterStart

/-- CARTRIDGE_CHECK: at start or seating the module checks the cartridge's certificate and pairing and settles MET_STATUS.STATE,
R407. `seating` says that a cartridge is seated now, `certOk` that its certificate verifies. -/
def execCartridgeCheck (seating certOk : Bool) (s : State) : Res :=
  let s := if seating then (s.updCart fun c => { c with seated := true }).cartStart true
           else if s.cart.seated ∧ s.fld F.MET_STATUS_STATE ≠ 1 then s.meterStart else s
  if !s.cart.seated then .next (s.meterState 0)
  else if !certOk then .next (s.meterState 4)
  else if s.cart.paired ≠ some s.selfId then .next (s.meterState 3)
  else .next (s.updMeter fun m => { m with checked := true }).meterVerified

/-- CARTRIDGE_POWER_LOSS: both feeds below 44 V make the cartridge save its registers on hold-up, R412; it is without power then. -/
def execCartridgePowerLoss (s : State) : Res := .next (s.updCart fun c => { c with powered := false })

/-- A command of the verification port, which the cartridge answers while it is supplied. -/
def State.verPort (s : State) (r : VerReply) : Res := if s.cart.powered then .next (s.emit (.verification r)) else .next s

/-- IDENT: the identification of the cartridge, R410. -/
def execIdent (s : State) : Res :=
  s.verPort (.ident Config.cartSerial.toNat Config.cartCertificate s.cart.swid s.cart.version s.cart.secVer s.cart.evtCnt s.cart.paired)

/-- The energies of the open slices at the latest period end. -/
def Cart.openSlices (c : Cart) : List (Nat × Nat) := (c.accounts.filter fun a => !a.closed).map fun a => (a.slice, a.energy.toNat)

/-- REGS: the legal registers at the latest period end, R410. -/
def execRegs (s : State) : Res := s.verPort (.regs s.cart.feedA s.cart.feedB s.cart.unassigned.toNat s.cart.openSlices)

/-- LOG: up to 64 entries from an LSEQ, R410. -/
def execLog (lseq : BitVec 64) (s : State) : Res :=
  s.verPort (.log ((s.cart.log.reverse.filter fun e => decide (e.lseq ≥ lseq.toNat)).take 64))

/-- SELFTEST: a display of every register and a test of the signing unit, R410; `passed` is the outcome of that test. -/
def execSelftest (passed : Bool) (s : State) : Res :=
  s.verPort (.selftest ([s.cart.feedA, s.cart.feedB, s.cart.unassigned.toNat] ++ s.cart.openSlices.map (·.2)) passed)

/-- The software identification of an image: the first 8 bytes of its SHAKE256 (R410). -/
def swidOf (image : List Byte) : Nat := ofBytes (shake256 image 8)

/-- How an UPDATE is judged, R411. -/
def Cart.judgeUpdate (c : Cart) (u : CartUpdate) : UpdateResult :=
  if !edVerify (Config.enrolledKey 0) (Config.updateContext false) u.image u.signature then .imageSignature
  else if !edVerify (Config.enrolledKey (1 + u.verifier.val)) (Config.updateContext true) (Config.authorisation u.image u.counter.toNat)
      u.authorisation then .authorisation
  else if u.counter.toNat ≠ c.evtCnt + 1 then .counter
  else if u.secVer.toNat < c.secVer then .security
  else .activated

/-- The cartridge activates an image: counter, security version, event UPDATE, restart; registers and log are kept. An image that fails to
start three times is replaced by the previous one, and the counter keeps its increment (R411). -/
def State.cartActivate (s : State) (u : CartUpdate) : State :=
  let old := s.cart
  let new := swidOf u.image
  let s := s.updCart fun c => { c with evtCnt := c.evtCnt + 1, secVer := u.secVer.toNat, swid := new, version := u.version.toNat }
  let s := s.cartLog (.event 0x05 (old.swid + new * 2 ^ 64)) s.cart.untraced false false
  (if u.starts then s else s.updCart fun c => { c with swid := old.swid, version := old.version }).cartStart true

/-- UPDATE: the verification port command activates a new cartridge image when both signatures and the counter verify, R411. -/
def execUpdate (u : CartUpdate) (s : State) : Res :=
  if !s.cart.powered then .next s
  else
    match s.cart.judgeUpdate u with
    | .activated => .next ((s.cartActivate u).emit (.verification (.update .activated)))
    | r => .next (s.emit (.verification (.update r)))

/-- UNKNOWN_COMMAND: a verification port command not in Table 17.5 is answered with code UNKNOWN, R410. -/
def execUnknownCommand (s : State) : Res := s.verPort .unknown

end Sys2Proof.Machine
end

