-- ==== Sys2Proof/Machine/Events.lean ====
section
/-!
DEFINITION. Sys2Proof/Machine/Events.lean: the recorder's own commands: records that close, suppression records, snapshots, clears
and notes (R437 to R444).
-/
namespace Sys2Proof.Machine

/-- RECORD_CLOSE: an open recorder record closes 1.000 s after its TIME, R437; a HOLD record closes with its run instead. -/
def execRecordClose (seq : BitVec 64) (s : State) : Res :=
  let due := fun (e : EvRec) => e.seq == seq.toNat && e.opened && e.code != 0x1001 && decide (timeDiff s.now e.time ≥ second)
  let close := fun (e : EvRec) => if due e then { e with opened := false } else e
  .next { s with evr := { s.evr with circ := s.evr.circ.map close, perm := s.evr.perm.map close } }

/-- The suppression record of a code. -/
def Suppressed.record (u : Suppressed) : EvRec :=
  { EvRec.fresh u.time u.source u.code u.loc u.data false with
    suppressed := true, rep := min 65535 u.count, clamped := decide (u.count > 65535) }

/-- Write one suppression record, and count what it stands for. -/
def State.writeSuppressed (s : State) (u : Suppressed) : State :=
  (s.recorder (s.evr.write u.record)).bump .EVR_SUPPR_CNT 0 u.count

/-- SUPPRESSION_RECORD: at the start of each second the recorder writes one suppression record per code that had suppressed
occurrences in an earlier one, R440. -/
def execSuppressionRecord (s : State) : Res :=
  let due := s.evr.supp.filter fun u => u.second != s.sec
  let s : State := { s with evr := { s.evr with supp := s.evr.supp.filter fun u => u.second == s.sec } }
  .next (due.foldl State.writeSuppressed s)

/-- EVR_OLDEST: the lowest SEQ in the circulating area; the next one while it holds none. -/
def Recorder.oldest (r : Recorder) : Nat :=
  match r.circ.getLast? with
  | some e => e.seq
  | none => r.next

/-- A record as a snapshot finds it, R442: in the circulating area, in the permanent area, or nowhere. -/
def Recorder.lookup (r : Recorder) (q : Nat) : Option EvRec :=
  match r.circ.find? fun e => e.seq == q with
  | some e => some e
  | none => r.perm.find? fun e => e.seq == q

/-- A write of EVR_CURSOR: eight records, and what each slot of the window holds. -/
def State.cursorWrite (s : State) (q : Nat) : State :=
  let found := (List.range 8).map fun i => s.evr.lookup (q + i)
  let put := fun (p : Nat → Option EvRec → Bool) =>
    (((List.range 8).zip found).map fun x => if p (q + x.1) x.2 then 2 ^ x.1 else 0).sum
  let s := s.wr .EVR_CURSOR 0 q
  let s := s.setFld F.EVR_WIN_INFO_PRESENT 0 (put fun _ e => e.isSome)
  let s := s.setFld F.EVR_WIN_INFO_GONE 0 (put fun n e => e.isNone && decide (n < s.evr.next))
  let s := s.setFld F.EVR_WIN_INFO_AHEAD 0 (put fun n e => e.isNone && decide (s.evr.next ≤ n))
  { s with evr := { s.evr with window := found } }

/-- CURSOR_WRITE: a write of EVR_CURSOR snapshots eight records into EVR_WIN, R442. -/
def execCursorWrite (seq : BitVec 64) (s : State) : Res := .next (s.cursorWrite seq.toNat)

/-- The bytes of a record, Table 19.1, as a number. -/
def EvRec.word (e : EvRec) : Nat :=
  e.seq % 2 ^ 64 + e.time % 2 ^ 64 * 2 ^ 64 + e.code % 2 ^ 16 * 2 ^ 128 + e.source % 2 ^ 8 * 2 ^ 144 +
    bit e.opened * 2 ^ 152 + bit e.clamped * 2 ^ 153 + bit e.suppressed * 2 ^ 154 + bit e.perm * 2 ^ 155 + bit e.note * 2 ^ 156 +
    e.rep % 2 ^ 16 * 2 ^ 160 + e.loc % 2 ^ 16 * 2 ^ 176 + e.data % 2 ^ 64 * 2 ^ 192

/-- The window as a number: slot i in bits [256i + 255 : 256i]. -/
def Recorder.windowWord (r : Recorder) : Nat :=
  (((List.range 8).zip r.window).map fun x => match x.2 with
    | some e => e.word * 2 ^ (256 * x.1)
    | none => 0).sum

/-- A write of EVR_CLEAR with START = 1: the permanent area empties and refills from the CLEAR record; a wrong KEY is refused with
RESULT 1 and recorded (R444). -/
def State.evrClear (s : State) (key v : Nat) : State :=
  if key ≠ 0x5A then (s.setFld F.EVR_CLEAR_RESULT 0 1).refuse .EVR_CLEAR 0 v
  else
    let first := s.evr.permFirst
    let s : State := { s with evr := { s.evr with perm := [] } }
    (s.setFld F.EVR_CLEAR_RESULT 0 0).log 0x00 0x0002 0 first

/-- EVR_CLEAR: EVR_CLEAR with KEY 0x5A clears the permanent area, R444. -/
def execEvrClear (key : BitVec 8) (s : State) : Res := .next (s.evrClear key.toNat (1 + key.toNat * 2 ^ 8))

/-- A write of EVR_NOTE_CMD with START = 1: a note with the DATA of EVR_NOTE_DATA, at most NOTE_LIMIT in a second (R441). -/
def State.note (s : State) (code : Nat) : State :=
  let s := s.setFld F.EVR_NOTE_CMD_CODE 0 code
  let count := if s.evr.noteSecond = s.sec then s.evr.notes else 0
  if count ≥ s.evNoteLimit then (s.setFld F.EVR_NOTE_CMD_RESULT 0 1).bump .EVR_NOTE_REFUSED
  else
    let e := { EvRec.fresh s.now 0x21 (0xF000 + code % 4096) 0 (s.rd .EVR_NOTE_DATA) false with note := true }
    (s.recorder { s.evr.write e with noteSecond := s.sec, notes := count + 1 }).setFld F.EVR_NOTE_CMD_RESULT 0 0

/-- NOTE: EVR_NOTE_CMD START writes a management note, or refuses it over NOTE_LIMIT, R441. -/
def execNote (code : BitVec 12) (s : State) : Res := .next (s.note code.toNat)

/-- A write of EVR_RATE with a LIMIT other than 0: the new limits apply from the next second (Table 19.5). -/
def State.rateWrite (s : State) (v : Nat) : State :=
  let old := s.rd .EVR_RATE
  let s : State := if s.evr.rateSecond = s.sec + 1 then s
    else { s with evr := { s.evr with rateSecond := s.sec + 1, rateOld := old } }
  (s.setFld F.EVR_RATE_NOTE_LIMIT 0 (bits v 16 8)).setFld F.EVR_RATE_LIMIT 0 (bits v 0 16)

end Sys2Proof.Machine
end

