-- ==== Sys2Proof/Machine/Domains.lean ====
section
/-!
DEFINITION. Sys2Proof/Machine/Domains.lean: the power and reset domains going down and coming up (R458 to R464), thermal shutdown
(R479 to R481), feeds and hold-up (R240, R374), deck resets, and the isolated ports (R456, R457).
-/
namespace Sys2Proof.Machine

/-- Change the domains. -/
def State.updDomains (s : State) (g : Domains → Domains) : State := { s with domains := g s.domains }

/-- ALERT_N is asserted at 105 °C or above and while a thermal shutdown keeps the wafer off, R473. -/
def State.alert (s : State) : Bool := decide (s.fld F.PWR_TEMP_DIE_MAX ≥ 105) || s.domains.shutAt.isSome

/-! ## The wafer goes down -/

/-- Blocks of a domain. -/
def domainBlocks (d : Domain) : List Block := Block.all.filter fun b => decide (b.domain = d)

/-- Every job that owns fields on the module stops with cause MODULE_LOST, and owns none any more (R480). -/
def State.waferJobs (s : State) : State :=
  (s.jobs.filter (·.placed)).foldl (fun s j =>
    ((s.stopJob j ⟨stFault, 0x48, s.selfId, none, none⟩).updJob j.ident fun j =>
      { j with placed := false, owned := [], imageFrames := [], otherFrames := [], cause := ⟨0, 0⟩ })) s

/-- Memory of a wafer without power: LPDDR reads as zero once it is trained (R131), SRAM is undefined until it is cleared (R124). -/
def Memory.lost (n : Nat) : Memory :=
  { cells := [], marks := [], upset := [], tiles := [], fldUndef := (List.range 56).map fun f => (f, n), bankUndef := []
    lineDef := [], lineUndef := [], owner := [] }

/-- The lanes of a wafer that is down carry no light: the inputs of its transmitters and the outputs of LAUNCH, LAND and LOOP paths, which
stay pointed (R240). -/
def State.lightsOff (s : State) : State :=
  let s := ((List.range 192).filter fun l => s.flag F.DCK_TAP_IN_PRESENT l).foldl State.tapInDark s
  (s.paths.filter fun o => s.fld F.DCK_PATH_TYPE o != 3).foldl (fun s o =>
    (s.tapOutDark o).setFld F.DCK_PATH_LIGHT o 0) s

/-- The wafer domain loses its state: registers, cores, memories, movers, links and lanes, columns in motion, saved contexts. The deck's
paths stay as they point (R240); the time source is lost where it came over links. -/
def State.waferDown (s : State) : State :=
  let s := s.waferJobs.calAbandon
  let s := (domainBlocks .wafer).foldl State.resetBlock s
  let s : State := { s with
    cores := [], mem := Memory.lost (s.free + 2), free := s.free + 1, inject := [], slots := [], mmuCache := [], remotes := []
    ccRecord := { pages := [], frames := [], fields := [], routes := [] }, nextTable := 0, movers := [], links := [], lanes := []
    colOps := [], staged := [], epochTick := [], epochDue := [], votedHolders := [], voteDelays := [], nextDelays := [], spares := [], lineReads := [], farFields := [], farJobs := [], shares := [], integ := Integrity.init, saved := []
    positions := s.positions.map fun p => (p.1, { p.2 with testing := none }) }
  let s := s.updDomains fun d => { d with wafer := false, mission := false, hot110 := 0, offAt := some (d.offAt.getD s.up) }
  s.lightsOff.reparent.refreshCond

/-! ## The wafer comes up, steps 6 to 11 of Table 20.3 -/

/-- The settings copy in use, from device A or B. -/
def State.settingsInUse (s : State) : Option Settings :=
  if s.flag F.FWU_SETTINGS_COPY then (match s.flashA.set1 with | some x => some x | none => s.flashB.set1)
  else (match s.flashA.set0 with | some x => some x | none => s.flashB.set0)

/-- The register keys and values of the settings in use. -/
def State.settingsBody (s : State) : List (Nat × Nat) :=
  match s.settingsInUse with
  | some x => x.body
  | none => []

/-- The runtime writes set-up space from the settings; a link slot that they enable is DOWN until light comes (R246). -/
def State.writeSettings (s : State) : State :=
  let s := s.settingsBody.foldl (fun s e =>
    match Reg.all[e.1 / 65536]? with
    | some r => s.wr r (e.1 % 65536) e.2
    | none => s) s
  s.enabledLinks.foldl (fun s n => if s.linkState n = linkDisabled then s.setFld F.LNK_LINK_STATUS_STATE n linkDown else s) s

/-- STRAP_READ: the coordinates of the strap lines; with a wrong parity X 31, Y 31, Z 15 (R472). -/
def strapCoords (x : BitVec 15) : Nat :=
  if popCount 15 x.toNat % 2 = 1 then x.toNat % 2 ^ 14 else 2 ^ 14 - 1

/-- RTE_COORD loads the coordinates that the control domain read. -/
def State.loadCoords (s : State) : State :=
  (s.wr .RTE_COORD 0 (strapCoords s.domains.straps + 2 ^ 15)).placeSelf

/-- The field controllers apply the factory repairs of the fuses and then the repair map (R182); MSH_MOD_SHIP counts the columns without a
spare at shipment (R189). -/
def State.applyRepairs (s : State) : State :=
  let r := s.savedRecords.getD ModuleRecords.init
  let s := (s.fuses.columns ++ r.columns).foldl (fun s e => (s.wr .MSH_COL_MAP e.1 e.2).setFld F.MSH_COL_MAP_STEPPING e.1 0) s
  let s := r.fields.foldl (fun s e => s.wr .MSH_FLD_STATE e.1 e.2) s
  let s := { s with fencedLinks := s.fuses.links ++ r.links.filter fun l => !s.fuses.links.contains l }
  let bare := fun f => ((List.range 30).filter fun c => s.noSpare f c).length
  let s := (List.range 56).foldl (fun s f => s.setFld F.MSH_FLD_STATE_NOSPARE f (bare f)) s
  let s := s.setFld F.MSH_MOD_REPAIR_NOSPARE 0 (((List.range 56).map fun f => s.fld F.MSH_FLD_STATE_NOSPARE f).sum)
  let s := s.setFld F.MSH_MOD_REPAIR_RETIRED 0 ((List.range 56).filter fun f => s.fld F.MSH_FLD_STATE_STATE f != 0).length
  let s := s.setFld F.MSH_MOD_REPAIR_FENCED 0 ((List.range 56).filter fun f => s.fld F.MSH_FLD_STATE_STATE f == 2).length
  let s := s.setFld F.MSH_MOD_REPAIR_LINKS 0 s.fencedLinks.length
  s.setFld F.MSH_MOD_SHIP_NOSPARE 0 (s.fuses.columns.filter fun e => bitOf e.2 24).length

/-- LPDDR_TRAINING: devices train, or fail and are recorded, with a service request (R131). -/
def State.trainLpddr (s : State) (failed : List (Fin 32)) : State :=
  (List.range 32).foldl (fun s d =>
    if failed.any fun x => x.val == d then ((s.setFld F.LPD_DEV_STATUS_FAILED d 1).log 0x05 0x2005 (deviceField d) d).service 5
    else s.setFld F.LPD_DEV_STATUS_TRAINED d 1) s

/-! ## Images as they stand in flash, R415; the scan library of one, R352 -/

/-- A byte of an image. -/
def FwImage.byte : FwImage → Nat → Byte
  | .shipped, i => Config.shippedByte i
  | .written _ cells _, i => mapGet (fun _ => (0 : Byte)) cells i

/-- Bytes of an image. -/
def FwImage.bytes (m : FwImage) (off n : Nat) : List Byte := (List.range n).map fun i => m.byte (off + i)

/-- A number in an image. -/
def FwImage.num (m : FwImage) (off n : Nat) : Nat := ofBytes (m.bytes off n)

/-- Component entry i of the header: KIND, OFFSET, LENGTH and where its digest stands. -/
def FwImage.component (m : FwImage) (i : Nat) : Nat × Nat × Nat × Nat :=
  let o := 96 + 84 * i
  (m.num o 4, m.num (o + 4) 8, m.num (o + 12) 8, o + 20)

/-- The 8 component entries. -/
def FwImage.components (m : FwImage) : List (Nat × Nat × Nat × Nat) := (List.range 8).map m.component

/-- Does a component of an image have the SHAKE256 digest that the header gives? -/
def FwImage.componentFits (m : FwImage) (c : Nat × Nat × Nat × Nat) : Bool :=
  shake256 (m.bytes c.2.1 c.2.2.1) 64 == m.bytes c.2.2.2 64

/-- Is the scan library of an image, its component of KIND 5, whole? That of the image that the module shipped with is. -/
def FwImage.libraryFits (m : FwImage) : Bool :=
  match m with
  | .shipped => true
  | .written .. => m.components.any fun c => c.1 == 5 && m.componentFits c

/-- The image of a slot on a device. -/
def FlashDev.slot (d : FlashDev) (n : Nat) : Option FwImage := if n = 0 then d.slot0 else d.slot1

/-- The device that gives the running image's scan library, and the image it gives: A, or B if A fails; none when both fail (R352). `reads`
tells the first device whose flash can be read: A (0), B (1) or neither (2). -/
def State.librarySource (s : State) (reads : Fin 3) : Option (Nat × FwImage) :=
  let slot := s.fld F.FWU_STATUS_ACTIVE
  let a := (s.flashA.slot slot).filter FwImage.libraryFits
  let b := (s.flashB.slot slot).filter FwImage.libraryFits
  if reads = 2 then none
  else if reads = 0 ∧ a.isSome then a.map fun m => (0, m)
  else b.map fun m => (1, m)

/-- The scan library is loaded into its region of LPDDR from the first device on which its digest fits (R352). -/
def State.loadLibrary (s : State) (reads : Fin 3) : State :=
  match s.librarySource reads with
  | none =>
    let s := s.setFld F.INT_LIB_STATE 0 2
    (s.log 0x0F 0x8009 0 (s.rd .INT_LIB)).service 7
  | some (device, m) =>
    let s : State := { s with integ := { s.integ with library := some m } }
    let s := s.setFld F.INT_LIB_VERSION 0 (Config.libraryVersion (s.fld F.FWU_VERSION_RUN)).toNat
    ((s.setFld F.INT_LIB_STATE 0 1).setFld F.INT_LIB_DEVICE 0 device).serviceOver 7

/-- The ages of the positions stood still while the wafer was off. -/
def State.ageOn (s : State) : State :=
  match s.domains.offAt with
  | none => s
  | some t =>
    if t = s.up then s.updDomains fun d => { d with offAt := none }
    else
    let keys := List.range 26880
    let s : State := { s with positions := keys.foldl (fun m k =>
      let x := mapGet (fun _ => Position.init) m k
      mapSet (fun _ => Position.init) k { x with agedFrom := x.agedFrom + s.up - t } m) s.positions }
    s.updDomains fun d => { d with offAt := none }

/-- Steps 6 to 11: settings, coordinates, repairs, failed elements, LPDDR, the scan library, and the plans and saved face maps of
the deck; group 3 runs where it is due, and the optical engines carry light (R381). Mission mode begins with the tick that follows. -/
def State.waferUp (s : State) (x : WaferStart) : State :=
  let v := s.domains.linkVer
  let s := s.wr .LNK_VERSION 0 (v + (v - 1) * 2 ^ 8 + (v + 1) * 2 ^ 16)
  let ctrl := s.rd .TIM_CTRL
  let s := s.writeSettings.loadCoords.applyRepairs
  let s := if s.rd .TIM_CTRL = ctrl then s else s.sourceChosen
  let s := x.elements.foldl State.elementFailed s
  let s := ((s.trainLpddr x.failed).loadLibrary x.library).ageOn
  let s := s.updDomains fun d => { d with wafer := true }
  let s := ((List.range 56).foldl State.refreshTest s).refreshCond
  if s.cal.laserDue then s.laserRun else s.opticsOn

/-- Does the control domain run an image, out of reset? -/
def State.booted (s : State) : Bool := s.domains.control && !s.domains.booting && s.fld F.FWU_STATUS_STATE != 2

/-- WAFER_RESET: a wafer reset by control-complex command runs the wafer steps of the power-up sequence, R458; also the one that the
control complex issues at its start. A wafer that a thermal shutdown switched off stays off (R481). -/
def execWaferReset (x : WaferStart) (s : State) : Res :=
  if s.booted && s.domains.shutAt.isNone then .next (s.waferDown.waferUp x) else .next s

/-! ## Thermal shutdown, R480 and R481 -/

/-- THERMAL_SHUTDOWN: a die sensor at 110 °C for 4 ticks or a converter at 125 °C (`conv`) switches the wafer converters off, R480; a
second one within 10 minutes of a restart keeps them off (R481). -/
def execThermalShutdown (conv : BitVec 8) (s : State) : Res :=
  if s.domains.wafer && (decide (s.domains.hot110 ≥ 4) || decide (conv.toNat ≥ 125)) then
    let again := match s.domains.restartAt with
      | some t => decide (s.up < t + 600 * second)
      | none => false
    .next (s.waferDown.lasersLost.updDomains fun d => { d with shutAt := some s.up, keepOff := d.keepOff || again })
  else .next s

/-- WAFER_RESTART: 60 s after a thermal shutdown with every converter below 85 °C (`conv` the hottest) the control complex restarts the
wafer, R481. -/
def execWaferRestart (conv : BitVec 8) (x : WaferStart) (s : State) : Res :=
  match s.domains.shutAt with
  | some t =>
    if s.booted && !s.domains.keepOff && decide (s.up ≥ t + 60 * second) && decide (conv.toNat < 85) then
      .next ((s.updDomains fun d => { d with shutAt := none, restartAt := some s.up }).waferUp x)
    else .next s
  | none => .next s

/-! ## The control domain goes down -/

/-- A port's side of this module is reset: its session number rises, and it waits to resynchronise. -/
def Port.restart (p : Port) : Port := { p with up := false, session := p.session + 1 }

/-- Registers of the control domain that a reset leaves: machine time and the tick, which run on; calibration (R381); the mirrors of
the cartridge; the recorder's, whose areas stay (R447). -/
def keptBlocks : List Block := [.FTK, .TIM, .CAL, .MET, .EVR]

/-- A control-complex reset (1) or MOD_RST_N (2): every job ends, completions are lost, connections close (Table 13.9); the wafer goes
down; open records close and CONTROL_RESET is written (R447); the lock is open again (R495); metering starts again (R407). -/
def State.controlDown (s : State) (source : Nat) : State :=
  let last := s.fld F.FWU_STATUS_LAST
  let feeds := bits (s.rd .PWR_STATUS) 0 2
  let volts := s.power
  let s : State := { s with jobs := [], works := [], conns := [] }
  let s := s.waferDown
  let s := ((domainBlocks .control).filter fun b => !keptBlocks.contains b).foldl State.resetBlock s
  let s := (s.setFld F.FWU_STATUS_LAST 0 last).wr .PWR_STATUS 0 (setBits (s.rd .PWR_STATUS) 0 2 feeds)
  let closeAll := fun (l : List EvRec) => l.map fun e => { e with opened := false }
  let s : State := { s with
    evr := { s.evr with circ := closeAll s.evr.circ, perm := closeAll s.evr.perm }
    power := { Power.init with voltsA := volts.voltsA, voltsB := volts.voltsB }
    access := { s.access with stations := [], header := none, reply := none } }
  let s := s.updDomains fun d => { d with booting := true, deckPort := d.deckPort.restart, cartPort := d.cartPort.restart }
  (if s.cart.seated then s.meterStart else s).refreshCond.log 0x00 0x0005 0 source

/-- CONTROL_RESET: a control-complex reset restarts the control domain, which then resets the wafer, R458; BOOT and the wafer reset
that the control complex issues at its start follow. -/
def execControlReset (s : State) : Res := if s.domains.control then .next (s.controlDown 1) else .next s

/-! ## Loss of power -/

/-- Both feeds are lost: wafer and control stop at once, their registers and the recorder are lost; the deck runs on hold-up (R464). -/
def State.powerOff (s : State) : State :=
  let s : State := { s with jobs := [], works := [], conns := [] }
  let s := s.waferDown
  let s := ((domainBlocks .control).filter fun b => !(s.domains.deck && b == .CAL)).foldl State.resetBlock s
  let s : State := if s.domains.deck then s.calHeld else { s with cal := { s.cal with waiting := [], run := none, laser := none } }
  let s : State := { s with evr := Recorder.empty, power := { Power.init with goodA := s.power.goodA, goodB := s.power.goodB }, time := TimeBlock.init, access := SetupSide.init }
  let s := s.updDomains fun d => { d with control := false, booting := true, shutAt := none, restartAt := none, keepOff := false
                                          deckPort := d.deckPort.restart, cartPort := d.cartPort.restart }
  if s.domains.deck then (s.setFld F.DCK_STATUS_HOLDUP 0 1).updDeck fun d => { d with holdupAt := some s.up } else s

/-- FEED_LOST: a feed below 44 V for 2 µs or above 60 V is declared lost and the budget is reduced at the next tick, R374; with both lost, wafer and control stop at once (R464).
`volts` is its voltage in 0.1 V. -/
def execFeedLost (feed : Fin 2) (volts : BitVec 12) (s : State) : Res :=
  let fld := if feed = 0 then F.PWR_STATUS_FEED_A else F.PWR_STATUS_FEED_B
  let s := s.voltsSeen feed volts.toNat
  if !s.flag fld ∨ (440 ≤ volts.toNat ∧ volts.toNat ≤ 600) then .next s
  else
    let s := (((s.setFld fld 0 0).bump .PWR_FEED_LOSS).log 0x11 0x8005 0 (feed.val + volts.toNat * 2)).service 2
    .next (if s.flag F.PWR_STATUS_FEED_A || s.flag F.PWR_STATUS_FEED_B then s else s.powerOff)

/-- The deck domain is lost: every path is dropped, and lanes that used the deck see no light (R242). -/
def State.deckLost (s : State) : State :=
  let s := s.deckReset.deckCalLost
  let s := if s.domains.control then s else s.resetBlock .CAL
  (s.setFld F.SRV_STATUS_READY 0 0).updDomains fun d => { d with deck := false, deckPort := { d.deckPort with up := false } }

/-- DECK_POWER_LOSS: both feeds lost make the deck run on hold-up, and beyond 20 ms (`expired`) the deck domain is lost, R240. -/
def execDeckPowerLoss (expired : Bool) (s : State) : Res :=
  if !s.domains.deck then .next s
  else if expired then .next s.deckLost
  else .next ((s.setFld F.DCK_STATUS_HOLDUP 0 1).updDeck fun d => { d with holdupAt := some s.up })

/-- After a deck reset the control complex writes the plans and the saved face maps, and then paths, as one set (R243): the entries of a
path table that it knows. -/
def State.deckRestore (s : State) (paths : List Nat) : State :=
  if !s.booted then s
  else
    let s := s.writePlans
    let s := match s.savedRecords with
      | some r => r.faceMaps.foldl (fun s e => s.wr .DCK_FACE_MAP e.1 e.2) s
      | none => s
    if paths.isEmpty then s
    else
      let s := ((List.range paths.length).zip paths).foldl (fun s e => s.wr .DCK_CMD_BUF e.1 e.2) (s.wr .DCK_CMD_TIME 0 0)
      s.deckStart paths.length

/-- The entries that make the paths of the table again (Table 9.4). -/
def State.pathEntries (s : State) : List Nat :=
  s.paths.map fun o => o + s.pathInput o * 2 ^ 9 + (if s.fld F.DCK_PATH_TYPE o = 3 then 2 ^ 20 else 0)

/-- A deck reset with the check of MREF before the run of groups 0 to 2 (R380, R381). -/
def State.deckRestart (s : State) (mref : Nat) : State :=
  let paths := s.pathEntries
  ((s.deckReset.deckCalibrates mref).updDomains fun d => { d with deck := true }).deckRestore paths

/-- A write of DCK_CTRL: the key, then PARK. RESET_KEY 0 has no effect; another value than 0xD5, or 0xD5 while the deck is
not parked, is ignored and recorded, and PARK of the same write is set (R242, R501). -/
def State.deckCtrl (s : State) (v : Nat) : State :=
  let key := bits v 8 8
  if key = 0xD5 ∧ s.deckState = deckParked then { s with free := s.free + 1 }.deckRestart (Config.mrefMean s.free).toNat
  else
    let s := if key = 0 then s else s.refuse .DCK_CTRL 0 v
    if bitOf v 0 then s.parkOn
    else s.unpark

/-- DECK_RESET_KEY: a write of DCK_CTRL with RESET_KEY, R242; 0xD5 resets a parked deck. -/
def execDeckResetKey (key : BitVec 8) (park : Bool) (s : State) : Res :=
  .next (s.deckCtrl (bit park + key.toNat * 2 ^ 8))

/-- DECK_RESET: a deck reset clears paths, face maps and plans, recalibrates and recomputes the servo matrices, R242. `mref` is the mean
of MREF in µV. -/
def execDeckReset (mref : BitVec 24) (s : State) : Res := .next (s.deckRestart mref.toNat)

/-! ## Isolated ports, R456 and R457 -/

/-- An isolated port. -/
def Domains.port (d : Domains) (p : PortId) : Port :=
  match p with
  | .deck => d.deckPort
  | .cartridge => d.cartPort

/-- Change an isolated port. -/
def State.updPort (s : State) (p : PortId) (g : Port → Port) : State :=
  s.updDomains fun d => match p with
    | .deck => { d with deckPort := g d.deckPort }
    | .cartridge => { d with cartPort := g d.cartPort }

/-- HELLO: a HELLO message on an isolated port is received and the peer's session number is compared, R456: a peer that returns, or
whose number changed, must resynchronise first. -/
def execHello (p : PortId) (session : BitVec 32) (s : State) : Res :=
  .next (s.updPort p fun x => { x with heardAt := s.up, peer := session.toNat, up := x.up && x.peer == session.toNat })

/-- PEER_DOWN: a side that misses 4 HELLOs in a row, one each 10 µs, treats its peer as down, R456. -/
def execPeerDown (p : PortId) (s : State) : Res :=
  if s.up ≥ (s.domains.port p).heardAt + 40000 * ns then .next (s.updPort p fun x => { x with up := false }) else .next s

/-- RESYNCHRONISATION: on a peer's return both sides exchange session and sequence numbers and resend unacknowledged messages, R457: the module
its records, the cartridge its log entries.
`session` is the peer's, `sent` the last of its messages that this side accepted. -/
def execResynchronisation (p : PortId) (session : BitVec 32) (s : State) : Res :=
  let s := s.updPort p fun x => { x with up := true, peer := session.toNat, heardAt := s.up }
  match p with
  | .cartridge => .next (if s.cart.powered then s.resend.pushLog else s.resend)
  | .deck => .next s

end Sys2Proof.Machine
end

