-- ==== Sys2Proof/Machine/Fwu.lean ====
section
/-!
DEFINITION. Sys2Proof/Machine/Fwu.lean: firmware images and their checks (R415 to R417), anti-rollback (R418), boot records and the boot
(R426 to R430), the commands of FWU_CMD (R424, R425), confirmation (R427) and attestation (R420 to R423).
-/
namespace Sys2Proof.Machine

/-! ## Fuses, R418 -/

/-- Does a pair of fuses read as 1? -/
def Fuses.pair (f : Fuses) (k : Nat) : Bool := f.left.contains k || f.right.contains k

/-- The fused security version: the highest step whose pair reads 1, and 0 when none does. -/
def Fuses.version (f : Fuses) : Nat := (f.left ++ f.right).foldl max 0

/-- Burn one pair, unless it is burned. -/
def Fuses.burnPair (f : Fuses) (k : Nat) : Fuses :=
  if f.pair k then f else { f with left := f.left ++ [k], right := f.right ++ [k] }

/-- Burn to a version: every pair from 1 on that is not burned, in ascending order. -/
def Fuses.burnTo (f : Fuses) (v : Nat) : Fuses := (rangeFrom 1 (min 127 v)).foldl Fuses.burnPair f

/-! ## Images, R415 and R416 -/

/-- SEC_VER of an image. -/
def FwImage.secVer (m : FwImage) : Nat := m.num 7 1
/-- FW_VERSION of an image. -/
def FwImage.fwVersion (m : FwImage) : Nat := m.num 8 4
/-- SETTINGS_VER of an image. -/
def FwImage.settingsVer (m : FwImage) : Nat := m.num 12 2
/-- LINK_VER of an image; the reset value of LNK_VERSION.OWN for the one shipped. -/
def FwImage.linkVer (m : FwImage) : Nat :=
  match m with
  | .shipped => 4
  | _ => m.num 14 1
/-- KEY of an image. -/
def FwImage.key (m : FwImage) : Nat := m.num 5 1
/-- Does an image revoke key 0? -/
def FwImage.revokes (m : FwImage) : Bool := bitOf (m.num 6 1) 0

/-- Is the header invalid (RESULT 5)? -/
def FwImage.headerBad (m : FwImage) : Bool :=
  let len := m.num 16 8
  let kinds := m.components.map (·.1)
  m.num 0 4 != 0x3257584F || m.num 4 1 != 1 || m.num 15 1 != 6 || decide (m.num 5 1 > 1) || decide (m.num 6 1 > 1) ||
    decide (m.num 7 1 > 127) || m.num 81 15 != 0 || m.num 768 142 != 0 || decide (len > 2 ^ 34) ||
    (m.revokes && m.key == 0) ||
    !((rangeFrom 1 6).all fun k => (kinds.filter (· == k)).length == 1) || (kinds.filter (· == 0)).length != 2 ||
    m.components.any fun c => c.1 != 0 && decide (c.2.1 + c.2.2.1 > len)

/-- Bytes 0 to 909, which the signature covers. -/
def FwImage.signed (m : FwImage) : List Byte := m.bytes 0 910

/-- Does the key digest, the revocation or the signature fail (RESULT 6)? -/
def FwImage.keyBad (m : FwImage) (fuses : Fuses) : Bool :=
  let pub := m.bytes 24 57
  shake256 pub 32 != Config.keyDigest m.key || (m.key == 0 && fuses.revoked) ||
    !edVerify pub (ascii "OX2-FW") m.signed (m.bytes 910 114)

/-- Does a component's digest fail (RESULT 7)? -/
def FwImage.digestBad (m : FwImage) : Bool := m.components.any fun c => c.1 != 0 && !m.componentFits c

/-- The check of R416, in its order: 0 valid; 5 header; 6 key or signature; 8 SEC_VER below the fused version; 7 a digest. The image
that the module shipped with passes all but the fuses' tests. -/
def FwImage.check (m : FwImage) (fuses : Fuses) : Nat :=
  match m with
  | .shipped => if m.key = 0 ∧ fuses.revoked then 6 else if m.secVer < fuses.version then 8 else 0
  | .written .. =>
    if m.headerBad then 5
    else if m.keyBad fuses then 6
    else if m.secVer < fuses.version then 8
    else if m.digestBad then 7
    else 0

/-- The image measurement: SHAKE256 of header bytes 0 to 909 (R416). -/
def FwImage.measure (m : FwImage) : List Byte := shake256 m.signed 64

/-- The digest of component 1 as the header gives it. -/
def FwImage.first (m : FwImage) : List Byte :=
  match m.components.find? fun c => c.1 == 1 with
  | some c => m.bytes c.2.2.2 64
  | none => toBytes 64 0

/-! ## Slots and boot records on the two devices -/

/-- Set the image of a slot. -/
def FlashDev.setSlot (d : FlashDev) (n : Nat) (m : Option FwImage) : FlashDev :=
  if n = 0 then { d with slot0 := m } else { d with slot1 := m }

/-- How a slot is judged, with the device read: A, or B when A's copy fails its check (R414). -/
def State.slotCheck (s : State) (n : Nat) : Nat × Nat :=
  let judge := fun (m : Option FwImage) => match m with
    | some m => m.check s.fuses
    | none => 5
  match judge (s.flashA.slot n) with
  | 0 => (0, 0)
  | r => match judge (s.flashB.slot n) with
    | 0 => (0, 1)
    | q => (if (s.flashA.slot n).isSome then r else q, 0)

/-- The image of a slot that passes its check. -/
def State.validSlot (s : State) (n : Nat) : Option FwImage :=
  match s.slotCheck n with
  | (0, 0) => s.flashA.slot n
  | (0, _) => s.flashB.slot n
  | _ => none

/-- The valid copies 0 and 1 of the boot record. -/
def State.bootCopies (s : State) : Option BootRec × Option BootRec :=
  ((match s.flashA.boot0 with | some r => some r | none => s.flashB.boot0),
   (match s.flashA.boot1 with | some r => some r | none => s.flashB.boot1))

/-- The winning boot record: the valid copy with the higher SEQ (R426). -/
def State.winning (s : State) : Option BootRec :=
  match s.bootCopies with
  | (some a, some b) => if a.seq < b.seq then some b else some a
  | (some a, none) => some a
  | (none, b) => b

/-- The copy that the next write replaces: an invalid one, or the one with the lower SEQ. -/
def State.bootTarget (s : State) : Nat :=
  match s.bootCopies with
  | (some a, some b) => if a.seq < b.seq then 0 else 1
  | (some _, none) => 1
  | (none, _) => 0

/-- Put a boot record into a copy of a device. -/
def FlashDev.putBoot (d : FlashDev) (n : Nat) (r : Option BootRec) : FlashDev :=
  if n = 0 then { d with boot0 := r } else { d with boot1 := r }

/-- A boot-record write, with the higher SEQ plus one, to both devices, A first (R414, R426). -/
def State.writeBoot (s : State) (r : BootRec) (okA okB : Bool) : State :=
  let n := s.bootTarget
  let r := { r with seq := ((s.winning.map (·.seq)).getD 0) + 1 }
  let s : State := { s with flashA := s.flashA.putBoot n (if okA then some r else none)
                            flashB := s.flashB.putBoot n (if okB then some r else none) }
  let s := if okA then s else s.flashFail 0 (4096 * n)
  if okB then s else s.flashFail 1 (4096 * n)

/-- A fallback: the record with ACTIVE = PREV, CONFIRMED, no attempts; counted, shown in LAST and recorded (R426). -/
def State.fallBack (s : State) (r : BootRec) (last : Nat) (okA okB : Bool) : State :=
  let s := s.writeBoot { r with active := r.prev, state := 0, attempts := 0 } okA okB
  ((s.bump .FWU_REVERTS).setFld F.FWU_STATUS_LAST 0 last).log 0x14 0xC001 0 (last + r.prev * 8)

/-! ## Settings, R429 and R430 -/

/-- A settings copy, from device A or B. -/
def State.settingsCopy (s : State) (n : Nat) : Option Settings :=
  if n = 0 then (match s.flashA.set0 with | some x => some x | none => s.flashB.set0)
  else (match s.flashA.set1 with | some x => some x | none => s.flashB.set1)

/-- Put a settings copy into both devices. -/
def State.putSettings (s : State) (n : Nat) (x : Settings) (okA okB : Bool) : State :=
  let put := fun (d : FlashDev) (v : Option Settings) => if n = 0 then { d with set0 := v } else { d with set1 := v }
  let s : State := { s with flashA := put s.flashA (if okA then some x else none)
                            flashB := put s.flashB (if okB then some x else none) }
  let off := 2 * 4096 + n * 0x1000000
  let s := if okA then s else s.flashFail 0 off
  if okB then s else s.flashFail 1 off

/-- The valid copies, with their numbers. -/
def State.settingsCopies (s : State) : List (Nat × Settings) :=
  [0, 1].filterMap fun n => (s.settingsCopy n).map fun x => (n, x)

/-- The copy with the highest SEQ of a list. -/
def newestCopy : List (Nat × Settings) → Option (Nat × Settings)
  | [] => none
  | x :: xs => match newestCopy xs with
    | some y => if x.2.seq < y.2.seq then some y else some x
    | none => some x

/-- Defaults are written into a copy with a SEQ, and recorded. -/
def State.defaultsTo (s : State) (m : FwImage) (n seq : Nat) (okA okB : Bool) : State :=
  let s := s.putSettings n { version := m.settingsVer, seq := seq, body := Config.defaultSettings m.fwVersion } okA okB
  (s.setFld F.FWU_SETTINGS_DEFAULTS 0 1).log 0x14 0xC003 0 seq

/-- The lowest level writes defaults into copy 0 with SEQ 1 when no copy is valid (R429). -/
def State.settingsFloor (s : State) (m : FwImage) (okA okB : Bool) : State :=
  if s.settingsCopies.isEmpty then s.defaultsTo m 0 1 okA okB else s

/-- How the runtime leaves the settings (R430): it runs on a copy, or it writes a boot record and restarts (REVERT 2 in a trial,
SETTINGS_RESET 3 once confirmed). -/
def State.settingsUse (s : State) (m : FwImage) (r : BootRec) (okA okB : Bool) : State × Option Nat :=
  let own := m.settingsVer
  match newestCopy (s.settingsCopies.filter fun x => x.2.version == own || Config.readsSettings own x.2.version) with
  | none =>
    let st := if r.state = 1 then 2 else 3
    (s.writeBoot { r with state := st } okA okB, some st)
  | some (n, x) =>
    if x.version < own then
      let y : Settings := { version := own, seq := x.seq + 1, body := Config.migrateSettings own x.version x.body }
      (((s.putSettings (1 - n) y okA okB).setFld F.FWU_SETTINGS_VERSION 0 own).setFld F.FWU_SETTINGS_COPY 0 (1 - n), none)
    else ((s.setFld F.FWU_SETTINGS_VERSION 0 x.version).setFld F.FWU_SETTINGS_COPY 0 n, none)

/-! ## The boot -/

/-- Recovery: no image runs (R428). -/
def State.recover (s : State) (r : Option BootRec) : State :=
  let s := (s.setFld F.FWU_STATUS_STATE 0 2).setFld F.FWU_STATUS_ATTEMPTS 0 0
  let s := (s.setFld F.FWU_SECVER_FUSED 0 s.fuses.version).setFld F.FWU_SECVER_REVOKED0 0 (bit s.fuses.revoked)
  (s.log 0x14 0xE003 0 ((r.map (·.active)).getD 0)).updDomains fun d => { d with booting := false }

/-- A boot of a CONFIRMED record burns what its image's SEC_VER, and a pending REVOKE0, still lack (R427), and the confirmation that it so
finishes stages the deck firmware (R243). -/
def State.finishBurn (s : State) (m : FwImage) : State :=
  let before := s.fuses.version
  let revoke := m.revokes && m.key == 1 && !s.fuses.revoked
  if before < m.secVer ∨ revoke then
    let s : State := { s with fuses := { s.fuses.burnTo m.secVer with revoked := s.fuses.revoked || revoke } }
    let s := s.setFld F.DCK_FW_STAGED 0 (Config.deckVersion m.fwVersion).toNat
    (s.setFld F.FWU_STATUS_FINISHED 0 1).log 0x14 0xC002 0 (before + s.fuses.version * 2 ^ 7 + bit revoke * 2 ^ 14)
  else s

/-- FWU_VERSION.OTHER, for the slot that does not run: zero where it is empty or invalid. -/
def State.showOther (s : State) (slot : Nat) : State :=
  s.setFld F.FWU_VERSION_OTHER 0 (match s.validSlot slot with
    | some x => x.fwVersion
    | none => 0)

/-- The registers that show what runs. -/
def State.showBoot (s : State) (slot state attempts : Nat) (m : FwImage) : State :=
  let s := ((s.setFld F.FWU_STATUS_ACTIVE 0 slot).setFld F.FWU_STATUS_STATE 0 state).setFld F.FWU_STATUS_ATTEMPTS 0 attempts
  let s := s.setFld F.FWU_STATUS_DEVICE 0 (s.slotCheck slot).2
  let s := ((s.setFld F.FWU_SECVER_FUSED 0 s.fuses.version).setFld F.FWU_SECVER_IMAGE 0 m.secVer).setFld
    F.FWU_SECVER_REVOKED0 0 (bit s.fuses.revoked)
  (s.setFld F.FWU_VERSION_RUN 0 m.fwVersion).showOther (1 - slot)

/-- The module runs an image: its settings, its version of the link protocol, and the keys that layer 0 derived with the fused version of this
boot (R420). -/
def State.runImage (s : State) (slot state attempts : Nat) (m : FwImage) : State :=
  let s := s.showBoot slot state attempts m
  s.updDomains fun d => { d with booting := false, trialAt := s.up, linkVer := m.linkVer, keyVer := s.fuses.version }

/-- What the lowest level does with the winning record, again after each restart that a boot causes, at most `fuel` times (R426 to
R430). -/
def State.bootGo (s : State) (okA okB : Bool) : Nat → State
  | 0 => s.recover s.winning
  | fuel + 1 =>
    match s.winning with
    | none => s.recover none
    | some r =>
      match r.state with
      | 0 =>
        match s.validSlot r.active, s.validSlot (1 - r.active) with
        | some m, _ =>
          let s := (s.finishBurn m).settingsFloor m okA okB
          match s.settingsUse m r okA okB with
          | (s, none) => s.runImage r.active 0 0 m
          | (s, some _) => s.bootGo okA okB fuel
        | none, some m =>
          let s := (s.setFld F.FWU_STATUS_LAST 0 6).settingsFloor m okA okB
          match s.settingsUse m { r with active := 1 - r.active, prev := r.active } okA okB with
          | (s, none) => s.runImage (1 - r.active) 0 0 m
          | (s, some _) => s.bootGo okA okB fuel
        | none, none => s.recover (some r)
      | 1 =>
        match s.validSlot r.active with
        | none => (s.fallBack r 6 okA okB).bootGo okA okB fuel
        | some m =>
          if r.attempts ≥ 3 then (s.fallBack r 2 okA okB).bootGo okA okB fuel
          else
            let r := { r with attempts := r.attempts + 1 }
            let s := (s.writeBoot r okA okB).settingsFloor m okA okB
            match s.settingsUse m r okA okB with
            | (s, none) => s.runImage r.active 1 r.attempts m
            | (s, some _) => s.bootGo okA okB fuel
      | 2 => (s.fallBack r 4 okA okB).bootGo okA okB fuel
      | _ =>
        match s.validSlot r.active with
        | none => s.recover (some r)
        | some m =>
          let copies := s.settingsCopies
          let seq := ((newestCopy copies).map (·.2.seq)).getD 0
          let n := match s.settingsCopy 0, s.settingsCopy 1 with
            | some a, some b => if a.seq < b.seq then 0 else 1
            | some _, none => 1
            | none, _ => 0
          let s := s.defaultsTo m n (seq + 1) okA okB
          let s := (s.writeBoot { r with state := 0, attempts := 0 } okA okB).setFld F.FWU_STATUS_LAST 0 5
          s.bootGo okA okB fuel

/-- The boot chain from reset. -/
def State.bootChain (s : State) (okA okB : Bool) : State := (s.updDomains fun d => { d with control := true }).bootGo okA okB 8

/-- BOOT: the lowest level acts on the winning boot record and boots, falls back, resets settings or enters recovery, R426. `okA` and
`okB` say which flash device takes the writes. -/
def execBoot (okA okB : Bool) (s : State) : Res :=
  if s.domains.control && s.domains.booting && !s.domains.resetHeld then .next (s.bootChain okA okB) else .next s

/-! ## FWU_CMD, R424 and R425 -/

/-- Does a trial run? -/
def State.inTrial (s : State) : Bool := s.fld F.FWU_STATUS_STATE == 1
/-- Is the module in recovery? -/
def State.inRecovery (s : State) : Bool := s.fld F.FWU_STATUS_STATE == 2

/-- The slot that an update writes: the inactive one, slot 0 in recovery. -/
def State.updateSlot (s : State) : Nat := if s.inRecovery then 0 else 1 - s.fld F.FWU_STATUS_ACTIVE

/-- RESULT and PHASE of a command that has ended. -/
def State.fwuDone (s : State) (op result phase : Nat) : State :=
  ((s.setFld F.FWU_CMD_OP 0 op).setFld F.FWU_CMD_RESULT 0 result).setFld F.FWU_CMD_PHASE 0 phase

/-- PHASE now. -/
def State.phase (s : State) : Nat := s.fld F.FWU_CMD_PHASE

/-- BEGIN with the LENGTH of FWU_IMG. -/
def State.fwuBegin (s : State) : State :=
  let len := s.fld F.FWU_IMG_OFFSET
  if s.inTrial then s.fwuDone 0 2 s.phase
  else if len > 2 ^ 34 then s.fwuDone 0 11 s.phase
  else
    let m := some (FwImage.written len [] [])
    let n := s.updateSlot
    let s : State := { s with flashA := s.flashA.setSlot n m, flashB := s.flashB.setSlot n m }
    (s.setFld F.FWU_VERSION_OTHER 0 0).fwuDone 0 0 1

/-- BEGIN: FWU_CMD BEGIN takes the image length and marks the inactive slot empty, R424. -/
def execBegin (length : BitVec 40) (s : State) : Res := .next (s.setFld F.FWU_IMG_OFFSET 0 length.toNat).fwuBegin

/-- How far the chunks of a list reach without a gap, from a position. -/
def reach (chunks : List (Nat × Nat)) : Nat → Nat → Nat
  | 0, p => p
  | fuel + 1, p =>
    match chunks.find? fun c => decide (c.1 ≤ p) && decide (p < c.1 + c.2) with
    | some c => reach chunks fuel (c.1 + c.2)
    | none => p

/-- A chunk is put into an image. -/
def FwImage.put (m : FwImage) (off : Nat) (bs : List Byte) : FwImage :=
  match m with
  | .shipped => .shipped
  | .written len cells chunks => .written len (mapSetList (fun _ => (0 : Byte)) off bs cells) (chunks ++ [(off, bs.length)])

/-- Has every byte of an image been written? -/
def FwImage.complete : FwImage → Bool
  | .shipped => true
  | .written len _ chunks => decide (reach chunks (chunks.length + 1) 0 ≥ len)

/-- LENGTH given by BEGIN. -/
def FwImage.length : FwImage → Nat
  | .shipped => 0
  | .written len _ _ => len

/-- WRITE: a chunk of FWU_BUF goes into the slot on both devices, device A first. -/
def State.fwuWrite (s : State) (okA okB : Bool) : State :=
  let n := s.updateSlot
  let off := s.fld F.FWU_IMG_OFFSET
  let len := s.fld F.FWU_IMG_LEN
  let image := match s.flashA.slot n with
    | some m => some m
    | none => s.flashB.slot n
  match image with
  | none => s.fwuDone 1 2 s.phase
  | some m =>
    if s.phase = 0 then s.fwuDone 1 2 s.phase
    else if len = 0 ∨ len > 1048576 ∨ off + len > m.length then s.fwuDone 1 3 s.phase
    else
      let bs := toBytes len (s.rd .FWU_BUF)
      let put := fun (x : Option FwImage) (ok : Bool) => if ok then x.map fun x => x.put off bs else none
      let s : State := { s with flashA := s.flashA.setSlot n (put (s.flashA.slot n) okA)
                                flashB := s.flashB.setSlot n (put (s.flashB.slot n) okB) }
      let at_ := 2 * 4096 + 2 * 0x1000000 + 0x10000 + n * 2 ^ 34 + off
      let s := if okA then s else s.flashFail 0 at_
      let s := if okB then s else s.flashFail 1 at_
      if okA || okB then s.fwuDone 1 0 (if (m.put off bs).complete then 2 else 1) else s.fwuDone 1 4 s.phase

/-- FWU_WRITE: FWU_CMD WRITE copies a chunk of FWU_BUF into the inactive slot on both devices, R424. -/
def execFwuWrite (offset : BitVec 40) (len : BitVec 21) (okA okB : Bool) (s : State) : Res :=
  .next (((s.setFld F.FWU_IMG_OFFSET 0 offset.toNat).setFld F.FWU_IMG_LEN 0 len.toNat).fwuWrite okA okB)

/-- Is LINK_VER of an image outside ±1 of the running one (R425)? -/
def State.linkVerBad (s : State) (m : FwImage) : Bool :=
  let own := s.domains.linkVer
  decide (m.linkVer > own + 1) || decide (m.linkVer + 1 < own)

/-- VERIFY: the slot is read back and checked; a refused image is recorded. -/
def State.fwuVerify (s : State) : State :=
  if s.phase < 2 then s.fwuDone 2 2 s.phase
  else
    let n := s.updateSlot
    let r := match s.slotCheck n, s.validSlot n with
      | (0, _), some m => if !s.inRecovery && s.linkVerBad m then 9 else 0
      | (r, _), _ => r
    if r = 0 then (s.showOther (1 - s.fld F.FWU_STATUS_ACTIVE)).fwuDone 2 0 3 else (s.fwuDone 2 r 2).log 0x14 0xE002 0 r

/-- VERIFY: FWU_CMD VERIFY reads back and checks the inactive slot's image, R416. -/
def execVerify (s : State) : Res := .next s.fwuVerify

/-- ACTIVATE: a boot record is written and the control and wafer domains restart; in recovery the record is CONFIRMED for slot 0
(R424, R425, R428). -/
def State.fwuActivate (s : State) (okA okB : Bool) : State :=
  let jobs := !s.inRecovery && !s.jobs.isEmpty
  if jobs then s.fwuDone 3 10 s.phase
  else if s.phase ≠ 3 then s.fwuDone 3 2 s.phase
  else
    let n := s.updateSlot
    let r : BootRec := if s.inRecovery then { active := 0, prev := 0, state := 0, attempts := 0, seq := 0 }
      else { active := n, prev := 1 - n, state := 1, attempts := 0, seq := 0 }
    let s := s.writeBoot r okA okB
    if okA || okB then (s.fwuDone 3 0 s.phase).controlDown 1 else s.fwuDone 3 4 s.phase

/-- ACTIVATE: FWU_CMD ACTIVATE writes a TRIAL boot record and restarts the control and wafer domains, R425. -/
def execActivate (okA okB : Bool) (s : State) : Res := .next (s.fwuActivate okA okB)

/-- The image that runs: the active slot's, as the device it was read from holds it. -/
def State.runningImage (s : State) : FwImage :=
  let slot := s.fld F.FWU_STATUS_ACTIVE
  let (x, y) := if s.flag F.FWU_STATUS_DEVICE then (s.flashB.slot slot, s.flashA.slot slot)
    else (s.flashA.slot slot, s.flashB.slot slot)
  match x with
  | some m => m
  | none => y.getD .shipped

/-- Confirmation: the record, then the security-version fuses and any revoke fuse; the deck firmware is staged and the scan library
loaded (R417, R427, Table 18.6). -/
def State.confirm (s : State) (okA okB : Bool) (library : Fin 3) : State :=
  let slot := s.fld F.FWU_STATUS_ACTIVE
  let m := s.runningImage
  let s := s.writeBoot { active := slot, prev := 1 - slot, state := 0, attempts := 0, seq := 0 } okA okB
  if !(okA || okB) then s.fwuDone 4 4 s.phase
  else
    let s : State := { s with fuses := { s.fuses.burnTo m.secVer with revoked := s.fuses.revoked || (m.revokes && m.key == 1) } }
    let s := (s.showBoot slot 0 0 m).setFld F.FWU_STATUS_LAST 0 1
    let s := s.setFld F.DCK_FW_STAGED 0 (Config.deckVersion m.fwVersion).toNat
    (s.loadLibrary library).fwuDone 4 0 s.phase

/-- Do the start checks pass: settings read and fields loaded by a wafer that is up, LPDDR trained or its devices failed, and the deck and
cartridge ports resynchronised (R427)? -/
def State.startChecks (s : State) : Bool :=
  s.booted && s.domains.wafer && s.domains.deckPort.up && (s.domains.cartPort.up || !s.cart.seated) &&
    (List.range 32).all fun d => s.flag F.LPD_DEV_STATUS_TRAINED d || s.flag F.LPD_DEV_STATUS_FAILED d

/-- May a trial be confirmed: within TRIAL_S (R426), with AUTO = 1 once the start checks pass (R427)? -/
def State.mayConfirm (s : State) : Bool :=
  s.inTrial && decide (s.up < s.domains.trialAt + s.fld F.FWU_CFG_TRIAL_S * second) && (!s.flag F.FWU_CFG_AUTO || s.startChecks)

/-- CONFIRM: FWU_CMD CONFIRM, or automatic confirmation, writes a CONFIRMED record and burns the fuses, R427. `library` says from which
flash device on the scan library can then be read (0 A, 1 B, 2 neither). -/
def execConfirm (okA okB : Bool) (library : Fin 3) (s : State) : Res :=
  if s.mayConfirm then .next (s.confirm okA okB library) else .next (s.fwuDone 4 2 s.phase)

/-- FWU_CMD ABORT: PHASE returns to 0; recovery does not accept it (R428). -/
def State.fwuAbort (s : State) : State := if s.inRecovery then s.fwuDone 5 2 s.phase else s.fwuDone 5 0 0

/-- ABORT: FWU_CMD ABORT returns the update phase to idle, R424. -/
def execAbort (s : State) : Res := .next s.fwuAbort

/-- TRIAL_WATCHDOG: TRIAL_S expiring without confirmation writes a fallback record and restarts the control and wafer domains, R426. -/
def execTrialWatchdog (okA okB : Bool) (s : State) : Res :=
  if s.inTrial && s.domains.control && decide (s.up ≥ s.domains.trialAt + s.fld F.FWU_CFG_TRIAL_S * second) then
    match s.winning with
    | some r =>
      let s := s.writeBoot { r with active := r.prev, state := 0, attempts := 0 } okA okB
      let s := s.controlDown 1
      .next (((s.bump .FWU_REVERTS).setFld F.FWU_STATUS_LAST 0 3).log 0x14 0xC001 0 (3 + r.prev * 8))
    | none => .next s
  else .next s

/-- A write of FWU_CMD with START = 1. The operations that write flash find both devices working; a confirmation that no operand
describes loads the library from device A. -/
def State.fwuCmd (s : State) (op : Nat) : State :=
  match op with
  | 0 => s.fwuBegin
  | 1 => s.fwuWrite true true
  | 2 => s.fwuVerify
  | 3 => s.fwuActivate true true
  | 4 => if s.mayConfirm then s.confirm true true 0 else s.fwuDone 4 2 s.phase
  | 5 => s.fwuAbort
  | _ => s.fwuDone op 2 s.phase

/-! ## Attestation, R420 to R423 -/

/-- A certificate, Table 18.4, of the public key of `subject`, signed with the key of the issuer. -/
def certificate (kind : Nat) (subject measure : List Byte) (secVer : Nat) (issuer : List Byte) : List Byte :=
  let body := toBytes 2 0x4358 ++ toBytes 1 kind ++ toBytes 1 0 ++ slice (edPublic subject) 0 57 ++ toBytes 3 0 ++ slice measure 0 64 ++
    toBytes 1 secVer ++ toBytes 1 0 ++ toBytes 8 Config.serial.toNat ++ toBytes 4 0
  body ++ sign114 issuer "OX2-CERT" body

/-- Bytes 0 to 205 of the evidence, Table 18.5. -/
def State.evidence (s : State) (m : FwImage) : List Byte :=
  let swid := if s.fld F.MET_STATUS_STATE = 2 then s.rd .MET_SWID else 0
  toBytes 2 0x4556 ++ toBytes 2 s.selfId ++ toBytes 1 (s.fld F.FWU_STATUS_ACTIVE) ++
    toBytes 1 (s.fld F.FWU_STATUS_STATE) ++ toBytes 1 (s.fld F.FWU_SECVER_FUSED) ++ toBytes 1 s.domains.linkVer ++
    toBytes 8 Config.serial.toNat ++ m.first ++ m.measure ++ toBytes 4 m.fwVersion ++
    toBytes 2 (s.fld F.FWU_SETTINGS_VERSION) ++ toBytes 2 (s.fld F.DCK_FW_RUN) ++ toBytes 8 swid ++
    toBytes 32 (s.rd .FWU_ATT_NONCE) ++ toBytes 8 s.now ++ toBytes 6 0

/-- The evidence with the alias, layer-1 and device certificates, under the keys of this boot: a burn since then changes no key before the next
reset (R420). -/
def State.attestation (s : State) (m : FwImage) : List Byte :=
  let v := s.domains.keyVer
  let aliasK := aliasKey m.first v m.measure
  let body := s.evidence m
  body ++ sign114 aliasK "OX2-ATTEST" body ++ certificate 2 aliasK m.measure v (layerKey m.first v) ++
    certificate 1 (layerKey m.first v) m.first v deviceKey ++ certificate 0 deviceKey [] 0 authorityKey

/-- START of FWU_ATT_CMD; in recovery no runtime is there to answer. -/
def State.attest (s : State) : State :=
  if s.inRecovery then s else s.wr .FWU_ATT_WIN 0 (ofBytes (s.attestation s.runningImage))

/-- ATTEST: START of FWU_ATT_CMD forms signed evidence with the certificate chain in FWU_ATT_WIN, R423. -/
def execAttest (nonce : BitVec 256) (s : State) : Res := .next (s.wr .FWU_ATT_NONCE 0 nonce.toNat).attest

end Sys2Proof.Machine
end

