-- ==== Sys2Proof/Machine/PowerUp.lean ====
section
/-!
DEFINITION. Sys2Proof/Machine/PowerUp.lean: the power-up sequence of Table 20.3 (R461), and MOD_RST_N (R459).
-/
namespace Sys2Proof.Machine

/-- The recorder starts from the saved sequence number plus 2³⁶, or from 0, with the record POWER_UP (R434). -/
def State.recorderStart (s : State) : State :=
  let saved := match s.savedRecords with
    | some r => r.nextSeq
    | none => none
  let s : State := { s with evr := { Recorder.empty with next := match saved with | some n => n + 2 ^ 36 | none => 0 } }
  s.log 0x00 0x0001 0 (saved.getD 0)

/-- What the control domain takes from fuses and flash: trims in force, fuse slots, of which those that are invalid are recorded, untraced hours, ages of the positions, the copies of
the metrology log. A deck that was held keeps the trims of its groups (R240, Table 16.4). -/
def State.loadSaved (s : State) (held : Bool) : State :=
  let s : State := { s with cal := { s.cal with old := s.cal.slots.length, laserDue := true } }
  let s := ((if held then [3] else [0, 1, 2, 3]).foldl (fun (s : State) g => s.putTrims (s.goodTrims g)) s).showFuses.logInvalid
  let s := match s.savedRecords with
    | some r =>
      let ages := r.ages.foldl (fun (m : List (Nat × Position)) (a : Nat × Nat) =>
        mapSet (fun _ => Position.init) a.1 { Position.init with agedFrom := (s.up : Int) - a.2 } m) []
      { s with positions := ages }.setFld F.CAL_UNTRACED_H_HOURS 0 r.untraced
    | none => s
  s.showRing

/-- Is a feed within 48 to 60 V? -/
def feedGood (v : BitVec 12) : Bool := decide (480 ≤ v.toNat) && decide (v.toNat ≤ 600)

/-- The feeds as the control domain finds them; one that is absent counts as lost (Table 20.4). -/
def State.startFeeds (s : State) (a b : BitVec 12) : State :=
  let s := (s.setFld F.PWR_STATUS_FEED_A 0 (bit (feedGood a))).setFld F.PWR_STATUS_FEED_B 0 (bit (feedGood b))
  let s := (s.updPower fun p => { p with voltsA := a.toNat, voltsB := b.toNat }).feedSeen a.toNat b.toNat
  let lost := fun (s : State) (feed : Nat) (v : BitVec 12) =>
    if feedGood v then s else ((s.bump .PWR_FEED_LOSS).log 0x11 0x8005 0 (feed + v.toNat * 2)).service 2
  (lost (lost s 0 a) 1 b).refreshCond

/-- The control domain starts: machine time at 0, the recorder, the values of fuses and flash, the strap lines (steps 2 and 3, R472); with
SOURCE 2 the time state is LOCKED from here (R292). -/
def State.controlUp (s : State) (x : PowerIn) (held : Bool) : State :=
  let s : State := { s with now := 0, savedAt := s.up, time := TimeBlock.init
                            meter := { s.meter with resentAt := s.up, timeSec := 0, pending := s.meter.pending.map fun r => (r.1, s.up) } }
  let s := s.updDomains fun d => { d with control := true, straps := x.straps, resetHeld := false, offAt := some s.up }
  (s.recorderStart.loadSaved held).sourceChosen

/-- Steps 6 to 11, unless the module is in recovery (R428). After a thermal shutdown the sequence holds at step 6 until the conditions of
R481 hold (Table 21.7): WAFER_RESTART goes on then. -/
def State.waferSteps (s : State) (x : WaferStart) : State := if s.booted && s.domains.shutAt.isNone then s.waferUp x else s

/-- The sequence of Table 20.3. A deck that is still on hold-up keeps its paths; otherwise it starts with its calibration. -/
def State.powerUp (s : State) (x : PowerIn) : State :=
  let held := s.domains.deck && (s.flag F.DCK_STATUS_HOLDUP || !s.domains.control)
  let s := if s.domains.control then s.powerOff else s
  let s := s.controlUp x held
  let s := if s.cart.seated then (if s.cart.powered then s.meterStart else s.cartStart true) else s
  let s := s.bootChain x.okA x.okB
  let s := if held then (s.setFld F.DCK_STATUS_HOLDUP 0 0).updDeck fun d => { d with holdupAt := none } else s.deckRestart x.mref.toNat
  let s := (s.waferSteps x.wafer).startFeeds x.voltsA x.voltsB
  s.updDomains fun d => { d with deckPort := { d.deckPort with up := true, heardAt := s.up }
                                 cartPort := { d.cartPort with up := d.cartPort.up || s.cart.seated, heardAt := s.up } }

/-- POWER_UP: power applied to the feeds runs the power-up sequence up to the first tick, R461. Without a feed of 48 V or more nothing
starts. -/
def execPowerUp (x : PowerIn) (s : State) : Res :=
  if feedGood x.voltsA || feedGood x.voltsB then .next (s.powerUp x) else .next s

/-- MOD_RST_N: asserted for 1 µs, it resets the control and wafer domains until release, R459. Wafer converters that a second thermal
shutdown keeps off may start again under R481 (Table 21.7). -/
def execModRstN (s : State) : Res :=
  if !s.domains.control then .next s
  else .next ((s.controlDown 2).updDomains fun d => { d with resetHeld := true, keepOff := false })

/-- MOD_RST_N_RELEASE: release of MOD_RST_N lets the control and wafer domains start, running the power-up sequence from the boot ROM,
R459. -/
def execModRstNRelease (okA okB : Bool) (x : WaferStart) (s : State) : Res :=
  if s.domains.control && s.domains.resetHeld then
    .next (((s.updDomains fun d => { d with resetHeld := false }).bootChain okA okB).waferSteps x)
  else .next s

end Sys2Proof.Machine
end

