-- ==== Sys2Proof/Machine/Access.lean ====
section
/-!
DEFINITION. Sys2Proof/Machine/Access.lean: set-up space (chapter 22): the registers as they read (Table 0.5), writes with their access
codes, the set-up lock and the rules by which a register ignores a write (R6, R487, R495, R501), requests over the management
Ethernet, I3C and the links (R485 to R493), and line reads (R494).
-/
namespace Sys2Proof.Machine

/-! ## Reading -/

/-- The state of a job whose entry module is another one, as its slot here and that module tell it. -/
def State.farState (s : State) (n : Nat) : JobState :=
  match (s.slot n).phase with
  | .placed => (s.slot n).told
  | .stopped => .stopped
  | _ => .preempted

/-- The job that a slot serves, as JOB_SLOT_A shows it (R329). -/
def State.jobView (s : State) (n : Nat) : Nat :=
  let view := fun (st : JobState) (job : Nat) =>
    s.rd .SEQ_FRAME n + s.fld F.SEQ_STATUS_HOLD n * 2 ^ 32 + s.fld F.SEQ_STATUS_REPLAY n * 2 ^ 36 + st.code * 2 ^ 38 + job * 2 ^ 41 + 2 ^ 57
  match s.jobs.find? fun j => j.placed && j.slot == n with
  | some j => view j.state j.ident
  | none =>
    if !s.flag F.SEQ_SLOT_CFG_ACTIVE n then 0
    else match mapGet (fun _ => none) s.farJobs (s.fld F.SEQ_SLOT_CFG_SLICE_ID n) with
      | some j => view (s.farState n) j.1
      | none => 0

/-- JOB_COUNT. -/
def State.jobCount (s : State) : Nat :=
  s.jobs.length + (s.jobs.filter fun j => j.state == .queued || j.state == .preempted).length * 2 ^ 9

/-- EVR_WIN: the eight records of the latest snapshot. -/
def Recorder.windowView (r : Recorder) : Nat :=
  ((List.range 8).map fun i => (match r.window[i]? with
    | some (some e) => e.word
    | _ => 0) * 2 ^ (256 * i)).sum

/-- The metrology certificate that the device key signed (R421, R422). -/
def metrologyCert : Nat := ofBytes (certificate 3 metrologyKey [] 0 deviceKey)

/-- Bits of a register that a read returns: those of its fields that are not WO (R7, Table 0.5). -/
def Reg.readMask (r : Reg) (v : Nat) : Nat :=
  (r.fields.map fun f => if f.acc = .wo then 0 else bits v f.lo f.w * 2 ^ f.lo).sum

/-- What a register reads as. -/
def State.regRead (s : State) (r : Reg) (i : Nat) : Nat :=
  match r with
  | .MGT_KEY => 0
  | .TIM_NOW => s.now % 2 ^ 64
  | .EVR_NEXT => s.evr.next
  | .EVR_OLDEST => s.evr.oldest
  | .EVR_PERM_FIRST => s.evr.permFirst
  | .EVR_PERM_CNT => s.evr.perm.length
  | .EVR_WIN => s.evr.windowView
  | .MOV_MV_STATUS => (mapGet (fun _ => Mover.init) s.movers i).statusView
  | .MOV_MV_HEAD => (mapGet (fun _ => Mover.init) s.movers i).headView
  | .JOB_COUNT => s.jobCount
  | .JOB_SLOT_A => s.jobView i
  | .FWU_MET_CERT => metrologyCert
  | _ => r.readMask (s.rd r i)

/-! ## What a register's own rule ignores, R501 -/

/-- Does a path use the physical pair that carries a logical pair, or the one to be written? -/
def State.pairUsed (s : State) (i new : Nat) : Bool :=
  let base := 192 + 48 * (i / 48)
  s.paths.any fun o =>
    let x := s.physInput (s.pathInput o)
    x == base + s.fld F.DCK_FACE_MAP_PHYS i || x == base + new

/-- Is a connection of a port open? -/
def State.portInUse (s : State) (port : Nat) : Bool :=
  (List.range 1024).any fun n => s.connState n == connOpen && s.fld F.FEI_CONN_CFG_PORT n == port

/-- Does the description of a field ignore and record its new value x, in a write of v to copy i of its register? -/
def State.fieldIgnored (s : State) (f : Fld) (i v x : Nat) : Bool :=
  match f.reg with
  | .SEQ_SLOT_CFG => f.lo == 0 && s.flag F.SEQ_SLOT_CFG_ACTIVE i
  | .SEQ_SET_BASE => s.flag F.SEQ_STATUS_RUNNING i
  | .SEQ_LIVE => s.flag F.SEQ_STATUS_RUNNING i
  | .SRM_FLD_CTRL => f.lo == 1 && x == 0
  | .LPD_SCRUB => f.lo == 1 && x == 0
  | .LPD_QUOTA => f.lo == 0 && s.fld F.LPD_QUOTA_HELD i != 0
  | .MMU_SLOT_ROOT => x % 2 ^ 22 != 0 || !s.inReserved x (2 ^ 22) || s.flag F.SEQ_STATUS_RUNNING i
  | .MMU_TIMEOUT => decide (x < 10)
  | .MOV_FLD_CRING_BASE => x % 65536 != 0 || !s.inReserved x 65536 || (s.fieldOwner i).isSome
  | .MSH_ROT => decide (x > 1440)
  | .LNK_LINK_CFG => f.lo == 1 && !s.groupsOk i x
  | .DCK_FACE_PLAN => f.lo == 14 && decide (x > 5)
  | .DCK_CMD_BUF => s.flag F.DCK_CMD_CTRL_BUSY
  | .DCK_FACE_MAP => f.lo == 0 && (decide (x > 47) || s.pairUsed i x)
  | .RTE_SLICE =>
    ((f.lo == 0 || f.lo == 13 || f.lo == 14 || f.lo == 20) && s.flag F.RTE_SLICE_ACTIVE i) ||
      (f.lo == 36 && (x == 0 || decide (x > 64)))
  | .RTE_SLICE_BOX => f.lo == 14 && s.boxBad v
  | .TIM_CTRL => f.lo == 0 && x == 3
  | .INT_MODE => f.lo == 1 && decide (x > 10)
  | .INT_BUDGET => x == 0
  | .INT_RATE => f.lo == 32 && decide (x < bits v 0 32)
  | .PWR_BUDGET => decide (x < 4000) || decide (x > 18000)
  | .CAL_CTRL => s.flag F.CAL_STATUS_PENDING
  | .FWU_CFG => f.lo == 1 && decide (x < 60)
  | .EVR_RATE => f.lo == 0 && x == 0
  | .MGT_NET => f.lo == 34 && x == 0
  | _ => false

/-- The registers of a connection entry that are written while it is closed, R310. -/
def connRegs : List Reg :=
  [.FEI_CONN_CFG, .FEI_CONN_PSN, .FEI_CONN_PEER, .FEI_CONN_DMAC, .FEI_CONN_SQ, .FEI_CONN_CQ, .FEI_CONN_IDX]

/-- The staged tables of a slice entry, with how many copies of each an entry has (R271). -/
def stagedRegs : List (Reg × Nat) := [(.RTE_SLICE_BOX, 1), (.RTE_SLICE_HOP, 1), (.RTE_SLICE_SUBST, 4), (.RTE_SLICE_PEER, 8)]

/-- The slice entry of a staged table's copy. -/
def stagedEntry (r : Reg) (i : Nat) : Option Nat := (stagedRegs.find? fun x => x.1 == r).map fun x => i / x.2

/-- Does a register ignore a write of v whole and record it? -/
def State.wholeIgnored (s : State) (r : Reg) (i v : Nat) : Bool :=
  match r with
  | .SRV_CFG => bits v 0 8 == 0 || bits v 8 8 == 0 || bits v 16 8 == 0 || decide (bits v 8 8 ≤ bits v 0 8)
  | .DCK_FACE_PLAN => s.pathUsesFace i
  | .RTE_MACHINE => decide ((bits v 0 5 + 1) * (bits v 5 5 + 1) * (bits v 10 4 + 1) > 8192)
  | .RTE_FLD_OWNER => s.fieldRuns i
  | .FEI_PORT_IP => s.portInUse i
  | .INT_SAMPLE =>
    let lo := bits v 0 17
    let hi := bits v 32 17
    lo == 0 || hi == 0 || decide (lo > 65536) || decide (hi > 65536) || decide (lo > hi)
  | .INT_TEST => bits v 0 11 == 0 || bits v 11 8 == 0 || bits v 19 10 == 0 || decide (bits v 0 11 > 1440)
  | .PWR_CONV => decide (bits v 0 10 < 500) || decide (bits v 0 10 > 1000) || decide (bits v 10 16 > 4000)
  | .PWR_TEMP => decide (bits v 0 8 ≤ bits v 8 8)
  | _ =>
    (connRegs.contains r && s.connState i != connClosed) ||
      (match stagedEntry r i with
       | some e => s.flag F.RTE_SLICE_ARMED e
       | none => false)

/-- Does a write of v set off an action that the description of its WO field ignores and records? The bits so ignored. -/
def State.actionIgnored (s : State) (r : Reg) (i v : Nat) : Nat :=
  match r with
  | .TEN_FLD_INJECT => if bits v 0 9 > 449 ∨ (bitOf v 10 ∧ !s.flag F.TEN_FLD_CTRL_INJ_EN i) then bits v 0 11 else 0
  | .SRM_FLD_CLEAR => if bitOf v 0 ∧ (s.fieldRuns i ∨ s.flag F.SRM_FLD_CLEAR_BUSY i) then 1 else 0
  | .LNK_LINK_CFG =>
    (if bitOf v 5 ∧ s.linkState i ≠ linkUp then 2 ^ 5 else 0) + (if bitOf v 6 ∧ !s.mgmtOnly i then 2 ^ 6 else 0)
  | .DCK_CTRL => if bits v 8 8 ≠ 0 ∧ ¬(bits v 8 8 = 0xD5 ∧ s.deckState = deckParked) then bits v 8 8 * 2 ^ 8 else 0
  | .SRV_AXIS =>
    let c := s.fld F.SRV_AXIS_FAULT i
    if bitOf v 47 ∧ ¬((c = 1 ∨ c = 5) ∧ (s.axis i).rests) then 2 ^ 47 else 0
  | .MGT_LOCK => if bits v 8 8 ≠ 0x4C ∧ (bitOf v 0 ∨ bits v 8 8 ≠ 0) then v % 2 ^ 16 else 0
  | _ => 0

/-! ## The set-up lock, R495 -/

/-- Is the lock set? -/
def State.locked (s : State) : Bool := s.flag F.MGT_STATUS_LOCKED

/-- Set the lock. -/
def State.setLock (s : State) : State := s.setFld F.MGT_STATUS_LOCKED 0 1

/-- SETUP_LOCK: MGT_LOCK with KEY 0x4C and SET = 1 sets the set-up lock, R495; any other KEY is ignored and recorded. -/
def execSetupLock (key : BitVec 8) (s : State) : Res :=
  if key = 0x4C then .next s.setLock else .next (s.refuse .MGT_LOCK 0 (1 + key.toNat * 2 ^ 8))

/-- AUTOLOCK: AUTOLOCK_S seconds after the first tick the runtime sets the set-up lock, R495. -/
def execAutolock (s : State) : Res :=
  let n := s.fld F.MGT_CFG_AUTOLOCK_S
  if s.booted && s.domains.mission && n != 0 && decide (s.up ≥ s.domains.missionAt + n * second) then .next s.setLock else .next s

/-! ## Line reads, R494 -/

/-- START of MGT_LINE_CMD: the line of MGT_LINE_ADDR is read past ownership and translation. -/
def State.lineRead (s : State) : State :=
  let o := s.fld F.MGT_LINE_ADDR_LINE * 64
  let done := fun (s : State) (r data : Nat) => (s.setFld F.MGT_LINE_CMD_RESULT 0 r).wr .MGT_LINE_DATA 0 data
  let own := match placeOf o with
    | .setup => false
    | .hole => false
    | _ => s.domains.wafer
  if !own then done s 3 0
  else
    let up := mapGet (fun _ => 0) s.mem.upset (o / 64)
    let (s, x) := s.readLine o 0
    if x.ue then done s 2 0 else done s (bit (up == 1)) (ofBytes x.data)

/-- LINE_READ: START of MGT_LINE_CMD reads a 64-byte line for the control complex and reports its state, R494. `line` is the value of
MGT_LINE_ADDR.LINE. -/
def execLineRead (line : BitVec 44) (s : State) : Res := .next (s.setFld F.MGT_LINE_ADDR_LINE 0 line.toNat).lineRead

/-! ## Writing a register -/

/-- Set the RW and RWL fields of a register from v and clear the W1C bits that v names. -/
def State.plainWrite (s : State) (r : Reg) (i v : Nat) : State :=
  r.fields.foldl (fun s f =>
    let x := bits v f.lo f.w
    match f.acc with
    | .rw => s.setFld f i x
    | .rwl => s.setFld f i x
    | .w1c => s.setFld f i (s.fld f i &&& (2 ^ f.w - 1 - x))
    | _ => s) s

/-- START of CAL_CMD. -/
def State.calCmd (s : State) (v : Nat) : State :=
  match bits v 2 2 with
  | 0 => { s with free := s.free + 1 }.calRun (bits v 4 4) (Config.mrefMean s.free).toNat
  | 1 => s.burnSlot (bits v 8 8) true
  | _ => s.setFld F.CAL_CMD_RESULT 0 5

/-- What a write that nothing ignores does, by register. Where no line of its own stands here the fields are set as they are, and a
START while BUSY = 1 is ignored. -/
def State.regAct (s : State) (r : Reg) (i v : Nat) : State :=
  let start := bitOf v 0
  let plain := s.plainWrite r i v
  match r with
  | .SEQ_SLOT_CFG => if bitOf v 12 && !s.flag F.SEQ_SLOT_CFG_ACTIVE i then plain.updSlot i fun _ => Slot.init else plain
  | .SEQ_FLD_LOAD => if start then plain.loadStart i (bits v 6 6) else plain
  | .TEN_FLD_INJECT => s.injectWrite i v
  | .SRM_FLD_CLEAR => if start then s.clearStart i v else s
  | .LPD_ALLOC => if start then plain.allocCmd (bitOf v 1) (bits v 6 12) (bits v 18 21) else plain
  | .MMU_SLOT_ROOT => plain.invalidate i none
  | .MMU_SLOT_INVAL => if start then plain.invalStart i (bitOf v 2) (bits v 21 27 * 2 ^ 21) else plain
  | .MOV_FLD_CMD => if start then plain.movCmd i (bits v 2 2) (bits v 4 4) (bits v 11 21) else plain
  | .MSH_FLD_CMD => if start then plain.meshCmd i (bits v 2 3) (bits v 5 5) (bits v 10 4) else plain
  | .LNK_LINK_CFG => s.linkCfg i v
  | .DCK_CTRL => s.deckCtrl v
  | .DCK_CMD_CTRL => if start then plain.deckStart (bits v 2 9) else plain
  | .DCK_FACE_MAP => plain.setFld F.DCK_FACE_MAP_CORRECTED i 0
  | .SRV_AXIS => if bitOf v 47 then s.axisClear i v else s
  | .RTE_MACHINE => s.machineWrite v
  | .RTE_SLICE => plain.entryWritten i (s.flag F.RTE_SLICE_ACTIVE i)
  | .RTE_FLD_OWNER => plain.ownerWritten i
  | .RTE_COORD => if s.locked then s else s.coordWrite v
  | .RTE_SLICE_COMMIT => s.commitArm i v
  | .FTK_NEXT => s.ftkNext v
  | .TIM_CTRL => s.timeCtrl v
  | .TIM_HRN_ARM => if start then s.harnessArm else s
  | .TIM_TSQ_POP => if start then s.tsqPop i else s
  | .FEI_CONN_CMD => if start then plain.connCmd i (bits v 2 2) else plain
  | .JOB_CMD => if start then plain.jobCmd (bits v 2 2) (bits v 4 16) else plain
  | .PWR_CLOCK => s.ceilingWrite (bits v 0 2)
  | .CAL_CMD => if start then plain.calCmd v else plain
  | .MET_LOG_CURSOR => s.logCursor v
  | .FWU_CMD => if start then plain.fwuCmd (bits v 2 3) else plain
  | .FWU_ATT_CMD => if start then s.attest else s
  | .EVR_CURSOR => s.cursorWrite v
  | .EVR_RATE => s.rateWrite v
  | .EVR_CLEAR => if start then s.evrClear (bits v 8 8) v else s
  | .EVR_NOTE_CMD => if bitOf v 12 then plain.note (bits v 0 12) else plain
  | .MGT_LOCK => if start then s.setLock else s
  | .MGT_LINE_CMD => if start then s.lineRead else s
  | _ =>
    match stagedEntry r i with
    | some e => if s.flag F.RTE_SLICE_ARMED e then s else s.tableWrite r e i v
    | none => plain

/-- Fields of the register whose value in force a write of v would change, by the access codes given. -/
def State.changes (s : State) (r : Reg) (i v : Nat) (codes : List Acc) : List Fld :=
  r.fields.filter fun f => codes.contains f.acc && bits v f.lo f.w != bits (s.rd r i) f.lo f.w

/-- v with the given fields as the register holds them. -/
def State.keepFields (s : State) (r : Reg) (i v : Nat) (fs : List Fld) : Nat :=
  fs.foldl (fun v f => setBits v f.lo f.w (bits (s.held r i) f.lo f.w)) v

/-- A write of v to a register, with its status of Table 22.2: fields that the lock keeps, fields and actions that a rule ignores, and
the rest, which stands (R487, R501). `off` and `part` are the offset and the value that a record of it gives. A root that is ignored
invalidates nothing (R135), and a pair that is ignored clears no CORRECTED. -/
def State.regWriteAt (s : State) (r : Reg) (i v off part : Nat) : State × Nat :=
  let kept := if s.locked then s.changes r i v [.rwl] else []
  let ignored := (s.changes r i v [.rw, .rwl]).filter fun f => s.fieldIgnored f i v (bits v f.lo f.w)
  let acts := s.actionIgnored r i v
  let moves := !(s.changes r i v [.rw, .rwl]).isEmpty
  let whole := (moves && s.wholeIgnored r i v) || ((r == .MMU_SLOT_ROOT || r == .DCK_FACE_MAP) && !ignored.isEmpty)
  let x := s.keepFields r i (v - acts) (kept ++ ignored)
  let s' := if whole then s else s.regAct r i x
  let s' := if kept.isEmpty then s' else s'.log r.block.source 0xE001 0 (off + part % 2 ^ 32 * 2 ^ 32)
  let bad := whole || !ignored.isEmpty || acts != 0
  let s' := if bad then s'.log r.block.source 0xD001 0 (off + part % 2 ^ 32 * 2 ^ 32) else s'
  (s', if !kept.isEmpty then 6 else if bad then 8 else 0)

/-- A write of v to a whole register. -/
def State.regWrite (s : State) (r : Reg) (i v : Nat) : State × Nat := s.regWriteAt r i v (r.addr i) v

/-! ## Accesses, R485 to R487 -/

/-- One access of a request: its offset, its width in bytes, and the register, copy and byte within it that it covers. -/
structure Unit8 where
  off : Nat
  width : Nat
  at_ : Option (Reg × Nat × Nat)
deriving DecidableEq, Repr

/-- The accesses of a range in offset order: whole registers, wider ones in parts of 8 bytes, and words where no register lies; none
where the range splits one. -/
def unitsOf : Nat → Nat → Nat → Option (List Unit8)
  | _, _, 0 => some []
  | 0, _, _ => none
  | fuel + 1, o, n =>
    let (w, t) := match Reg.find o with
      | some (r, i, k) => (if r.bytes = 4 then 4 else 8, some (r, i, k))
      | none => (4, none)
    let fits := match t with
      | some (_, _, k) => k % w == 0
      | none => true
    if !fits || decide (w > n) then none
    else match unitsOf fuel (o + w) (n - w) with
      | some l => some (⟨o, w, t⟩ :: l)
      | none => none

/-- Registers that serve only the control complex, R494. -/
def controlOnly : List Reg := [.MGT_LINE_ADDR, .MGT_LINE_CMD, .MGT_LINE_DATA]

/-- Status that keeps an access from a register altogether; 0 for none. In recovery only FWU_ registers are served (R428). -/
def State.barred (s : State) (path : SetupPath) (u : Unit8) : Nat :=
  match u.at_ with
  | none => 3
  | some (r, _, _) =>
    if s.inRecovery && r.block != .FWU then 3
    else if controlOnly.contains r && path != .control then 7
    else if (r.block == .DCK || r.block == .SRV) && !s.domains.deckPort.up then 4
    else if r.block.domain == .wafer && !s.domains.wafer then 5
    else 0

/-- Read one access: its status and its bytes. -/
def State.unitRead (s : State) (path : SetupPath) (u : Unit8) : Nat × List Byte :=
  match s.barred path u, u.at_ with
  | 0, some (r, i, k) => (0, toBytes u.width (bits (s.regRead r i) (8 * k) (8 * u.width)))
  | c, _ => (c, toBytes u.width 0)

/-- Write one access. A part of a wide register leaves the other parts as they are. -/
def State.unitWrite (s : State) (path : SetupPath) (u : Unit8) (x : Nat) : State × Nat :=
  match s.barred path u, u.at_ with
  | 0, some (r, i, k) =>
    s.regWriteAt r i (if r.bytes ≤ 8 then x else setBits (s.held r i) (8 * k) (8 * u.width) x) (u.off % 2 ^ 26) x
  | c, _ =>
    let src := match Block.at u.off with
      | some b => b.source
      | none => 0x14
    (s.log src 0xD001 0 (u.off % 2 ^ 26 + x % 2 ^ 32 * 2 ^ 32), c)

/-- The first status of a request that is not zero. -/
def firstStatus (a b : Nat) : Nat := if a = 0 then b else a

/-- Read accesses in order. -/
def State.unitsRead (s : State) (path : SetupPath) : List Unit8 → Nat × List Byte
  | [] => (0, [])
  | u :: us =>
    let (c, bs) := s.unitRead path u
    let (d, cs) := s.unitsRead path us
    (firstStatus c d, bs ++ cs)

/-- Write accesses in order. -/
def State.unitsWrite (s : State) (path : SetupPath) : List Unit8 → List Byte → State × Nat
  | [], _ => (s, 0)
  | u :: us, bs =>
    let (s, c) := s.unitWrite path u (leAt bs 0 u.width)
    let (s, d) := s.unitsWrite path us (bs.drop u.width)
    (s, firstStatus c d)

/-- Are OFFSET and LEN within the ranges of Table 22.3? -/
def rangeOk (off len : Nat) : Bool :=
  off % 4 == 0 && decide (off < 2 ^ 26) && len % 4 == 0 && decide (4 ≤ len) && decide (len ≤ 1024)

/-- The accesses of a range of Table 22.3; none where its status is FORMAT. -/
def rangeUnits (off len : Nat) : Option (List Unit8) := if rangeOk off len then unitsOf 256 off len else none

/-- A read of a range: status and data. -/
def State.setupRead (s : State) (path : SetupPath) (off len : Nat) : Nat × List Byte :=
  match rangeUnits off len with
  | some us => s.unitsRead path us
  | none => (2, List.replicate (if rangeOk off len then len else 0) 0)

/-- A write that is refused before it reaches any register: recorded, and nothing changes. -/
def State.formatRefused (s : State) (off : Nat) (bs : List Byte) : State :=
  let src := match Block.at off with
    | some b => b.source
    | none => 0x14
  s.log src 0xD001 0 (off % 2 ^ 26 + leAt bs 0 4 * 2 ^ 32)

/-- A write of bytes from an offset on, with its status. -/
def State.setupWrite (s : State) (path : SetupPath) (off : Nat) (bs : List Byte) : State × Nat :=
  match rangeUnits off bs.length with
  | some us => s.unitsWrite path us bs
  | none => (s.formatRefused off bs, 2)

/-- Is set-up space served: the control domain runs an image, or is in recovery? -/
def State.served (s : State) : Bool := s.domains.control && !s.domains.booting

/-- REGISTER_WRITE: a write to registers sets their fields under their access codes, or is ignored, locked or refused and recorded,
R6. `bytes` are the data from `offset` on. -/
def execRegisterWrite (path : SetupPath) (offset : BitVec 26) (bytes : List Byte) (s : State) : Res :=
  if s.served then .next (s.setupWrite path offset.toNat bytes).1 else .next s

/-! ## Requests with a tag, R488 to R490 and R493 -/

/-- Does a header break Table 22.3, with the number of data bytes that follow it? -/
def headerBad (h : List Byte) (n : Nat) : Bool :=
  let op := leAt h 2 1
  leAt h 0 2 != 0x5353 || (op != 1 && op != 2) || leAt h 3 1 != 0 || leAt h 10 6 != 0 || leAt h 24 8 != 0 ||
    (op == 1 && n != 0) || (op == 2 && n != leAt h 8 2)

/-- Serve a request whose tag and number are good: its status and the data of a READ. -/
def State.serve (s : State) (path : SetupPath) (h data : List Byte) : State × Nat × List Byte :=
  let off := leAt h 4 4
  let len := leAt h 8 2
  if headerBad h data.length then
    (if leAt h 2 1 = 2 then s.formatRefused off data else s, 2, List.replicate (if leAt h 2 1 = 1 ∧ rangeOk off len then len else 0) 0)
  else if leAt h 2 1 = 1 then (s, s.setupRead path off len)
  else
    let (s, c) := s.setupWrite path off data
    (s, c, [])

/-- The response to a request. -/
def State.responseTo (s : State) (h : List Byte) (status : Nat) (data : List Byte) : List Byte :=
  let body := slice h 0 3 ++ toBytes 1 status ++ slice h 4 6 ++ toBytes 6 0 ++ slice h 16 8 ++ toBytes 8 0 ++ data
  body ++ s.tagOf body

/-- The bytes of zero that a refused READ returns. -/
def zeroData (h : List Byte) : List Byte :=
  List.replicate (if leAt h 2 1 = 1 ∧ rangeOk (leAt h 4 4) (leAt h 8 2) then leAt h 8 2 else 0) 0

/-- A request whose tag is good: STALE unless its number is above `last`; otherwise it is accepted, noted by `accept`, and served. -/
def State.numbered (s : State) (path : SetupPath) (last : Nat) (accept : State → State) (h data : List Byte) :
    State × List Byte :=
  if leAt h 16 8 ≤ last then
    let s := s.bump .MGT_STALE
    (s, s.responseTo h 1 (zeroData h))
  else
    let (s, c, out) := (accept s).serve path h data
    (s, s.responseTo h c out)

/-- Change set-up access. -/
def State.updAccess (s : State) (g : SetupSide → SetupSide) : State := { s with access := g s.access }

/-- The last accepted REQ of a station; 0 for one without an entry. -/
def SetupSide.lastOf (a : SetupSide) (x : IpAddr) : Nat :=
  match a.stations.find? fun e => e.1 == x with
  | some e => e.2
  | none => 0

/-- An accepted request of a station, whose entry becomes the latest used of 16 (R490). -/
def SetupSide.accept (a : SetupSide) (x : IpAddr) (req : Nat) : SetupSide :=
  { a with stations := ((x, req) :: a.stations.filter fun e => e.1 != x).take 16 }

/-- SETUP_REQUEST: a management Ethernet set-up request is checked by tag and request number and served, R488 to R490. `port` is the
UDP port that the datagram names. -/
def execSetupRequest (station : IpAddr) (port : BitVec 16) (datagram : List Byte) (s : State) : Res :=
  if !s.served then .next s
  else
    let s := s.setFld F.MGT_STATUS_ETH_UP 0 1
    if port.toNat ≠ s.fld F.MGT_NET_PORT then .next (s.bump .MGT_DROP)
    else
      let n := datagram.length
      let body := datagram.take (n - 16)
      if n < 48 ∨ datagram.drop (n - 16) ≠ s.tagOf body then .next (s.bump .MGT_BADTAG)
      else
        let h := body.take 32
        let (s, r) := s.numbered .ethernet (s.access.lastOf station)
          (fun s => s.updAccess fun a => a.accept station (leAt h 16 8)) h (body.drop 32)
        .next (s.emit (.response station r))

/-- The link-local address formed from the MAC address in fuses (RFC 4291, log entry 20). -/
def linkLocal (mac : BitVec 48) : Nat :=
  let m := mac.toNat
  0xFE80 * 2 ^ 112 + (m / 2 ^ 24 ^^^ 0x020000) * 2 ^ 40 + 0xFFFE * 2 ^ 24 + m % 2 ^ 24

/-- MGMT_ARP: an ARP request or Neighbour Solicitation for a management address is answered, R488. -/
def execMgmtArp (addr : IpAddr) (s : State) : Res :=
  let mine := match addr with
    | .v4 a => s.flag F.MGT_NET_V4_EN && s.fld F.MGT_NET_IPV4 == a.toNat
    | .v6 a => a.toNat == linkLocal Config.managementMac || (s.flag F.MGT_NET_V6_EN && s.fld F.MGT_NET_IPV6 == a.toNat)
  if s.served && mine then .next ((s.setFld F.MGT_STATUS_ETH_UP 0 1).emit (.neighbour 2 addr)) else .next s

/-! ## MGMT packets, R278, R212 and R493 -/

/-- The response as an MGMT packet. -/
def State.mgmtReply (s : State) (p : Packet) (bs : List Byte) : Packet :=
  let n := ceilDiv bs.length 64
  { p with lines := Fin.ofNat 64 (n - 1), addr := BitVec.ofNat 64 (p.src.toNat * 2 ^ 50), src := BitVec.ofNat 14 s.selfId
           data := slice bs 0 (64 * n), record := none }

/-- An MGMT request that is addressed to this module: it is dropped where its tag fails (R489), and answered otherwise. -/
def State.mgmtRequest (s : State) (p : Packet) (ident : Option Nat) : State :=
  let h := slice p.data 0 32
  let n := if leAt h 2 1 = 2 then leAt h 8 2 else 0
  let data := slice p.data 32 n
  if slice p.data (32 + n) 16 ≠ s.tagOf (h ++ data) then s.bump .MGT_BADTAG
  else
    let src := p.src.toNat
    let (s, r) := s.numbered .mgmt (mapGet (fun _ => 0) s.access.senders src)
      (fun s => s.updAccess fun a => { a with senders := mapSet (fun _ => 0) src (leAt h 16 8) a.senders }) h data
    s.sendMgmt src (s.mgmtReply p r) ident

/-- Do something to the slot that serves a slice, if one does. -/
def State.withSlot (s : State) (slice : BitVec 12) (g : State → Nat → State) : State :=
  match s.slotOfSlice slice.toNat with
  | some n => g s n
  | none => s

/-- The save areas of a slice's fields on a member, within a quota that they raise (R325); none where the module has too few frames, which the
entry module has seen to (log entry 111). -/
def State.takeAreas (s : State) (slice n live : Nat) : State :=
  match s.entryOf slice, mapGet (fun _ => []) s.areas slice with
  | some e, [] =>
    let k := saveFrames live * (s.fieldsOf n).length
    match (s.setFld F.LPD_QUOTA_LIMIT e (s.fld F.LPD_QUOTA_LIMIT e + k)).allocFrames slice k with
    | some (s, fs) => { s with areas := mapSet (fun _ => []) slice fs s.areas }
    | none => s
  | _, _ => s

/-- A job state by its code, Table 13.7. -/
def jobStateOf (x : Nat) : JobState :=
  match x with
  | 1 => .loading
  | 2 => .idle
  | 3 => .running
  | 4 => .preempted
  | 5 => .stopped
  | _ => .queued

/-- What another control complex says of a slice reaches this module (log entry 91). A holder, which serves no slot, gives up its entry when
the slice is released. -/
def State.sliceTold (s : State) (b : MgmtBody) : State :=
  match b with
  | .sliceFault slice cause detail frame => s.sliceFaulted slice.toNat cause.toNat detail.toNat frame.toNat
  | .sliceStop slice => s.withSlot slice fun s n => s.updSlot n fun v => { v with stopDue := some (v.stopDue.getD false) }
  | .sliceRelease slice =>
    match s.slotOfSlice slice.toNat, s.entryOf slice.toNat with
    | some n, _ => s.updSlot n fun v => { v with stopDue := some true }
    | none, some e => s.leaveEntry e slice.toNat (s.framesOf slice.toNat)
    | none, none => s
  | .sliceSet slice base live depends => s.withSlot slice fun s n =>
    let s := ((s.setFld F.SEQ_SET_BASE_BASE n base.toNat).setFld F.SEQ_LIVE_LIVE n live.toNat).takeAreas slice.toNat n live.toNat
    (s.fieldsOf n).foldl (fun s f => s.loadStart f n) (s.updSlot n fun v => { v with depends := depends.map (·.toNat) })
  | .sliceNext slice index valid => s.withSlot slice fun s n => s.nextWrite n index.toNat valid
  | .sliceFields slice module fields =>
    if module.toNat = s.selfId then s
    else { s with farFields := mapSet (fun _ => none) (slice.toNat * 16384 + module.toNat) (some fields.toNat) s.farFields }
  | .sliceState slice state => s.withSlot slice fun s n => s.updSlot n fun v => { v with told := jobStateOf state.toNat }
  | .sliceJob slice job tag => { s with farJobs := mapSet (fun _ => none) slice.toNat (some (job.toNat, tag.toNat)) s.farJobs }
  | .voteDepth slice h =>
    match s.entryOf slice.toNat with
    | some e =>
      if s.flag F.RTE_SLICE_ARMED e then { s with nextDelays := mapSet (fun _ => none) e (some h.toNat) s.nextDelays }
      else { s with voteDelays := mapSet (fun _ => none) e (some h.toNat) s.voteDelays }
    | none => s
  | .spareCopy slice spare => s.spareOut slice.toNat spare.toNat
  | .spareIn slice old new => s.spareIn slice.toNat old.toNat new.toNat
  | _ => s

/-- MGMT: an MGMT packet is forwarded or carries a set-up request that the module checks and serves, R278 and R493. A link that is
MISWIRED or QUARANTINED brings only packets addressed to this module (R212). -/
def execMgmt (via : Via) (p : Packet) (x : MgmtIn) (s : State) : Res :=
  let ident := x.stamp.map (·.toNat)
  let m := p.addr.toNat / 2 ^ 50
  let shut := match via with
    | .link n => s.mgmtOnly n
    | .mesh => false
  if m ≠ s.selfId then .next (if shut then s.bump .RTE_TRANSIT_DROP else s.sendMgmt m p ident)
  else match x.body with
    | .request => if s.booted then .next (s.mgmtRequest p ident) else .next s
    | .response => .next s
    | .homeLost slice home => .next (s.homeReported slice.toNat home.toNat)
    | .lineAsk ga lines => .next (s.lineAsked p.src.toNat ga.toNat lines.toNat)
    | .lineAnswer ga lost => .next (s.lineAnswered ga.toNat (lost.map (·.toNat)))
    | b => .next (s.sliceTold b)

/-! ## I3C, R491 and R492 -/

/-- Does the I3C target hold a dynamic address and is it in service? -/
def State.i3cOn (s : State) : Bool := s.served && s.fld F.MGT_STATUS_I3C_DA != 0

/-- I3C_PRIVATE_TRANSFER: an I3C private write or read sets up and serves a set-up access, R492. -/
def execI3cPrivateTransfer (t : I3cTransfer) (s : State) : Res :=
  if !s.i3cOn then .next (s.emit (.i3c false []))
  else match t with
    | .write bs =>
      let off := leAt bs 0 4
      let len := leAt bs 4 2
      let data := bs.drop 6
      let s := s.emit (.i3c true [])
      if bs.length < 6 then .next (s.updAccess fun a => { a with header := none, reply := some [2] })
      else if data.isEmpty then .next (s.updAccess fun a => { a with header := some (off, len), reply := none })
      else if data.length ≠ len then
        .next ((s.formatRefused off data).updAccess fun a => { a with header := none, reply := some [2] })
      else
        let (s, c) := s.setupWrite .i3c off data
        .next (s.updAccess fun a => { a with header := none, reply := some [BitVec.ofNat 8 c] })
    | .read =>
      match s.access.header, s.access.reply with
      | some (off, len), _ =>
        let (c, bs) := s.setupRead .i3c off len
        .next ((s.updAccess fun a => { a with header := none }).emit (.i3c true (BitVec.ofNat 8 c :: bs)))
      | none, some bs => .next ((s.updAccess fun a => { a with reply := none }).emit (.i3c true bs))
      | none, none => .next (s.emit (.i3c false []))

/-- I3C_CCC: an I3C common command code is served if listed or NACKed otherwise, R491. The static address for SETDASA is 0x2C. -/
def execI3cCcc (c : I3cCcc) (s : State) : Res :=
  let nack := s.emit (.i3c false [])
  let free := s.fld F.MGT_STATUS_I3C_DA == 0
  let get := fun (k : Nat) => if free then nack else s.emit (.i3c true (Config.i3cInfo k))
  if !s.served then .next nack
  else match c with
    | .entdaa a => .next (if free then (s.setFld F.MGT_STATUS_I3C_DA 0 a.toNat).emit (.i3c true []) else nack)
    | .setdasa st a =>
      .next (if free && st == 0x2C then (s.setFld F.MGT_STATUS_I3C_DA 0 a.toNat).emit (.i3c true []) else nack)
    | .rstdaa => .next ((s.setFld F.MGT_STATUS_I3C_DA 0 0).emit (.i3c true []))
    | .getpid => .next (get 0)
    | .getbcr => .next (get 1)
    | .getdcr => .next (get 2)
    | .getstatus => .next (get 3)
    | .other _ => .next nack

end Sys2Proof.Machine
end

