-- ==== Sys2Proof/Machine/Tick.lean ====
section
/-!
DEFINITION. Sys2Proof/Machine/Tick.lean: the tick (R18, R20): machine time and the tick count, the power ledger, what becomes visible, each
slice's decision, the movers that start, the links, the servo and the deck, and what the control complex does at a tick.
-/
namespace Sys2Proof.Machine

/-- The wafer's first tick begins mission mode (R460); ticks in a row at 110 °C or above are counted (R480). -/
def State.missionTick (s : State) (dieMax : Nat) : State :=
  let s := if s.domains.mission then s else s.updDomains fun d => { d with mission := true, missionAt := s.up }
  s.updDomains fun d => { d with hot110 := if dieMax ≥ 110 then d.hot110 + 1 else 0 }

/-- The arbiter at a tick: the feeds' voltages, the sensors, the clock step and the budget that come into force. -/
def State.powerTick (s : State) (x : TickIn) : State :=
  let s := s.updPower fun p => { p with voltsA := x.feedA.toNat, voltsB := x.feedB.toNat }
  (((s.feedSeen x.feedA.toNat x.feedB.toNat).tempTick x.dieMax.toNat).stepTick).budgetTick

/-- The completions of one mover that become visible: its parts of a COPY, and the job that a rejection or an audit failure stops
(R147, R163, R166). -/
def State.showMover (s : State) (k : Nat) : State :=
  let f := k / 16
  let m := k % 16
  let (s, done) := s.showDone f m ((s.mover f m).finished.length + 1)
  done.foldl (fun s x =>
    let s := if x.status = doneRejected then s.moverStop f m x.slice 0x44 x.code x.core x.step x.frame x.cc
      else if x.status = doneAudit then s.moverStop f m x.slice 0x46 x.code x.core x.step x.frame x.cc
      else s
    s.partDone f x) s

/-- Every mover with completions, or with one that waited for ring room. -/
def State.showMovers (s : State) : State :=
  ((s.movers.filter fun e => !e.2.finished.isEmpty || e.2.blocked).map (·.1)).foldl State.showMover s

/-- Every released head starts (R148), but in a slice that is being pre-empted or makes a rotation step (R159, R160). -/
def State.startMovers (s : State) : State :=
  ((s.movers.filter fun e => e.2.startDue && (s.sliceBars (e.1 / 16)).isNone).map (·.1)).foldl (fun s k => s.updMover (k / 16) (k % 16) Mover.start) s

/-- Operations on columns that wait for no slice: the fencing of a spare (Table 7.2), and whatever is due in a field that serves no
slot, begun or brought into force. -/
def State.freeOps (s : State) : State :=
  s.colOps.foldl (fun s o =>
    if !s.colOps.contains o then s
    else if o.kind = .fenceSpare then (if s.colBusy o.field o.col then s else s.applyOp o)
    else if (s.slotOfField o.field).isSome then s
    else if o.begun && o.moved then s.applyOp o
    else if s.opReady o then s.beginOp o
    else s) s

/-- The control complex acts on faults for which slices hold, and on parked movers (FAULT_RESOLVE, MAP_FRESH_PAGE, DATA_UE_RESOLVE). -/
def State.resolveTick (s : State) : State :=
  s.liveSlots.foldl (fun s n =>
    let s := if s.fld F.SEQ_STATUS_HOLD n = 4 then s.resolveSlot n else s
    s.resolveMovers n) s

/-- Jobs at a tick: loads, copies that can begin, and SEQ_NEXT of every RUN. The scheduler may try each job again (R332). -/
def State.jobsTick (s : State) : State :=
  let s := s.jobs.foldl State.loadTick s
  let s := s.startCopies
  let s := s.jobs.foldl State.runWrite s
  { s with jobs := s.jobs.map fun j => { j with tried := false } }

/-- HELD of every field in which a test is open, or was (R358). -/
def State.testsTick (s : State) : State :=
  (List.range 56).foldl (fun s f =>
    if s.fld F.INT_FLD_TEST_DUE f ≠ 0 ∨ s.fld F.INT_FLD_TEST_MARKED f ≠ 0 ∨ s.flag F.INT_FLD_TEST_HELD f then s.refreshTest f
    else s) s

/-- Every tick of a pre-empted job without fields counts as held until its restore (the example under R335). -/
def State.holdAway (s : State) : State :=
  (s.jobs.filter fun j => j.state == .preempted && !j.placed).foldl (fun s j => s.runHold j.ident) s

/-- The wafer and its jobs at a tick. -/
def State.waferTick (s : State) (x : TickIn) : State :=
  let s := ((s.missionTick x.dieMax.toNat).goalTick).showMovers.holdAway
  let s := { s.commitsTick.freeOps with votedHolders := [] }
  let s := (s.liveSlots.foldl State.tickSlot s).stopsTick
  let s := s.tokenAudit fun n => s.demandOf n (s.nextProgram n) (s.fld F.PWR_STATUS_STEP)
  let s := (s.autoResumes.startMovers.linksTick x.fec).resolveTick
  s.jobsTick.testsTick

/-- The deck's tick: its clock runs on, the servo works, and the deck acts on what is due. -/
def State.opticsTick (s : State) (x : TickIn) : State :=
  let s := s.updDeck fun d => { d with clock := d.clock + d.period * ns }
  (s.servoTick x.volts.toNat x.axes).deckTick

/-- A tick of the module reaches the deck, unless the deck is DETACHED and no ticks have returned (R241). The deck keeps its period. -/
def State.opticsTicked (s : State) (x : TickIn) : State :=
  if !s.domains.deck || (s.flag F.DCK_STATUS_DETACHED && s.deck.realign == 0) then s
  else (s.updDeck fun d => { d with period := s.period }).opticsTick x

/-- TICK: at each tick the module applies the decision taken at the previous close for every slice, and runs every action bound to the
tick, R18. A control domain without power sees no tick. A tick of the deck's own oscillator, at the last tick period, runs the servo of a
deck that is DETACHED, and nothing else (R240, R241). -/
def execTick (x : TickIn) (s : State) : Res :=
  if x.own then .next (if s.domains.deck && s.flag F.DCK_STATUS_DETACHED && s.deck.realign == 0 then s.opticsTick x else s)
  else if !s.domains.control then .next s
  else
    let s := ((s.timeTick).powerTick x).trimApply
    let s := if s.booted then (if s.domains.wafer then s.waferTick x else s).assignTick else s
    .next (s.opticsTicked x)

end Sys2Proof.Machine
end

