-- ==== Sys2Proof/Machine/Dispatch.lean ====
section
/-!
DEFINITION. Sys2Proof/Machine/Dispatch.lean: the meaning of every command, one arm for each constructor of Instr.
-/
namespace Sys2Proof.Machine

def exec (i : Instr) (s : State) : Host.Outcome State Fault Refusal :=
  match i with
  | .tick x => Sys2Proof.Machine.execTick x s
  | .close => Sys2Proof.Machine.execClose s
  | .vote slice x => Sys2Proof.Machine.execVote slice x s
  | .decision slice d => Sys2Proof.Machine.execDecision slice d s
  | .holdLimitReached n => Sys2Proof.Machine.execHoldLimitReached n s
  | .homeModuleLost n => Sys2Proof.Machine.execHomeModuleLost n s
  | .faultUnresolved n => Sys2Proof.Machine.execFaultUnresolved n s
  | .timeLost n => Sys2Proof.Machine.execTimeLost n s
  | .contextSaveDone n => Sys2Proof.Machine.execContextSaveDone n s
  | .contextRestoreDone n => Sys2Proof.Machine.execContextRestoreDone n s
  | .nop a => Sys2Proof.Machine.execNop a s
  | .end_ a => Sys2Proof.Machine.execEnd a s
  | .fence a => Sys2Proof.Machine.execFence a s
  | .loop a count body => Sys2Proof.Machine.execLoop a count body s
  | .ptrSet a dst imm => Sys2Proof.Machine.execPtrSet a dst imm s
  | .ptrAdd a dst imm => Sys2Proof.Machine.execPtrAdd a dst imm s
  | .ptrParity a dst imm stride => Sys2Proof.Machine.execPtrParity a dst imm stride s
  | .loadA a op => Sys2Proof.Machine.execLoadA a op s
  | .loadB a op => Sys2Proof.Machine.execLoadB a op s
  | .loadScaleA a op => Sys2Proof.Machine.execLoadScaleA a op s
  | .loadScaleB a op => Sys2Proof.Machine.execLoadScaleB a op s
  | .mmaAcc a op => Sys2Proof.Machine.execMmaAcc a op s
  | .mmaZero a op => Sys2Proof.Machine.execMmaZero a op s
  | .coreMarkedForTest a => Sys2Proof.Machine.execCoreMarkedForTest a s
  | .vecAdd a op => Sys2Proof.Machine.execVecAdd a op s
  | .vecMul a op => Sys2Proof.Machine.execVecMul a op s
  | .vecFma a op => Sys2Proof.Machine.execVecFma a op s
  | .vecMax a op => Sys2Proof.Machine.execVecMax a op s
  | .vecScale a op => Sys2Proof.Machine.execVecScale a op s
  | .vecCopy a op => Sys2Proof.Machine.execVecCopy a op s
  | .vecExp a op => Sys2Proof.Machine.execVecExp a op s
  | .vecRsqrt a op => Sys2Proof.Machine.execVecRsqrt a op s
  | .vecRsum a op => Sys2Proof.Machine.execVecRsum a op s
  | .vecRmax a op => Sys2Proof.Machine.execVecRmax a op s
  | .cvt a op => Sys2Proof.Machine.execCvt a op s
  | .accToSram a op => Sys2Proof.Machine.execAccToSram a op s
  | .sramToAcc a op => Sys2Proof.Machine.execSramToAcc a op s
  | .send a op => Sys2Proof.Machine.execSend a op s
  | .gread a op => Sys2Proof.Machine.execGread a op s
  | .gwrite a op => Sys2Proof.Machine.execGwrite a op s
  | .post a mem queue => Sys2Proof.Machine.execPost a mem queue s
  | .seqNextWrite n index valid => Sys2Proof.Machine.execSeqNextWrite n index valid s
  | .seqFldLoadStart f slot => Sys2Proof.Machine.execSeqFldLoadStart f slot s
  | .fieldLoadDone f away => Sys2Proof.Machine.execFieldLoadDone f away s
  | .stepRepair n away => Sys2Proof.Machine.execStepRepair n away s
  | .injectArm f core kind => Sys2Proof.Machine.execInjectArm f core kind s
  | .srmFldClearStart f => Sys2Proof.Machine.execSrmFldClearStart f s
  | .fieldClearDone f => Sys2Proof.Machine.execFieldClearDone f s
  | .sramScrub f w line => Sys2Proof.Machine.execSramScrub f w line s
  | .lpddrScrub line => Sys2Proof.Machine.execLpddrScrub line s
  | .mmuSlotInvalStart n all page => Sys2Proof.Machine.execMmuSlotInvalStart n all page s
  | .mmuSlotRootWrite n root => Sys2Proof.Machine.execMmuSlotRootWrite n root s
  | .lpdAllocate slice frame => Sys2Proof.Machine.execLpdAllocate slice frame s
  | .lpdFree slice frame => Sys2Proof.Machine.execLpdFree slice frame s
  | .remoteTimeout tag => Sys2Proof.Machine.execRemoteTimeout tag s
  | .moverIssue f m => Sys2Proof.Machine.execMoverIssue f m s
  | .moverResponse tag segment b => Sys2Proof.Machine.execMoverResponse tag segment b s
  | .moverParkDone f m => Sys2Proof.Machine.execMoverParkDone f m s
  | .moverAutoResume f m => Sys2Proof.Machine.execMoverAutoResume f m s
  | .moverComplete f m => Sys2Proof.Machine.execMoverComplete f m s
  | .moverParkTimeout f m => Sys2Proof.Machine.execMoverParkTimeout f m s
  | .moverPost f m ident => Sys2Proof.Machine.execMoverPost f m ident s
  | .moverResume f m ident => Sys2Proof.Machine.execMoverResume f m ident s
  | .moverCancel f m ident => Sys2Proof.Machine.execMoverCancel f m ident s
  | .moverStop f m ident => Sys2Proof.Machine.execMoverStop f m ident s
  | .rotationDue f c => Sys2Proof.Machine.execRotationDue f c s
  | .stateMoveDone f c => Sys2Proof.Machine.execStateMoveDone f c s
  | .directedShift f col prow => Sys2Proof.Machine.execDirectedShift f col prow s
  | .fenceSpare f col prow => Sys2Proof.Machine.execFenceSpare f col prow s
  | .fenceCore f col prow => Sys2Proof.Machine.execFenceCore f col prow s
  | .retireField f => Sys2Proof.Machine.execRetireField f s
  | .elementFailed e => Sys2Proof.Machine.execElementFailed e s
  | .fieldRetirement f => Sys2Proof.Machine.execFieldRetirement f s
  | .idleFrame n f => Sys2Proof.Machine.execIdleFrame n f s
  | .dataFrame n f => Sys2Proof.Machine.execDataFrame n f s
  | .nakFrame n f => Sys2Proof.Machine.execNakFrame n f s
  | .auditFrame n f => Sys2Proof.Machine.execAuditFrame n f s
  | .identFrame l f => Sys2Proof.Machine.execIdentFrame l f s
  | .echoFrame l f arrived => Sys2Proof.Machine.execEchoFrame l f arrived s
  | .creditInitFrame n f v0 v1 v2 v3 => Sys2Proof.Machine.execCreditInitFrame n f v0 v1 v2 v3 s
  | .retrainFrame n f => Sys2Proof.Machine.execRetrainFrame n f s
  | .nakGapTimeout n => Sys2Proof.Machine.execNakGapTimeout n s
  | .read a p => Sys2Proof.Machine.execRead a p s
  | .readData a p => Sys2Proof.Machine.execReadData a p s
  | .write a p => Sys2Proof.Machine.execWrite a p s
  | .writeDone x => Sys2Proof.Machine.execWriteDone x s
  | .faultRsp x => Sys2Proof.Machine.execFaultRsp x s
  | .exchange a p => Sys2Proof.Machine.execExchange a p s
  | .time n m arrived leaves => Sys2Proof.Machine.execTime n m arrived leaves s
  | .mgmt via p x => Sys2Proof.Machine.execMgmt via p x s
  | .lightPresent l power => Sys2Proof.Machine.execLightPresent l power s
  | .trainingRestart l => Sys2Proof.Machine.execTrainingRestart l s
  | .trainingDeadline n => Sys2Proof.Machine.execTrainingDeadline n s
  | .linkUp n => Sys2Proof.Machine.execLinkUp n s
  | .laneLoss l light => Sys2Proof.Machine.execLaneLoss l light s
  | .linkRetrain n cause => Sys2Proof.Machine.execLinkRetrain n cause s
  | .retrainCommand n => Sys2Proof.Machine.execRetrainCommand n s
  | .clearCommand n => Sys2Proof.Machine.execClearCommand n s
  | .opticalEngineFailed e => Sys2Proof.Machine.execOpticalEngineFailed e s
  | .pathSetStart count => Sys2Proof.Machine.execPathSetStart count s
  | .setStartTick => Sys2Proof.Machine.execSetStartTick s
  | .pathSettled o pin pout => Sys2Proof.Machine.execPathSettled o pin pout s
  | .park => Sys2Proof.Machine.execPark s
  | .parking => Sys2Proof.Machine.execParking s
  | .deckParked => Sys2Proof.Machine.execDeckParked s
  | .unpark => Sys2Proof.Machine.execUnpark s
  | .deckResetKey key park => Sys2Proof.Machine.execDeckResetKey key park s
  | .detached => Sys2Proof.Machine.execDetached s
  | .ticksReturn => Sys2Proof.Machine.execTicksReturn s
  | .axisLost a => Sys2Proof.Machine.execAxisLost a s
  | .servoFault a code => Sys2Proof.Machine.execServoFault a code s
  | .supplyRecovered => Sys2Proof.Machine.execSupplyRecovered s
  | .axisClear a => Sys2Proof.Machine.execAxisClear a s
  | .commitArm e tick => Sys2Proof.Machine.execCommitArm e tick s
  | .commitTakesEffect e => Sys2Proof.Machine.execCommitTakesEffect e s
  | .spareSwitch e departing step => Sys2Proof.Machine.execSpareSwitch e departing step s
  | .timeMeasure => Sys2Proof.Machine.execTimeMeasure s
  | .measurementLost => Sys2Proof.Machine.execMeasurementLost s
  | .holdoverExpiry => Sys2Proof.Machine.execHoldoverExpiry s
  | .tickInEdge edge marker => Sys2Proof.Machine.execTickInEdge edge marker s
  | .refclkLoss => Sys2Proof.Machine.execRefclkLoss s
  | .harnessArm => Sys2Proof.Machine.execHarnessArm s
  | .periodChangeArm period => Sys2Proof.Machine.execPeriodChangeArm period s
  | .periodChangeCancel => Sys2Proof.Machine.execPeriodChangeCancel s
  | .periodChange => Sys2Proof.Machine.execPeriodChange s
  | .tsqPop q => Sys2Proof.Machine.execTsqPop q s
  | .ptpEventMessage port sent crossed tai => Sys2Proof.Machine.execPtpEventMessage port sent crossed tai s
  | .doorbell n imm => Sys2Proof.Machine.execDoorbell n imm s
  | .descriptorFetch n entries => Sys2Proof.Machine.execDescriptorFetch n entries s
  | .completionWrite n => Sys2Proof.Machine.execCompletionWrite n s
  | .fePacket p => Sys2Proof.Machine.execFePacket p s
  | .feAckTimeout n => Sys2Proof.Machine.execFeAckTimeout n s
  | .feNak n psn syndrome => Sys2Proof.Machine.execFeNak n psn syndrome s
  | .feArp port addr => Sys2Proof.Machine.execFeArp port addr s
  | .connOpen n => Sys2Proof.Machine.execConnOpen n s
  | .connClose n => Sys2Proof.Machine.execConnClose n s
  | .connReopen n => Sys2Proof.Machine.execConnReopen n s
  | .nopDescriptor n => Sys2Proof.Machine.execNopDescriptor n s
  | .load n => Sys2Proof.Machine.execLoad n s
  | .loadWaitExpired job => Sys2Proof.Machine.execLoadWaitExpired job s
  | .loadDone job targets => Sys2Proof.Machine.execLoadDone job targets s
  | .run n => Sys2Proof.Machine.execRun n s
  | .copyIn n => Sys2Proof.Machine.execCopyIn n s
  | .copyOut n => Sys2Proof.Machine.execCopyOut n s
  | .status n => Sys2Proof.Machine.execStatus n s
  | .stop n => Sys2Proof.Machine.execStop n s
  | .release n => Sys2Proof.Machine.execRelease n s
  | .resume n => Sys2Proof.Machine.execResume n s
  | .invalidOpcode n => Sys2Proof.Machine.execInvalidOpcode n s
  | .jobCmdStop job => Sys2Proof.Machine.execJobCmdStop job s
  | .jobCmdRelease job => Sys2Proof.Machine.execJobCmdRelease job s
  | .jobCmdResume job => Sys2Proof.Machine.execJobCmdResume job s
  | .placement p => Sys2Proof.Machine.execPlacement p s
  | .schedulerPreempt job => Sys2Proof.Machine.execSchedulerPreempt job s
  | .lingerExpired job => Sys2Proof.Machine.execLingerExpired job s
  | .samplingCompute => Sys2Proof.Machine.execSamplingCompute s
  | .positionDue f c p => Sys2Proof.Machine.execPositionDue f c p s
  | .testStart f c p inPlace => Sys2Proof.Machine.execTestStart f c p inPlace s
  | .testDone f c p part => Sys2Proof.Machine.execTestDone f c p part s
  | .maximumDeferral f c p => Sys2Proof.Machine.execMaximumDeferral f c p s
  | .feedLost feed volts => Sys2Proof.Machine.execFeedLost feed volts s
  | .feedReturn feed volts => Sys2Proof.Machine.execFeedReturn feed volts s
  | .clockStepSlower => Sys2Proof.Machine.execClockStepSlower s
  | .clockStepFaster => Sys2Proof.Machine.execClockStepFaster s
  | .overdraw mean frame ampsA ampsB => Sys2Proof.Machine.execOverdraw mean frame ampsA ampsB s
  | .ceilingWrite c => Sys2Proof.Machine.execCeilingWrite c s
  | .calRun mask mref => Sys2Proof.Machine.execCalRun mask mref s
  | .calGroupJudged g mref codes => Sys2Proof.Machine.execCalGroupJudged g mref codes s
  | .fuseBurn key intact => Sys2Proof.Machine.execFuseBurn key intact s
  | .hourlySave okA okB => Sys2Proof.Machine.execHourlySave okA okB s
  | .assignmentRecord bytes => Sys2Proof.Machine.execAssignmentRecord bytes s
  | .recordResend => Sys2Proof.Machine.execRecordResend s
  | .timeRecordSend => Sys2Proof.Machine.execTimeRecordSend s
  | .binSample b => Sys2Proof.Machine.execBinSample b s
  | .periodEnd => Sys2Proof.Machine.execPeriodEnd s
  | .logEntry e okA okB => Sys2Proof.Machine.execLogEntry e okA okB s
  | .cartridgeCalibration mref drift => Sys2Proof.Machine.execCartridgeCalibration mref drift s
  | .cartridgeCheck seating certOk => Sys2Proof.Machine.execCartridgeCheck seating certOk s
  | .cartridgeCheckTimeout => Sys2Proof.Machine.execCartridgeCheckTimeout s
  | .tamper => Sys2Proof.Machine.execTamper s
  | .ident => Sys2Proof.Machine.execIdent s
  | .regs => Sys2Proof.Machine.execRegs s
  | .log lseq => Sys2Proof.Machine.execLog lseq s
  | .selftest passed => Sys2Proof.Machine.execSelftest passed s
  | .update u => Sys2Proof.Machine.execUpdate u s
  | .unknownCommand => Sys2Proof.Machine.execUnknownCommand s
  | .cartridgePowerLoss => Sys2Proof.Machine.execCartridgePowerLoss s
  | .logCursorWrite lseq => Sys2Proof.Machine.execLogCursorWrite lseq s
  | .begin length => Sys2Proof.Machine.execBegin length s
  | .fwuWrite offset len okA okB => Sys2Proof.Machine.execFwuWrite offset len okA okB s
  | .verify => Sys2Proof.Machine.execVerify s
  | .activate okA okB => Sys2Proof.Machine.execActivate okA okB s
  | .confirm okA okB library => Sys2Proof.Machine.execConfirm okA okB library s
  | .abort => Sys2Proof.Machine.execAbort s
  | .trialWatchdog okA okB => Sys2Proof.Machine.execTrialWatchdog okA okB s
  | .boot okA okB => Sys2Proof.Machine.execBoot okA okB s
  | .attest nonce => Sys2Proof.Machine.execAttest nonce s
  | .recordClose seq => Sys2Proof.Machine.execRecordClose seq s
  | .suppressionRecord => Sys2Proof.Machine.execSuppressionRecord s
  | .cursorWrite seq => Sys2Proof.Machine.execCursorWrite seq s
  | .evrClear key => Sys2Proof.Machine.execEvrClear key s
  | .note code => Sys2Proof.Machine.execNote code s
  | .hello p session => Sys2Proof.Machine.execHello p session s
  | .peerDown p => Sys2Proof.Machine.execPeerDown p s
  | .resynchronisation p session => Sys2Proof.Machine.execResynchronisation p session s
  | .powerUp x => Sys2Proof.Machine.execPowerUp x s
  | .modRstN => Sys2Proof.Machine.execModRstN s
  | .controlReset => Sys2Proof.Machine.execControlReset s
  | .waferReset x => Sys2Proof.Machine.execWaferReset x s
  | .deckReset mref => Sys2Proof.Machine.execDeckReset mref s
  | .deckPowerLoss expired => Sys2Proof.Machine.execDeckPowerLoss expired s
  | .thermalShutdown conv => Sys2Proof.Machine.execThermalShutdown conv s
  | .waferRestart conv x => Sys2Proof.Machine.execWaferRestart conv x s
  | .setupRequest station port datagram => Sys2Proof.Machine.execSetupRequest station port datagram s
  | .mgmtArp addr => Sys2Proof.Machine.execMgmtArp addr s
  | .i3cPrivateTransfer t => Sys2Proof.Machine.execI3cPrivateTransfer t s
  | .i3cCcc c => Sys2Proof.Machine.execI3cCcc c s
  | .setupLock key => Sys2Proof.Machine.execSetupLock key s
  | .autolock => Sys2Proof.Machine.execAutolock s
  | .lineRead line => Sys2Proof.Machine.execLineRead line s
  | .registerWrite path offset bytes => Sys2Proof.Machine.execRegisterWrite path offset bytes s
  | .fecLock c => Sys2Proof.Machine.execFecLock c s
  | .refclkReturn => Sys2Proof.Machine.execRefclkReturn s
  | .modRstNRelease okA okB x => Sys2Proof.Machine.execModRstNRelease okA okB x s
  | .cartridgeRemoval => Sys2Proof.Machine.execCartridgeRemoval s
  | .entryModuleNoAnswer n => Sys2Proof.Machine.execEntryModuleNoAnswer n s
  | .retrainFailed n => Sys2Proof.Machine.execRetrainFailed n s
  | .fePortLinkChange port up lanes => Sys2Proof.Machine.execFePortLinkChange port up lanes s

end Sys2Proof.Machine
end

