-- ==== Sys2Proof/WellFormed.lean ====
section
/-!
DEFINITION. Sys2Proof/WellFormed.lean: which operands a command can carry where their types do not say it: the checks that a
program set passes before its steps are stored (Table 3.1), the shape of packets (Table 8.4) and link frames (Table 8.2), and
the lengths of records. Nothing in the machine depends on it; statements do.
-/
namespace Sys2Proof

open Sys2Proof.Machine (slotLines mmaReject)

/-- The shape of a packet of a type, R200 and Table 8.4: responses, writes and exchanges carry the lines that the header names,
others no data; a whole tile has 64 lines and its record. -/
def Packet.hasType (p : Packet) (t : BitVec 4) : Bool :=
  p.ptype == t &&
    (if t == 0x1 || t == 0x2 || t == 0x4 then p.data.length == 64 * (p.lines.val + 1) else p.data.isEmpty || t == 0x8) &&
    (!p.tile || t == 0x0 || (p.lines.val == 63 && p.record.isSome))

/-- The shape of a link frame, Table 8.2: 232 bytes of payload at most, LEN among them. -/
def LinkFrame.shaped (f : LinkFrame) : Bool := decide (f.payload.length ≤ 232) && decide (f.len.toNat ≤ 232)

/-- Can a command carry these operands? Of every command without a line of its own the types say all. -/
def Instr.wf : Instr → Bool
  | .loop _ _ body => body.val != 0 && decide (body.val ≤ 16320)
  | .loadA _ op => decide (op.lines.val < slotLines 0)
  | .loadB _ op => decide (op.lines.val < slotLines 1)
  | .loadScaleA _ op => decide (op.lines.val < slotLines 2)
  | .loadScaleB _ op => decide (op.lines.val < slotLines 3)
  | .mmaAcc _ op => (mmaReject op).isNone
  | .mmaZero _ op => (mmaReject op).isNone
  | .gread _ op => op.va.toNat % 64 == 0
  | .gwrite _ op => op.va.toNat % 64 == 0
  | .idleFrame _ f => f.shaped
  | .dataFrame _ f => f.shaped
  | .nakFrame _ f => f.shaped
  | .auditFrame _ f => f.shaped
  | .identFrame _ f => f.shaped
  | .echoFrame _ f _ => f.shaped
  | .retrainFrame _ f => f.shaped
  | .creditInitFrame _ f _ _ _ _ => f.shaped
  | .read _ p => p.hasType 0x0
  | .readData _ p => p.hasType 0x1
  | .write _ p => p.hasType 0x2
  | .writeDone x => x.packet.hasType 0x3
  | .faultRsp x => x.packet.hasType 0x9
  | .exchange _ p => p.hasType 0x4
  | .mgmt _ p _ => p.hasType 0x8
  | .assignmentRecord bs => bs.length == 192
  | .binSample b => b.rails.length == 64
  | _ => true

end Sys2Proof
end

