-- ==== Sys2Proof/Safety.lean ====
section
/-!
DEFINITION. Sys2Proof/Safety.lean: the terms in which statements speak of steps: completion, what a step leaves unchanged, and
the conditions that every step keeps.
-/
namespace Sys2Proof

open Sys2Proof.Machine (State Reg Core exec regDflt mapWf)

/-- A command completes with a next state of which P holds. -/
def Completes (c : Instr) (s : State) (P : State → Prop) : Prop := ∃ t, exec c s = .next t ∧ P t

/-- Outside the listed registers, every register reads as before. -/
def SameRegs (but : List (Reg × Nat)) (s t : State) : Prop :=
  ∀ r i, i < 65536 → (r, i) ∉ but → t.rd r i = s.rd r i

/-- Every byte of memory and every poison mark reads as before. -/
def SameMem (s t : State) : Prop := ∀ a, t.mem.byte a = s.mem.byte a ∧ t.mem.mark a = s.mem.mark a

/-- Everything but the registers and the recorder is as before; registers may differ only where listed. -/
def OnlyRegs (but : List (Reg × Nat)) (s t : State) : Prop :=
  { t with regs := [], evr := s.evr } = { s with regs := [], evr := s.evr } ∧ SameRegs but s t

/-- Everything but the registers is as before; registers may differ only where listed. -/
def OnlyRegsQuiet (but : List (Reg × Nat)) (s t : State) : Prop := t.evr = s.evr ∧ OnlyRegs but s t

/-- The step that a core is at reads without an error (R49), and does not wait for an earlier one (R67, R68). -/
def StepReads (a : CoreAt) (s : State) : Prop :=
  (s.core a.field a.core).upsetAt (s.core a.field a.core).pc = 0 ∧ (s.core a.field a.core).waits = false

/-- Everything but the named core is as before. -/
def OnlyCore (a : CoreAt) (s t : State) : Prop :=
  { t with cores := s.cores } = s ∧ ∀ (f : Fin 56) (c : Fin 450), (⟨f, c⟩ : CoreAt) ≠ a → t.core f c = s.core f c

/-- The named core changes by a function, and nothing else changes. -/
def CoreBecomes (a : CoreAt) (s : State) (g : Core → Core) (t : State) : Prop :=
  OnlyCore a s t ∧ t.core a.field a.core = g (s.core a.field a.core)

/-- A core whose accumulator file holds no error and no poison. -/
def CleanTiles (k : Core) : Prop := k.accUpset = [] ∧ k.accPoison = 0

/-- Every core but one is as before. -/
def SameCoresBut (a : CoreAt) (s t : State) : Prop :=
  ∀ (f : Fin 56) (c : Fin 450), (⟨f, c⟩ : CoreAt) ≠ a → t.core f c = s.core f c

/-- Lines from an offset on hold neither a bit error nor a poison mark. -/
def CleanLines (s : State) (o n : Nat) : Prop :=
  ∀ i, i < n → s.mem.mark (o + 64 * i) = 0 ∧ Machine.mapGet (fun _ => 0) s.mem.upset ((o + 64 * i) / 64) = 0

/-- A program may write lines of its own core (R62, R63, R69). -/
def MayWrite (a : CoreAt) (s : State) (line n : Nat) : Prop :=
  line + n ≤ Machine.sramLines ∧
  ∀ l, line ≤ l → l < line + n → s.inputLine a.field a.core l = false ∧ s.outputLine a.field a.core l = true

/-- Every byte outside a range reads as before. -/
def SameBytesBut (o n : Nat) (s t : State) : Prop := ∀ x, x < o ∨ o + n ≤ x → t.mem.byte x = s.mem.byte x

/-- Everything but the movers and MOV_FLD_CMD of a field is as before. -/
def OnlyRegsMovers (f : Nat) (s t : State) : Prop :=
  { t with regs := s.regs, movers := s.movers } = s ∧ SameRegs [(.MOV_FLD_CMD, f)] s t

/-- A core whose sequencer has moved on n times. -/
def advances : Nat → Core → Core
  | 0, k => k
  | n + 1, k => (advances n k).advance

/-- The register map is in its canonical form: keys strictly rising, no entry at its reset value. -/
def RegsCanonical (s : State) : Prop := mapWf regDflt s.regs = true

/-- The memory, and every saved context, is in its canonical form. -/
def MemCanonical (s : State) : Prop :=
  s.mem.wf = true ∧ ∀ v ∈ s.saved, ∀ f ∈ v.fields, f.mem.wf = true

end Sys2Proof
end

