-- ==== Sys2Proof/Certificates/Slice0/Obligations.lean ====
section
/-!
DEFINITION. Sys2Proof/Certificates/Slice0/Obligations.lean: the statements of this row.
-/
open Sys2Proof Sys2Proof.Machine

/-! ## The queue -/

/-- A step with a command at the front of the queue is exec of that command on the state with the rest of the queue. -/
def Obligations.StepRunsFront : Prop :=
  ∀ (c : Instr) (rest : List Instr) (s : State),
    step { s with pending := c :: rest } = exec c { s with pending := rest }

/-! ## Frame programs, chapters 3 and 4 -/

/-- R69 to R71: NOP and FENCE have no effect but the sequencer's advance; a FENCE with an access outstanding does not issue; LOOP opens
a loop of its BODY; PTR SET, ADD and PARITY write one pointer register. Nothing else of the module changes. -/
def Obligations.ControlSteps : Prop :=
  ∀ (a : CoreAt) (s : State), StepReads a s →
    Completes (.nop a) s (CoreBecomes a s Core.advance) ∧
    ((s.core a.field a.core).outstanding = 0 → Completes (.fence a) s (CoreBecomes a s Core.advance)) ∧
    ((s.core a.field a.core).outstanding ≠ 0 → exec (.fence a) s = .next s) ∧
    (∀ count body, (Instr.loop a count body).wf = true →
      Completes (.loop a count body) s (CoreBecomes a s fun k =>
        { k with loops := { first := k.pc + 1, stop := k.pc + 1 + body.val, left := count.val } :: k.loops }.advance)) ∧
    (∀ dst imm, Completes (.ptrSet a dst imm) s (CoreBecomes a s fun k => (k.setPtr dst imm.toNat).advance)) ∧
    (∀ dst imm, Completes (.ptrAdd a dst imm) s (CoreBecomes a s fun k =>
        (k.setPtr dst ((k.ptr dst + imm.toNat) % 65536)).advance)) ∧
    (∀ dst imm stride, Completes (.ptrParity a dst imm stride) s (CoreBecomes a s fun k =>
        (k.setPtr dst ((imm.toNat + s.frameOfField a.field % 2 * stride.toNat) % 65536)).advance))

/-- R70: from the first step of its body, with no other loop open, LOOP passes through the BODY steps COUNT times in order and then
goes on behind them. -/
def Obligations.LoopRepeats : Prop :=
  ∀ (k : Core) (count body : Nat), 0 < body → k.loops = [] →
    let k1 : Core := { k with pc := k.pc + 1, loops := [{ first := k.pc + 1, stop := k.pc + 1 + body, left := count }] }
    (∀ j, j < body * (count + 1) → (advances j k1).pc = k.pc + 1 + j % body) ∧
    advances (body * (count + 1)) k1 = { k with pc := k.pc + 1 + body, loops := [] }

/-- R69, R111: END, with every earlier step completed and the two signatures equal, ends the program of its core and moves on; every other
core, memory, the recorder and every register but SEQ_STATUS of the core's slot are as before, and of that register only RUNNING may
change, which clears when no core of the slice runs any more. -/
def Obligations.EndStep : Prop :=
  ∀ (a : CoreAt) (s : State), StepReads a s → (s.core a.field a.core).outstanding = 0 →
    (s.core a.field a.core).sigMain = (s.core a.field a.core).sigCheck →
    Completes (.end_ a) s fun t =>
      t.core a.field a.core = { s.core a.field a.core with running := false }.advance ∧
      SameCoresBut a s t ∧ { t with cores := s.cores, regs := s.regs } = s ∧
      (∀ n, s.slotOfField a.field = some n →
        ((∀ p ∈ s.coresOf n, p ≠ (a.field.val, a.core.val) → (s.core p.1 p.2).running = false) →
          t.fld F.SEQ_STATUS_RUNNING n = 0) ∧
        ∀ g ∈ [F.SEQ_STATUS_HOLD, F.SEQ_STATUS_REPLAY, F.SEQ_STATUS_INDEX, F.SEQ_STATUS_FAULTED, F.SEQ_STATUS_PROGRAM],
          t.fld g n = s.fld g n) ∧
      SameRegs ((s.slotOfField a.field).toList.map fun n => (.SEQ_STATUS, n)) s t

/-- R69, R86, R88: a LOAD whose lines lie in the core and hold no error and no poison fills its operand slot from the first byte with the
bytes of the lines, without poison, and leaves every other byte of the slots, the tiles and the pointers as before; nothing but the
core changes. -/
def Clause.LoadSteps : Prop :=
  ∀ (a : CoreAt) (op : LoadOp) (s : State) (i : Instr) (kind : Nat), StepReads a s →
    (i, kind) ∈ [(Instr.loadA a op, 0), (.loadB a op, 1), (.loadScaleA a op, 2), (.loadScaleB a op, 3)] → i.wf = true →
    let k := s.core a.field a.core
    let o := sramLine a.field a.core (k.line op.mem)
    let slot := slotNo kind op.slot
    k.line op.mem + (op.lines + 1) ≤ sramLines → CleanLines s o (op.lines + 1) →
    Completes i s fun t =>
      OnlyCore a s t ∧
      (∀ j, j < 64 * (op.lines + 1) →
        mapGet (fun _ => 0) (t.core a.field a.core).opnd (slot * 32768 + j) = s.mem.byte (o / 64 * 64 + j)) ∧
      (∀ j, j < slot * 32768 ∨ slot * 32768 + 64 * (op.lines + 1) ≤ j →
        mapGet (fun _ => 0) (t.core a.field a.core).opnd j = mapGet (fun _ => 0) k.opnd j) ∧
      (t.core a.field a.core).opndBad slot = false ∧
      (t.core a.field a.core).pc = k.advance.pc ∧ (t.core a.field a.core).acc = k.acc ∧ (t.core a.field a.core).ptrs = k.ptrs

/-- R69, R80: a LOAD with a line at 49,152 or above reads nothing and leaves the slot as it was; where a slot serves the field the frame
is marked, and a first fault stands in SEQ_FAULT with class SRAM_RANGE and in SEQ_FAULT_ADDR with the byte address of the first line
of the access (log entry 96: the model's choice among the lines). -/
def Clause.LoadOutOfRange : Prop :=
  ∀ (a : CoreAt) (op : LoadOp) (s : State) (i : Instr), StepReads a s →
    i ∈ [Instr.loadA a op, .loadB a op, .loadScaleA a op, .loadScaleB a op] → i.wf = true →
    let k := s.core a.field a.core
    sramLines < k.line op.mem + (op.lines + 1) →
    Completes i s fun t =>
      t.core a.field a.core = k.advance ∧ t.mem = s.mem ∧
      (∀ n, s.slotOfField a.field = some n → t.flag F.SEQ_STATUS_FAULTED n = true ∧
        (s.fld F.SEQ_FAULT_CLASS n = 0 → t.fld F.SEQ_FAULT_CLASS n = 0xA ∧ t.rd .SEQ_FAULT_ADDR n = k.line op.mem * 64))

/-- The LOAD steps, within the core and beyond its last line. -/
def Obligations.LoadStepsAndRange : Prop := Clause.LoadSteps ∧ Clause.LoadOutOfRange

/-- The product that an MMA forms at its core, as the next MMA of the core (R86 to R92), with 1.0 added to its first element where an
injection is armed for the core's MMA (R107) and no operand or scale slot that it reads is poisoned (R108). -/
def mmaProduct (a : CoreAt) (op : MmaOp) (s : State) : List F32 :=
  let k := s.core a.field a.core
  let p := (k.mmaIn op).product (k.mmas + 1)
  if mapGet (fun _ => none) s.inject a.field = some (a.core.val, false) ∧ k.mmaPoisoned op = false then injectProduct p else p

/-- What the comparator says of an MMA that takes a tile from one value to another: the first column that fails, if one does (R106). -/
def mmaFinding (a : CoreAt) (op : MmaOp) (s : State) (old new : List F32) : Option Nat :=
  (mmaCheck ((s.core a.field a.core).mmaIn op) ((s.core a.field a.core).mmas + 1) old new).1

/-- An MMA that passes has written a tile: its tile has the new value and a poison mark, the core's count of MMAs is one up and the
sequencer has moved on; the other tiles, the operand slots, the pointers, every other core, the memory and every register but the
count of non-finite results are as before, and no injection stays armed for it. -/
def MmaWrites (a : CoreAt) (op : MmaOp) (new : List F32) (bad : Bool) (s t : State) : Prop :=
  let k := s.core a.field a.core
  let l := t.core a.field a.core
  l.tile op.tile = new ∧ l.tileBad op.tile = bad ∧
  (∀ x : Fin 64, x ≠ op.tile → l.tile x = k.tile x ∧ l.tileBad x = k.tileBad x) ∧
  l.mmas = k.mmas + 1 ∧ l.pc = k.advance.pc ∧ l.opnd = k.opnd ∧ l.ptrs = k.ptrs ∧
  SameCoresBut a s t ∧ t.mem = s.mem ∧ mapGet (fun _ => none) t.inject a.field ≠ some (a.core.val, false) ∧
  SameRegs [(.TEN_FLD_NONFINITE, a.field.val), (.EVR_AUDIT, 0)] s t

/-- R92, R105, R106, R113: MMA ZERO writes the product over its tile, and MMA ACC, on a tile without errors, the sum of the tile and the
product, when the comparator finds no difference; the poison mark is that of the old tile for ACC and none for ZERO. With a poisoned
operand or scale slot the comparator does not judge, and the tile is written poisoned. -/
def Clause.MmaSteps : Prop :=
  ∀ (a : CoreAt) (op : MmaOp) (s : State), StepReads a s →
    let k := s.core a.field a.core
    let p := mmaProduct a op s
    let zeros := List.replicate 512 0#32
    let sum := tileZip f32Add (k.tile op.tile) p
    ((Instr.mmaZero a op).wf = true → k.mmaPoisoned op = false → mmaFinding a op s zeros p = none →
      Completes (.mmaZero a op) s (MmaWrites a op p false s)) ∧
    ((Instr.mmaZero a op).wf = true → k.mmaPoisoned op = true → Completes (.mmaZero a op) s (MmaWrites a op p true s)) ∧
    ((Instr.mmaAcc a op).wf = true → k.tileErrors op.tile = (0, false) → k.mmaPoisoned op = false →
      mmaFinding a op s (k.tile op.tile) sum = none →
      Completes (.mmaAcc a op) s (MmaWrites a op sum (k.tileBad op.tile) s)) ∧
    ((Instr.mmaAcc a op).wf = true → k.tileErrors op.tile = (0, false) → k.mmaPoisoned op = true →
      Completes (.mmaAcc a op) s (MmaWrites a op sum true s))

/-- R107: a column that fails its check poisons the tile, counts one failure in TEN_FLD_MMA_MISS, is captured in TEN_FLD_LAST where that
holds nothing, with the core, the column, the step and KIND 0, and marks the frame: as a first fault with class CHECK. -/
def MmaFails (a : CoreAt) (op : MmaOp) (col : Nat) (s t : State) : Prop :=
  (t.core a.field a.core).tileBad op.tile = true ∧ (t.core a.field a.core).pc = (s.core a.field a.core).advance.pc ∧
  t.rd .TEN_FLD_MMA_MISS a.field = (counterUp (s.rd .TEN_FLD_MMA_MISS a.field) 1).1 % 2 ^ 64 ∧
  t.flag F.TEN_FLD_LAST_VALID a.field = true ∧
  (s.flag F.TEN_FLD_LAST_VALID a.field = true → t.rd .TEN_FLD_LAST a.field = s.rd .TEN_FLD_LAST a.field) ∧
  (s.flag F.TEN_FLD_LAST_VALID a.field = false →
    t.fld F.TEN_FLD_LAST_CORE a.field = a.core.val ∧ t.fld F.TEN_FLD_LAST_COLUMN a.field = col ∧ t.fld F.TEN_FLD_LAST_KIND a.field = 0 ∧
    t.fld F.TEN_FLD_LAST_STEP a.field = (s.core a.field a.core).pc % 2 ^ 14) ∧
  (∀ n, s.slotOfField a.field = some n → t.flag F.SEQ_STATUS_FAULTED n = true ∧
    (s.fld F.SEQ_FAULT_CLASS n = 0 → t.fld F.SEQ_FAULT_CLASS n = 0x4)) ∧
  SameCoresBut a s t ∧ t.mem = s.mem

/-- R106, R107: MMA ZERO and MMA ACC with a column that fails its check. -/
def Clause.MmaCheckFails : Prop :=
  ∀ (a : CoreAt) (op : MmaOp) (s : State) (col : Nat), StepReads a s → col < 32 →
    let k := s.core a.field a.core
    let p := mmaProduct a op s
    (k.mmaPoisoned op = false) →
    ((Instr.mmaZero a op).wf = true → mmaFinding a op s (List.replicate 512 0#32) p = some col →
      Completes (.mmaZero a op) s (MmaFails a op col s)) ∧
    ((Instr.mmaAcc a op).wf = true → k.tileErrors op.tile = (0, false) →
      mmaFinding a op s (k.tile op.tile) (tileZip f32Add (k.tile op.tile) p) = some col →
      Completes (.mmaAcc a op) s (MmaFails a op col s))

/-- The MMA steps, with and without a difference found by the comparator. -/
def Obligations.MmaStepsAndCheck : Prop := Clause.MmaSteps ∧ Clause.MmaCheckFails

/-- The result of a VEC step from its source tiles, R102 and R103. -/
def vecResult (a : CoreAt) (op : VecOp) (k : Core) : List (Instr × List F32) :=
  [(.vecAdd a op, tileZip f32Add (k.tile op.src1) (k.tile op.src2)),
   (.vecMul a op, tileZip f32Mul (k.tile op.src1) (k.tile op.src2)),
   (.vecFma a op, tileFma (k.tile op.src1) (k.tile op.src2) (k.tile op.src3)),
   (.vecMax a op, tileZip f32Max (k.tile op.src1) (k.tile op.src2)),
   (.vecScale a op, (k.tile op.src1).map fun x => f32Mul x op.imm),
   (.vecCopy a op, k.tile op.src1),
   (.vecExp a op, (k.tile op.src1).map f32Exp),
   (.vecRsqrt a op, (k.tile op.src1).map f32Rsqrt),
   (.vecRsum a op, tileRsum (k.tile op.src1)),
   (.vecRmax a op, tileRmax (k.tile op.src1))]

/-- R102, R103, R110: on an accumulator file without errors and poison, and with no injection armed for the core, every VEC step writes its
result to DST and leaves every other tile, the pointers, the operand slots and everything but its core as before; DST may be a source. -/
def Obligations.VecSteps : Prop :=
  ∀ (a : CoreAt) (op : VecOp) (s : State) (i : Instr) (r : List F32), StepReads a s →
    let k := s.core a.field a.core
    CleanTiles k → mapGet (fun _ => none) s.inject a.field ≠ some (a.core.val, true) → (i, r) ∈ vecResult a op k →
    Completes i s fun t =>
      OnlyCore a s t ∧ (t.core a.field a.core).tile op.dst = r ∧ (t.core a.field a.core).tileBad op.dst = false ∧
      (∀ x : Fin 64, x ≠ op.dst → (t.core a.field a.core).tile x = k.tile x) ∧
      (t.core a.field a.core).pc = k.advance.pc ∧ (t.core a.field a.core).ptrs = k.ptrs ∧ (t.core a.field a.core).opnd = k.opnd

/-- R95, R97, R100: CVT of a clean tile, for a format without scales, to lines that the program may write puts there the tile narrowed to
the format and leaves every other byte of memory, every register and every other core as before; stochastic rounding uses 512 draws.
For a format with scales it also writes the 16 scale bytes at byte P15 × 16, where the program may write that line, adds 1 to P15, and
leaves every other byte as before. -/
def Clause.CvtStep : Prop :=
  ∀ (a : CoreAt) (op : CvtOp) (s : State), StepReads a s →
    let k := s.core a.field a.core
    let line := k.line op.mem
    let o := sramLine a.field a.core line
    let n := 64 * cvtLines op.fmt
    let out := cvtTile op.fmt op.rnd k.seed k.ctr.toNat (k.tile op.tile)
    let x := sramLine a.field a.core 0 + k.ptr 15 * 16
    let done := fun t : State =>
      t.regs = s.regs ∧ SameCoresBut a s t ∧
      (t.core a.field a.core).ctr = (if op.rnd = .stochastic then k.ctr + 512 else k.ctr) ∧
      (t.core a.field a.core).acc = k.acc ∧ (t.core a.field a.core).opnd = k.opnd ∧ (t.core a.field a.core).pc = k.advance.pc
    CleanTiles k → MayWrite a s line (cvtLines op.fmt) →
    (op.fmt.mx = false → Completes (.cvt a op) s fun t =>
      (∀ j, j < n → t.mem.byte (o + j) = out.1.getD j 0) ∧ SameBytesBut o n s t ∧ (t.core a.field a.core).ptrs = k.ptrs ∧ done t) ∧
    (op.fmt.mx = true → MayWrite a s (k.ptr 15 * 16 / 64) 1 → Completes (.cvt a op) s fun t =>
      (∀ j, j < 16 → t.mem.byte (x + j) = out.2.getD j 0) ∧
      (∀ j, j < n → o + j < x ∨ x + 16 ≤ o + j → t.mem.byte (o + j) = out.1.getD j 0) ∧
      (∀ y, y < o ∨ o + n ≤ y → y < x ∨ x + 16 ≤ y → t.mem.byte y = s.mem.byte y) ∧
      (t.core a.field a.core).ptr 15 = (k.ptr 15 + 1) % 65536 ∧
      (∀ q, q ≠ 15 → (t.core a.field a.core).ptr q = k.ptr q) ∧ done t)

/-- R67, R69: STORE ACC_TO_SRAM writes a clean tile as FP32 to 32 lines that the program may write, and no other byte, no register and no
other core; SRAM_TO_ACC fills a tile from 32 lines without errors and poison, and changes no other tile and nothing but its core. -/
def Clause.StoreSteps : Prop :=
  ∀ (a : CoreAt) (op : StoreOp) (s : State), StepReads a s →
    let k := s.core a.field a.core
    let line := k.line op.mem
    let o := sramLine a.field a.core line
    (CleanTiles k → MayWrite a s line 32 →
      Completes (.accToSram a op) s fun t =>
        (∀ j, j < 2048 → t.mem.byte (o + j) = (tileBytes (k.tile op.tile)).getD j 0) ∧
        SameBytesBut o 2048 s t ∧ t.regs = s.regs ∧ SameCoresBut a s t ∧ t.core a.field a.core = k.advance) ∧
    (line + 32 ≤ sramLines → CleanLines s o 32 →
      Completes (.sramToAcc a op) s fun t =>
        OnlyCore a s t ∧ (t.core a.field a.core).tile op.tile = bytesTile (s.mem.bytes o 2048) ∧
        (t.core a.field a.core).tileBad op.tile = false ∧
        (∀ x : Fin 64, x ≠ op.tile → (t.core a.field a.core).tile x = k.tile x))

/-- The steps that move a tile to lines and back: CVT and both STORE steps. -/
def Obligations.TileStores : Prop := Clause.CvtStep ∧ Clause.StoreSteps

/-- The record with which a whole tile of a core's SRAM leaves: its stored one when that is current, else one formed over the bytes
(R127, R338). -/
def leavingRecord (s : State) (o : Nat) : Sorrel :=
  let t := s.mem.tile o
  if t.current then t.copy1 else sorrelForm (s.mem.bytes o 4096) t.format false 0

/-- What a GLOBAL step needs to reach LPDDR of its own module in one piece through a cached translation: the network port free (Table 3.10),
a field that is not fenced, the slice's leaf, which permits the access, a target in job LPDDR that the slice owns, behind a field that
is not fenced, lines that do not cross a 4 KiB boundary, and a mesh that carries the next access whole (R74, R133 to R136, R173, R184). -/
def GlobalReaches (a : CoreAt) (op : GlobalOp) (s : State) (write : Bool) (o : Nat) : Prop :=
  let w := s.who a.field a.core
  let va := (s.core a.field a.core).globalVa op
  (s.core a.field a.core).outstanding = 0 ∧ s.fieldUp a.field = true ∧ s.flits.headD .intact = .intact ∧
  ∃ l, ((s.cacheOf a.field).find? fun l => l.hits w.slot va) = some l ∧ l.slice = w.slice ∧ l.poison = false ∧
    (write = true → l.write = true) ∧ l.address va / 2 ^ 50 = s.selfId ∧ o = l.address va % 2 ^ 50 ∧
    placeOf o = .job ∧ s.serves o = true ∧ s.mem.ownerOf (o / 2 ^ 21) = w.slice + 1 ∧ va / 64 % 64 + op.lines.val < 64

/-- R74, R128, R133: a GREAD through a cached translation, of lines without errors and, for a whole tile, with a stored copy that passes
verification, copies the lines of LPDDR to the lines of its core; a GWRITE that no region forbids, of lines without errors and, for a
whole tile, with a record that passes, copies the lines of its core to LPDDR. Every other byte, every register and every other core
is as before. -/
def Obligations.GlobalSteps : Prop :=
  ∀ (a : CoreAt) (op : GlobalOp) (s : State) (o : Nat), StepReads a s →
    let k := s.core a.field a.core
    let n := op.lines.val + 1
    let line := k.line op.mem
    let sram := sramLine a.field a.core line
    ((Instr.gread a op).wf = true → GlobalReaches a op s false o → MayWrite a s line n → CleanLines s o n →
      (wholeTile o n = true → sorrelOk (s.mem.bytes o 4096) (s.mem.tile o).copy1 = true) →
      Completes (.gread a op) s fun t =>
        (∀ j, j < 64 * n → t.mem.byte (sram + j) = s.mem.byte (o + j)) ∧ SameBytesBut sram (64 * n) s t ∧
        SameCoresBut a s t ∧ t.core a.field a.core = k.advance ∧ t.regs = s.regs) ∧
    ((Instr.gwrite a op).wf = true → GlobalReaches a op s true o → line + n ≤ sramLines → CleanLines s sram n →
      ((s.who a.field a.core).slot < 56 → s.regionCode (s.who a.field a.core).slot (k.globalVa op) true = 0) →
      (wholeTile o n = true → line % 64 = 0 → sorrelOk (s.mem.bytes sram 4096) (leavingRecord s sram) = true) →
      Completes (.gwrite a op) s fun t =>
        (∀ j, j < 64 * n → t.mem.byte (o + j) = s.mem.byte (sram + j)) ∧ SameBytesBut o (64 * n) s t ∧
        SameCoresBut a s t ∧ t.core a.field a.core = k.advance ∧ t.regs = s.regs)

/-- R76: with the network port free and its field not fenced, SEND to a core of its slice on this module, of lines without errors whose record, where one is current, passes verification, puts
one tile on the mesh: the 64 lines at its operand, with the frame number, replay count and placement epoch of its slice, the
destination and the receive slot. Memory, the registers and every other core are as before. -/
def Clause.SendStep : Prop :=
  ∀ (a : CoreAt) (op : SendOp) (s : State) (f : Nat), StepReads a s →
    let k := s.core a.field a.core
    let o := sramLine a.field a.core (k.line op.mem)
    let w := s.who a.field a.core
    k.outstanding = 0 → s.fieldUp a.field = true → k.line op.mem + 64 ≤ sramLines → CleanLines s o 64 →
    (k.line op.mem % 64 = 0 → (s.mem.tile o).current = true → sorrelOk (s.mem.bytes o 4096) (s.mem.tile o).copy1 = true) →
    s.sendTarget w.slice op.dstField.toNat op.dstCore.toNat = some (s.selfId, f) →
    Completes (.send a op) s fun t =>
      ∃ p : Packet, t.out = .packet p :: s.out ∧ p.ptype = 0x4 ∧ p.data = s.mem.bytes o 4096 ∧ p.tile = true ∧
        p.slice = BitVec.ofNat 12 w.slice ∧ p.frame = BitVec.ofNat 32 w.frame ∧ p.replay = BitVec.ofNat 2 w.replay ∧
        p.epoch = BitVec.ofNat 16 w.epoch ∧ p.lines = 63 ∧
        p.addr.toNat = op.dstField.toNat * 512 + op.dstCore.toNat + op.slot.toNat * 2 ^ 28 ∧
        t.mem = s.mem ∧ t.regs = s.regs ∧ SameCoresBut a s t ∧ t.core a.field a.core = k.advance

/-! ## Movers, chapter 6 -/

/-- R78, R148: with the network port free (Table 3.10), POST of a descriptor that breaks no rule puts it, pending, behind the queue of the mover, with the posting core, step and
frame in its tag; nothing else changes but the core's place in its program. -/
def Clause.PostStep : Prop :=
  ∀ (a : CoreAt) (mem : MemOp) (q : Fin 16) (s : State), StepReads a s →
    let k := s.core a.field a.core
    let o := sramLine a.field a.core (k.line mem)
    let v := s.mover a.field q
    let frame := s.frameOfField a.field % 2 ^ 32
    k.outstanding = 0 → k.line mem < sramLines → CleanLines s o 1 → (s.fieldOwner a.field).isSome = true → v.queue.length < 32 →
    v.hasTag a.core k.pc frame = false → s.rejectCode (s.sliceOfField a.field) (ofBytes (s.mem.bytes o 64)) false = 0 →
    Completes (.post a mem q) s fun t =>
      (t.mover a.field q).queue = v.queue ++
        [{ Desc.ofWords (ofBytes (s.mem.bytes o 64)) a.core k.pc frame (s.programOfField a.field) false with slice := s.sliceOfField a.field }] ∧
      (∀ m : Fin 16, m ≠ q → t.mover a.field m = s.mover a.field m) ∧
      t.core a.field a.core = k.advance ∧ { t with movers := s.movers, cores := s.cores } = s

/-- The steps that hand work on: SEND and POST. -/
def Obligations.SendAndPost : Prop := Clause.SendStep ∧ Clause.PostStep

/-- R147, R148: MOV_FLD_CMD with OP 0 posts the staged descriptor, released, behind the queue of the mover, and RESULT is 0. -/
def Clause.MoverPostCommand : Prop :=
  ∀ (f : Fin 56) (m : Fin 16) (ident : BitVec 21) (s : State),
    s.flag F.MOV_FLD_CMD_BUSY f = false → (s.fieldOwner f).isSome = true → (s.mover f m).queue.length < 32 →
    s.rejectCode (s.sliceOfField f) (s.rd .MOV_FLD_STAGE f) false = 0 →
    Completes (.moverPost f m ident) s fun t =>
      (t.mover f m).queue = (s.mover f m).queue ++
        [{ Desc.ofWords (s.rd .MOV_FLD_STAGE f) 0x1FF (bits ident.toNat 0 14) (bits ident.toNat 14 7) 0 true with
           slice := s.sliceOfField f }] ∧
      t.fld F.MOV_FLD_CMD_RESULT f = 0 ∧ OnlyRegsMovers f s t

/-- R151, R152, R155: MOVER_ISSUE takes the mover whose turn it is in its field, one with a running head that is not parking, fewer than 32
requests outstanding and bytes left, one request further when its slice does not bar it: SENT rises by the request's length, which is
at most 4,096 bytes, the requests issued by one, and PROGRESS stays. Where the slice is being pre-empted or in a rotation step, the
mover parks for it instead. A mover whose turn it is not does nothing. -/
def Clause.MoverIssues : Prop :=
  ∀ (f : Fin 56) (m : Fin 16) (s : State) (d : Desc) (ds : List Desc), (s.mover f m).queue = d :: ds →
    (s.moverTurn f = some m.val → s.sliceBars f = none → Completes (.moverIssue f m) s fun t =>
      d.reqLen d.sent ≤ 4096 ∧
      ∃ d', (t.mover f m).queue = d' :: ds ∧ d'.sent = d.sent + d.reqLen d.sent ∧ d'.progress = d.progress ∧
        d'.state = descRunning ∧ (t.mover f m).issued = (s.mover f m).issued + 1) ∧
    (∀ code, s.moverTurn f = some m.val → s.sliceBars f = some code → Completes (.moverIssue f m) s fun t =>
      (t.mover f m).queue = d :: ds ∧ (t.mover f m).parking = some code ∧ t.regs = s.regs ∧ t.mem = s.mem) ∧
    (s.moverTurn f ≠ some m.val → exec (.moverIssue f m) s = .next s)

/-- A mover takes a descriptor from MOV_FLD_CMD, and its running head issues requests. -/
def Obligations.MoversTakeWork : Prop := Clause.MoverPostCommand ∧ Clause.MoverIssues

/-- R151, R154: an acknowledgement of a write request of the running segment takes PROGRESS over its bytes when it is the next in order; a
response with another SEGMENT changes no mover and no byte of memory, and is counted in MOV_FLD_LATE. -/
def Clause.MoverAnswers : Prop :=
  ∀ (m : Fin 16) (tag : BitVec 32) (seg : BitVec 8) (s : State) (d : Desc) (ds : List Desc) (r : MoverReq),
    let f := tag.toNat % 64
    s.moverOfTag f tag.toNat = some m.val → (s.mover f m).queue = d :: ds →
    ((s.mover f m).reqs.find? fun r => r.tag == tag.toNat) = some r →
    (seg.toNat = d.segment → r.stage = .writing → r.off = d.progress → (s.mover f m).acks = [] → 0 < r.len →
      Completes (.moverResponse tag seg .done) s fun t =>
        (t.mover f m).queue = { d with progress := d.progress + r.len } :: ds ∧
        (t.mover f m).ackBytes = (s.mover f m).ackBytes + r.len ∧ { t with movers := s.movers, conns := s.conns } = s) ∧
    (seg.toNat ≠ d.segment → ∀ b, Completes (.moverResponse tag seg b) s fun t =>
      t.movers = s.movers ∧ t.mem = s.mem ∧
      t.rd .MOV_FLD_LATE f = (counterUp (s.rd .MOV_FLD_LATE f) 1).1 % 2 ^ 64)

/-- R155, R156, R162, R167: a parking mover whose requests are all over parks with its code, and one that a cancel waits for completes its
queue as CANCELLED; a parked head resumes, at a tick after its parking once its cause has ended and its slice does not bar it, or on
RESUME, with SEGMENT one higher and SENT back at PROGRESS; STOP asks a running head to park with code 0x24; CANCEL of a mover with
nothing outstanding completes every descriptor of its queue as CANCELLED, with the progress and code that it had (a running head parks
first, with the code it was parking for), and with requests outstanding it waits, busy, for the running head to park. -/
def Obligations.MoverParks : Prop :=
  ∀ (f : Fin 56) (m : Fin 16) (ident : BitVec 21) (s : State) (d : Desc) (ds : List Desc),
    (s.mover f m).queue = d :: ds →
    let resumed : Desc := { d with state := descRunning, segment := (d.segment + 1) % 256, sent := d.progress }
    let parked := fun (code : Nat) => ({ d with state := descParked, code := code } : Desc)
    let code := (s.mover f m).parking.getD d.code
    let cancelled := fun (q : List Desc) => (s.mover f m).finished ++ q.map fun d => d.finish doneCancelled d.code
    (∀ code, (s.mover f m).parking = some code → (s.mover f m).reqs = [] →
      ((s.mover f m).cancel = false → Completes (.moverParkDone f m) s fun t =>
        (t.mover f m).queue = parked code :: ds ∧ (t.mover f m).parkedAt = s.up ∧ (t.mover f m).finished = (s.mover f m).finished ∧
        t.mem = s.mem) ∧
      ((s.mover f m).cancel = true → Completes (.moverParkDone f m) s fun t =>
        (t.mover f m).queue = [] ∧ (t.mover f m).finished = cancelled (parked code :: ds) ∧ t.mem = s.mem)) ∧
    (s.atTick = true → d.state = descParked → (s.mover f m).parkedAt ≠ s.up → s.sliceBars f = none → s.causeEnded f d = true →
      Completes (.moverAutoResume f m) s fun t =>
        (t.mover f m).queue = resumed :: ds ∧ { t with movers := s.movers } = s) ∧
    (s.flag F.MOV_FLD_CMD_BUSY f = false → (s.fieldOwner f).isSome = true →
      (s.mayResume f d = true → Completes (.moverResume f m ident) s fun t =>
        (t.mover f m).queue = resumed :: ds ∧ t.fld F.MOV_FLD_CMD_RESULT f = 0 ∧ OnlyRegsMovers f s t) ∧
      (d.state = descRunning → (s.mover f m).parking = none → Completes (.moverStop f m ident) s fun t =>
        (t.mover f m).parking = some 0x24 ∧ (t.mover f m).queue = d :: ds ∧ t.fld F.MOV_FLD_CMD_RESULT f = 0 ∧
        t.flag F.MOV_FLD_CMD_BUSY f = true ∧ OnlyRegsMovers f s t) ∧
      (d.state ≠ descRunning → Completes (.moverCancel f m ident) s fun t =>
        (t.mover f m).queue = [] ∧ (t.mover f m).finished = cancelled (d :: ds) ∧
        t.fld F.MOV_FLD_CMD_RESULT f = 0 ∧ OnlyRegsMovers f s t) ∧
      (d.state = descRunning → (s.mover f m).reqs = [] → Completes (.moverCancel f m ident) s fun t =>
        (t.mover f m).queue = [] ∧ (t.mover f m).finished = cancelled (parked code :: ds) ∧
        t.fld F.MOV_FLD_CMD_RESULT f = 0 ∧ t.mem = s.mem) ∧
      (d.state = descRunning → (s.mover f m).reqs ≠ [] → Completes (.moverCancel f m ident) s fun t =>
        (t.mover f m).queue = d :: ds ∧ (t.mover f m).cancel = true ∧ (t.mover f m).parking = some code ∧
        t.fld F.MOV_FLD_CMD_RESULT f = 0 ∧ t.flag F.MOV_FLD_CMD_BUSY f = true ∧ OnlyRegsMovers f s t))

/-- R163, R165: at PROGRESS = LENGTH the head leaves the queue, with status OK when its byte audit holds, and with status AUDIT, counted
in MOV_FLD_AUDIT, when it does not. -/
def Clause.MoverCompletes : Prop :=
  ∀ (f : Fin 56) (m : Fin 16) (s : State) (d : Desc) (ds : List Desc),
    (s.mover f m).queue = d :: ds → d.state = descRunning → (s.mover f m).parking = none → d.progress = d.length →
    Completes (.moverComplete f m) s fun t =>
      (t.mover f m).queue = ds ∧ t.mem = s.mem ∧
      (((s.mover f m).auditOk d = true →
        (t.mover f m).finished = (s.mover f m).finished ++ [d.finish doneOk 0] ∧ { t with movers := s.movers } = s) ∧
       ((s.mover f m).auditOk d = false →
        (t.mover f m).finished = (s.mover f m).finished ++ [d.finish doneAudit 0] ∧
        t.rd .MOV_FLD_AUDIT f = (counterUp (s.rd .MOV_FLD_AUDIT f) 1).1 % 2 ^ 64))

/-- A mover takes answers in, and its head completes. -/
def Obligations.MoversFinishWork : Prop := Clause.MoverAnswers ∧ Clause.MoverCompletes

/-! ## Memory, chapter 5 -/

/-- R124: START of SRM_FLD_CLEAR, on a field where no program runs and no clear is busy, sets BUSY and changes nothing else; elsewhere it
is refused and recorded. When the clear ends, BUSY clears, every byte of the field's 480 cores reads zero with mark 0, no record of a
tile there is current, and every byte and mark outside the field's SRAM and every other register is as before. -/
def Clause.FieldClear : Prop :=
  ∀ (f : Fin 56) (s : State),
    (s.fieldRuns f = false → s.flag F.SRM_FLD_CLEAR_BUSY f = false → Completes (.srmFldClearStart f) s fun t =>
      t.flag F.SRM_FLD_CLEAR_BUSY f = true ∧ OnlyRegsQuiet [(.SRM_FLD_CLEAR, f.val)] s t) ∧
    (s.fieldRuns f = true ∨ s.flag F.SRM_FLD_CLEAR_BUSY f = true → exec (.srmFldClearStart f) s = .next (s.refuse .SRM_FLD_CLEAR f 1)) ∧
    (s.flag F.SRM_FLD_CLEAR_BUSY f = true → Completes (.fieldClearDone f) s fun t =>
      t.flag F.SRM_FLD_CLEAR_BUSY f = false ∧
      (∀ (w : Fin 480) (b : Nat), b < 0x300000 →
        t.mem.byte (sramLine f w 0 + b) = 0 ∧ t.mem.mark (sramLine f w 0 + b) = 0 ∧
        (t.mem.tile (sramLine f w 0 + b)).current = false) ∧
      (∀ x, x < sramLine f 0 0 ∨ sramLine f 512 0 ≤ x → t.mem.byte x = s.mem.byte x ∧ t.mem.mark x = s.mem.mark x) ∧
      OnlyRegsQuiet [(.SRM_FLD_CLEAR, f.val)] { s with mem := t.mem } t)

/-- R125: with scrub on, a correctable error of an SRAM line is corrected and counted in SRM_FLD_CE, and no byte or mark changes; a line that
scrub finds uncorrectable takes mark 2, is counted in SRM_FLD_UE, and is captured in SRM_FLD_ERR with KIND 1 where that holds nothing,
and no byte changes; a line without an error is left as it is. -/
def Clause.SramScrubs : Prop :=
  ∀ (f : Fin 56) (w : Fin 480) (l : Fin 49152) (s : State), s.flag F.SRM_FLD_CTRL_SCRUB_EN f = true →
    let o := sramLine f w l
    (mapGet (fun _ => 0) s.mem.upset (o / 64) = 1 → Completes (.sramScrub f w l) s fun t =>
      mapGet (fun _ => 0) t.mem.upset (o / 64) = 0 ∧ SameMem s t ∧
      t.rd .SRM_FLD_CE f = (counterUp (s.rd .SRM_FLD_CE f) 1).1 % 2 ^ 64 ∧ SameRegs [(.SRM_FLD_CE, f.val), (.EVR_AUDIT, 0)] s t) ∧
    (mapGet (fun _ => 0) s.mem.upset (o / 64) = 2 → Completes (.sramScrub f w l) s fun t =>
      t.mem.mark o = 2 ∧ (∀ x, t.mem.byte x = s.mem.byte x) ∧ (∀ x, x / 64 ≠ o / 64 → t.mem.mark x = s.mem.mark x) ∧
      t.rd .SRM_FLD_UE f = (counterUp (s.rd .SRM_FLD_UE f) 1).1 % 2 ^ 64 ∧
      (s.flag F.SRM_FLD_ERR_VALID f = false → t.flag F.SRM_FLD_ERR_VALID f = true ∧ t.fld F.SRM_FLD_ERR_KIND f = 1 ∧
        t.fld F.SRM_FLD_ERR_LINE f = l.val ∧ t.fld F.SRM_FLD_ERR_WINDOW f = w.val) ∧
      (s.flag F.SRM_FLD_ERR_VALID f = true → t.rd .SRM_FLD_ERR f = s.rd .SRM_FLD_ERR f) ∧
      SameRegs [(.SRM_FLD_UE, f.val), (.SRM_FLD_ERR, f.val), (.EVR_AUDIT, 0)] s t) ∧
    (mapGet (fun _ => 0) s.mem.upset (o / 64) = 0 → exec (.sramScrub f w l) s = .next s)

/-- R132: with scrub on, a correctable error of an LPDDR line without a poison mark is corrected and counted in LPD_DEV_CE, and no byte or
mark changes; one that is uncorrectable is left as it is, counted in LPD_DEV_UE, and captured in LPD_DEV_ERR with KIND 1 where that
holds nothing; a line without an error is left as it is. -/
def Clause.LpddrScrubs : Prop :=
  ∀ (line : BitVec 44) (s : State), s.flag F.LPD_SCRUB_EN = true →
    let o := line.toNat * 64
    let d := deviceOf o
    o < lpddrEnd → s.mem.mark o = 0 →
    (mapGet (fun _ => 0) s.mem.upset (o / 64) = 1 → Completes (.lpddrScrub line) s fun t =>
      mapGet (fun _ => 0) t.mem.upset (o / 64) = 0 ∧ SameMem s t ∧
      t.rd .LPD_DEV_CE d = (counterUp (s.rd .LPD_DEV_CE d) 1).1 % 2 ^ 64 ∧ SameRegs [(.LPD_DEV_CE, d), (.EVR_AUDIT, 0)] s t) ∧
    (mapGet (fun _ => 0) s.mem.upset (o / 64) = 2 → Completes (.lpddrScrub line) s fun t =>
      t.mem = s.mem ∧ t.rd .LPD_DEV_UE d = (counterUp (s.rd .LPD_DEV_UE d) 1).1 % 2 ^ 64 ∧
      (s.flag F.LPD_DEV_ERR_VALID d = false → t.flag F.LPD_DEV_ERR_VALID d = true ∧ t.fld F.LPD_DEV_ERR_KIND d = 1 ∧
        t.fld F.LPD_DEV_ERR_LINE d = line.toNat) ∧
      (s.flag F.LPD_DEV_ERR_VALID d = true → t.rd .LPD_DEV_ERR d = s.rd .LPD_DEV_ERR d) ∧
      SameRegs [(.LPD_DEV_UE, d), (.LPD_DEV_ERR, d), (.EVR_AUDIT, 0)] s t) ∧
    (mapGet (fun _ => 0) s.mem.upset (o / 64) = 0 → exec (.lpddrScrub line) s = .next s)

/-- Clearing and scrubbing of the memories. -/
def Obligations.SramUpkeep : Prop := Clause.FieldClear ∧ Clause.SramScrubs ∧ Clause.LpddrScrubs

/-- R135: an invalidation removes from the caches of every field every translation of the slot, or the one that covers the address, and
keeps every other; a write to MMU_SLOT_ROOT of a root aligned to 4 MiB in the module's reserved region, while the slot does not run,
writes the root and removes every translation of the slot. Memory and every other register are as before. -/
def Clause.Invalidation : Prop :=
  ∀ (n : Fin 56) (s : State),
    (∀ (all : Bool) (page : BitVec 27), Completes (.mmuSlotInvalStart n all page) s fun t =>
      (∀ e ∈ t.mmuCache, ∀ l ∈ e.2, ¬(l.slot = n.val ∧ (all = true ∨ l.hits n (page.toNat * 2 ^ 21) = true))) ∧
      (∀ e ∈ s.mmuCache, ∀ l ∈ e.2, ¬(l.slot = n.val ∧ (all = true ∨ l.hits n (page.toNat * 2 ^ 21) = true)) →
        ∃ x ∈ t.mmuCache, x.1 = e.1 ∧ l ∈ x.2) ∧
      t.mem = s.mem ∧ SameRegs [(.MMU_SLOT_INVAL, n.val)] s t) ∧
    (∀ (root : BitVec 64), root.toNat % 2 ^ 22 = 0 → s.inReserved root.toNat (2 ^ 22) = true →
      s.flag F.SEQ_STATUS_RUNNING n = false → Completes (.mmuSlotRootWrite n root) s fun t =>
        t.rd .MMU_SLOT_ROOT n = root.toNat ∧ (∀ e ∈ t.mmuCache, ∀ l ∈ e.2, l.slot ≠ n.val) ∧
        t.mem = s.mem ∧ SameRegs [(.MMU_SLOT_ROOT, n.val)] s t)

/-- R140, R141: an allocation that the slice's quota allows gives the frame to the slice, zeroes its bytes and marks, leaves every other byte
as before, and adds 1 to HELD; a free by the owner clears the owner and subtracts 1 from HELD; RESULT is 0. An allocation over the
quota answers RESULT 1 and changes no memory. -/
def Clause.LpddrFrames : Prop :=
  ∀ (slice : BitVec 12) (frame : BitVec 21) (s : State) (q : Nat), s.quotaOf slice.toNat = some q → frame.toNat < jobFrames →
    (s.mem.ownerOf frame.toNat = 0 → s.fld F.LPD_QUOTA_HELD q + 1 ≤ s.fld F.LPD_QUOTA_LIMIT q →
      Completes (.lpdAllocate slice frame) s fun t =>
        t.mem.ownerOf frame.toNat = slice.toNat + 1 ∧ t.fld F.LPD_QUOTA_HELD q = s.fld F.LPD_QUOTA_HELD q + 1 ∧
        t.fld F.LPD_ALLOC_RESULT = 0 ∧
        (∀ x, x < 2 ^ 21 → t.mem.byte (frame.toNat * 2 ^ 21 + x) = 0 ∧ t.mem.mark (frame.toNat * 2 ^ 21 + x) = 0) ∧
        SameBytesBut (frame.toNat * 2 ^ 21) (2 ^ 21) s t ∧
        SameRegs [(.LPD_ALLOC, 0), (.LPD_QUOTA, q)] s t) ∧
    (s.mem.ownerOf frame.toNat = 0 → s.fld F.LPD_QUOTA_LIMIT q < s.fld F.LPD_QUOTA_HELD q + 1 →
      Completes (.lpdAllocate slice frame) s fun t => t.fld F.LPD_ALLOC_RESULT = 1 ∧ t.mem = s.mem) ∧
    (s.mem.ownerOf frame.toNat = slice.toNat + 1 →
      Completes (.lpdFree slice frame) s fun t =>
        t.mem.ownerOf frame.toNat = 0 ∧ t.fld F.LPD_QUOTA_HELD q = s.fld F.LPD_QUOTA_HELD q - 1 ∧
        t.fld F.LPD_ALLOC_RESULT = 0 ∧ t.mem.cells = s.mem.cells ∧ SameRegs [(.LPD_ALLOC, 0), (.LPD_QUOTA, q)] s t)

/-- Translations and frames of LPDDR. -/
def Obligations.TranslationsAndFrames : Prop := Clause.Invalidation ∧ Clause.LpddrFrames

/-! ## Packets at their target and at their requester, chapters 3, 5, 7, 8 and 11 -/

/-- R275: a packet whose header arrived whole, addressed to this module, that finds no active entry for its slice is dropped and counted in
RTE_TRANSIT_DROP, and nothing else happens; so is an exchange without an entry, whatever it addresses. -/
def Obligations.NoEntryDrops : Prop :=
  ∀ (a : Arrival) (p : Packet) (s : State), a.lost = none → s.entryOf p.slice.toNat = none →
    (p.addr.toNat / 2 ^ 50 = s.selfId →
      (∀ i ∈ [Instr.read a p, .write a p, .readData a p, .writeDone ⟨a, p⟩, .faultRsp ⟨a, p⟩], exec i s = .next (s.bump .RTE_TRANSIT_DROP))) ∧
    exec (.exchange a p) s = .next (s.bump .RTE_TRANSIT_DROP)

/-- A request that arrives whole and passes the epoch check at its target, for lines of job LPDDR of this module that its slice owns,
behind a field that is not fenced. -/
def RequestArrives (a : Arrival) (p : Packet) (s : State) (o : Nat) : Prop :=
  a.lost = none ∧ p.addr.toNat / 2 ^ 50 = s.selfId ∧ o = p.addr.toNat % 2 ^ 50 ∧ o % 64 = 0 ∧
  (s.entryOf p.slice.toNat).isSome = true ∧ p.epoch.toNat = s.epochOf p.slice.toNat ∧ placeOf o = .job ∧ s.serves o = true ∧
  s.mem.ownerOf (o / 2 ^ 21) = p.slice.toNat + 1

/-- R136, R187, R200, R276: a READ of lines without errors is answered with READ_DATA that carries their bytes, and changes nothing else; an
intact WRITE puts its data and its poison into the lines, leaves every other byte as before, and is answered with WRITE_DONE, for a
whole tile where its record passes; a request of another epoch is dropped and counted in MSH_FLD_STALE, and one for a frame of another
owner is answered with FAULT_RSP carrying OWNER, with no byte read or written. -/
def Obligations.RemoteRequests : Prop :=
  ∀ (a : Arrival) (p : Packet) (s : State) (o : Nat),
    let n := p.lines.val + 1
    (RequestArrives a p s o → CleanLines s o n → wholeTile o n = false → (Instr.read a p).wf = true →
      Completes (.read a p) s fun t => t = s.respond a p 0x1 0 (s.mem.bytes o (64 * n)) none) ∧
    (RequestArrives a p s o → CleanLines s o n → wholeTile o n = true → (Instr.read a p).wf = true →
      sorrelOk (s.mem.bytes o 4096) (s.mem.tile o).copy1 = true →
      Completes (.read a p) s fun t =>
        t = s.respond a p 0x1 0 (s.mem.bytes o 4096) (some { (s.mem.tile o).copy1 with epoch := BitVec.ofNat 16 (s.epochOf p.slice.toNat) })) ∧
    (RequestArrives a p s o → a.crcOk = true → (Instr.write a p).wf = true →
      (wholeTile o n = true → p.tile = true → ∃ r, p.record = some r ∧ sorrelOk p.data r = true) →
      Completes (.write a p) s fun t => ∃ m, t = { s with mem := m }.respond a p 0x3 0 [] none ∧
        (∀ j, j < 64 * n → m.byte (o + j) = p.data.getD j 0) ∧
        (∀ j, j < n → m.mark (o + 64 * j) = if p.tile then (match p.record with | some r => bit r.poison | none => 0)
          else packetMask p / 2 ^ j % 2) ∧
        ∀ x, x < o ∨ o + 64 * n ≤ x → m.byte x = s.mem.byte x) ∧
    (a.lost = none → p.addr.toNat / 2 ^ 50 = s.selfId → (s.entryOf p.slice.toNat).isSome = true →
      p.epoch.toNat ≠ s.epochOf p.slice.toNat → ∀ i ∈ [Instr.read a p, .write a p],
      exec i s = .next (s.bump .MSH_FLD_STALE (fieldAt (p.addr.toNat % 2 ^ 50)))) ∧
    (a.lost = none → p.addr.toNat / 2 ^ 50 = s.selfId → (s.entryOf p.slice.toNat).isSome = true → p.epoch.toNat = s.epochOf p.slice.toNat →
      placeOf (p.addr.toNat % 2 ^ 50) = .job → s.serves (p.addr.toNat % 2 ^ 50) = true →
      s.mem.ownerOf (p.addr.toNat % 2 ^ 50 / 2 ^ 21) ≠ p.slice.toNat + 1 →
      (a.crcOk = true → exec (.write a p) s = .next (s.respond a p 0x9 0x0C [] none)) ∧
      exec (.read a p) s = .next (s.respond a p 0x9 0x0C [] none))

/-- A response that arrives whole for a core of this module, in a field that is not fenced, that still waits for it, in the frame attempt that asked, by a request of a
step that no earlier answer has faulted. -/
def ResponseArrives (a : Arrival) (p : Packet) (s : State) (r : Remote) : Prop :=
  a.lost = none ∧ p.addr.toNat / 2 ^ 50 = s.selfId ∧ (s.entryOf p.slice.toNat).isSome = true ∧ s.fieldUp (p.tag.toNat % 64) = true ∧
  p.epoch.toNat = s.epochOf p.slice.toNat ∧ p.mover = false ∧ s.remoteOf p.tag.toNat = some r ∧ r.field < 56 ∧ r.core < 450 ∧
  r.live = true ∧ r.spoiled = false

/-- R136, R137, R154: READ_DATA of lines writes their bytes to the lines of the requesting core, WRITE_DONE ends the write, and either takes
the access off the core's list; FAULT_RSP, and MMU_TIMEOUT without a response, end it too, count a fault of the field's MMU, poison all
lines that the step's read was to fill, and mark the frame where a slot serves the field, as a first fault with the code's class. -/
def Obligations.RemoteResponses : Prop :=
  ∀ (a : Arrival) (p : Packet) (s : State) (r : Remote), ResponseArrives a p s r →
    let o := sramLine r.field r.core r.line
    (r.write = false → a.crcOk = true → (Instr.readData a p).wf = true →
      (p.tile = true → ∃ x, p.record = some x ∧ sorrelOk p.data x = true) →
      r.count = p.lines.val + 1 → Completes (.readData a p) s fun t =>
        (∀ j, j < 64 * r.count → t.mem.byte (o + j) = p.data.getD j 0) ∧ SameBytesBut o (64 * r.count) s t ∧
        t.remotes = s.remotes.filter (fun x => x.tag != r.tag) ∧
        (t.core r.field r.core).outstanding = (s.core r.field r.core).outstanding - 1 ∧ t.regs = s.regs) ∧
    (Completes (.writeDone ⟨a, p⟩) s fun t =>
        t.remotes = s.remotes.filter (fun x => x.tag != r.tag) ∧ t.mem = s.mem ∧ t.regs = s.regs ∧
        (t.core r.field r.core).outstanding = (s.core r.field r.core).outstanding - 1) ∧
    (∀ i code, (i, code) ∈ [(Instr.faultRsp ⟨a, p⟩, p.code.toNat), (.remoteTimeout p.tag, 0x10)] →
      (i = .remoteTimeout p.tag → r.start + s.mmuLimit ≤ s.up) →
      Completes i s fun t =>
        (∀ x ∈ t.remotes, x.tag ≠ r.tag) ∧
        (t.core r.field r.core).outstanding = (s.core r.field r.core).outstanding - 1 ∧
        t.rd .MMU_FLD_FAULTS r.field = (counterUp (s.rd .MMU_FLD_FAULTS r.field) 1).1 % 2 ^ 64 ∧
        (r.write = true → t.mem = s.mem) ∧
        (r.write = false → r.base + r.total ≤ sramLines → ∀ j, j < r.total → t.mem.mark (sramLine r.field r.core (r.base + j)) = 1) ∧
        (∀ n, s.slotOfField r.field = some n → t.flag F.SEQ_STATUS_FAULTED n = true ∧
          (s.fld F.SEQ_FAULT_CLASS n = 0 → t.fld F.SEQ_FAULT_CLASS n = codeClass code)))

/-- R41, R76, R77, R276: an exchange that arrives whole, of the running frame and attempt, to a core of a field that its slice owns and that
is not fenced, fills its receive slot with its 64 lines when nothing has filled it in this attempt; an exchange of an earlier attempt
is dropped and counted in SEQ_FLD_XSUPER, one of another frame in SEQ_FLD_XDROP, and one to a field of another owner in
RTE_FILTER_DROP; a dropped one changes nothing else. -/
def Obligations.Exchanges : Prop :=
  ∀ (a : Arrival) (p : Packet) (s : State) (e m f n : Nat),
    let sl := p.slice.toNat
    let c := bits p.addr.toNat 0 9
    let slot := bits p.addr.toNat 28 8
    a.lost = none → s.entryOf sl = some e → s.relField e (bits p.addr.toNat 9 19) = some (m, f) → m = s.selfId → f < 56 →
    s.fieldUp f = true →
    (s.fieldOwner f ≠ some sl → exec (.exchange a p) s = .next (s.bump .RTE_FILTER_DROP)) ∧
    (s.fieldOwner f = some sl → c ≤ 449 → p.epoch.toNat = s.fld F.RTE_SLICE_EPOCH e → s.slotOfSlice sl = some n →
      let fr := s.rd .SEQ_FRAME n
      let rep := s.fld F.SEQ_STATUS_REPLAY n
      let h := (s.core f c).header (s.fld F.SEQ_STATUS_INDEX n)
      let line := headerRecvBase h + (fr % 2 * headerRecvSlots h + slot) * 64
      (p.frame.toNat = fr → p.replay.toNat < rep → exec (.exchange a p) s = .next (s.bump .SEQ_FLD_XSUPER f)) ∧
      (p.frame.toNat ≠ fr → exec (.exchange a p) s = .next (s.bump .SEQ_FLD_XDROP f)) ∧
      (p.frame.toNat = fr → p.replay.toNat = rep → slot < headerRecvSlots h →
        mapGet (fun _ => none) (s.core f c).recv (fr % 2 * 256 + slot) ≠ some ⟨fr, rep⟩ →
        a.crcOk = true → (∃ r, p.record = some r ∧ sorrelOk p.data r = true) → p.data.length = 4096 → line + 64 ≤ sramLines →
        Completes (.exchange a p) s fun t =>
          (∀ j, j < 4096 → t.mem.byte (sramLine f c line + j) = p.data.getD j 0) ∧
          SameBytesBut (sramLine f c line) 4096 s t ∧
          (line % 64 = 0 → (t.mem.tile (sramLine f c line)).current = true) ∧
          mapGet (fun _ => none) (t.core f c).recv (fr % 2 * 256 + slot) = some ⟨fr, rep⟩ ∧ t.regs = s.regs))

/-! ## Columns, repairs and fields, chapter 7 -/

/-- Beside what leaves the module, only what one slot holds beside its registers changes. -/
def OnlySlot (n : Nat) (s t : State) : Prop :=
  { t with slots := s.slots, out := s.out } = s ∧ ∀ m, m ≠ n → t.slot m = s.slot m

/-- R177, R178: the rotation step of a column with a spare and no fence, with rotation on and no step of it due, falls due when INTERVAL
minutes have passed since its last one and 1/1,680 of them since the module's last one; what falls due, and when, is all that changes.
The end of a state move marks the operation begun on its column as moved and leaves every register and every core as it was. -/
def Clause.RotationSteps : Prop :=
  ∀ (f : Fin 56) (c : Fin 30) (s : State),
    (s.fld F.MSH_ROT_INTERVAL ≠ 0 → s.noSpare f c = false → s.fenceOf f c = 0 →
      (∀ o ∈ s.colOps, ¬(o.field = f.val ∧ o.col = c.val ∧ o.kind = .rotate)) →
      (∀ t0, mapGet (fun _ => 0) s.rotLast (colIdx f c) = t0 + 1 → t0 + s.rotInterval ≤ s.up) →
      (∀ t0, s.rotStep = some t0 → 1680 * t0 + s.rotInterval ≤ 1680 * s.up) →
      Completes (.rotationDue f c) s fun t =>
        t.colOps = s.colOps ++ [⟨f, c, s.spareOf f c, .rotate, false, false, false⟩] ∧ t.rotStep = some s.up ∧
        mapGet (fun _ => 0) t.rotLast (colIdx f c) = s.up + 1 ∧
        { t with colOps := s.colOps, rotLast := s.rotLast, rotStep := s.rotStep } = s) ∧
    (∀ o ∈ s.colOps, o.field = f.val → o.col = c.val → o.begun = true →
      Completes (.stateMoveDone f c) s fun t =>
        { o with moved := true } ∈ t.colOps ∧ t.colOps.length = s.colOps.length ∧ t.regs = s.regs ∧ t.cores = s.cores)

/-- R180, R181, Table 7.2: MSH_FLD_CMD on a field in service whose column has its spare and nothing running asks for the shift, or for
the fencing of the spare or of the core, and stays busy; the fencing of a core marks the frame that runs on it, as a first fault with
class CHECK; without a spare the command answers RESULT 1 and asks for nothing. -/
def Clause.ColumnCommands : Prop :=
  ∀ (f : Fin 56) (col : BitVec 5) (prow : Fin 16) (s : State), col.toNat ≤ 29 →
    s.flag F.MSH_FLD_CMD_BUSY f = false → s.inService f = true → s.colBusy f col.toNat = false → s.colRepair f col.toNat = false →
    let asked := fun (k : ColKind) => ColOp.mk f col.toNat prow k false false true
    (s.noSpare f col.toNat = true → ∀ i ∈ [Instr.directedShift f col prow, .fenceSpare f col prow, .fenceCore f col prow],
      Completes i s fun t =>
        t.fld F.MSH_FLD_CMD_RESULT f = 1 ∧ t.colOps = s.colOps ∧ OnlyRegsQuiet [(.MSH_FLD_CMD, f.val)] s t) ∧
    (s.noSpare f col.toNat = false →
      ((s.coreAtRow f col.toNat prow).isSome = true → Completes (.directedShift f col prow) s fun t =>
        t.colOps = asked .shift :: s.colOps ∧ t.flag F.MSH_FLD_CMD_BUSY f = true ∧ SameRegs [(.MSH_FLD_CMD, f.val)] s t) ∧
      (prow.val = s.spareOf f col.toNat → Completes (.fenceSpare f col prow) s fun t =>
        t.colOps = asked .fenceSpare :: s.colOps ∧ t.flag F.MSH_FLD_CMD_BUSY f = true ∧ SameRegs [(.MSH_FLD_CMD, f.val)] s t) ∧
      (∀ core, s.coreAtRow f col.toNat prow = some core → Completes (.fenceCore f col prow) s fun t =>
        t.colOps = asked .fenceCore :: s.colOps ∧ t.flag F.MSH_FLD_CMD_BUSY f = true ∧ t.mem = s.mem ∧
        (∀ n, s.slotOfField f = some n → t.flag F.SEQ_STATUS_FAULTED n = true ∧
          (s.fld F.SEQ_FAULT_CLASS n = 0 → t.fld F.SEQ_FAULT_CLASS n = 0x4))))

/-- Operations on columns, due by rotation or asked for by command. -/
def Obligations.ColumnOperations : Prop := Clause.RotationSteps ∧ Clause.ColumnCommands

/-- R183, R361, Table 7.2: RETIRE_FIELD, and the failure of a field controller or of a core whose column has no spare, retire a field in
service: its STATE and CAUSE say so, and a service is asked for with cause 0. The failure of a core whose column has a spare asks for
its fencing, and marks the frame that runs on it. -/
def Clause.FieldsRetire : Prop :=
  ∀ (f : Fin 56) (c : Fin 450) (s : State), s.inService f = true →
    let retired := fun (cause : Nat) (t : State) =>
      t.fld F.MSH_FLD_STATE_STATE f = 1 ∧ t.fld F.MSH_FLD_STATE_CAUSE f = cause ∧ bitOf (t.fld F.INT_SVC_PEND_CAUSE) 0 = true ∧
      t.mem = s.mem ∧ t.cores = s.cores
    (s.flag F.MSH_FLD_CMD_BUSY f = false → Completes (.retireField f) s fun t => retired 5 t ∧ t.fld F.MSH_FLD_CMD_RESULT f = 0) ∧
    Completes (.elementFailed (.controller f)) s (retired 2) ∧
    (∀ p, s.prowOf f c = some p →
      (s.noSpare f (c.val % 30) = true → Completes (.elementFailed (.core ⟨f, c⟩)) s (retired 1)) ∧
      (s.noSpare f (c.val % 30) = false → Completes (.elementFailed (.core ⟨f, c⟩)) s fun t =>
        t.colOps = ⟨f, c.val % 30, p, .fenceCore, false, false, false⟩ :: s.colOps ∧ t.mem = s.mem ∧ t.cores = s.cores))

/-- R174, R184: a failed router fences its field, with cause 3; a failed stitched link is fenced and counted. R185: FIELD_RETIREMENT of a
retired field asks for the pre-emption of its slice with cause FIELD, and of a fenced field stops the job of its slot with cause
FIELD_LOST; each names the field. -/
def Clause.ElementsFail : Prop :=
  ∀ (f : Fin 56) (s : State),
    (s.fld F.MSH_FLD_STATE_STATE f < 2 → Completes (.elementFailed (.router f)) s fun t =>
      t.fld F.MSH_FLD_STATE_STATE f = 2 ∧ t.fld F.MSH_FLD_STATE_CAUSE f = 3) ∧
    (∀ l : Fin 2224, s.fencedLinks.contains l.val = false → Completes (.elementFailed (.stitch l)) s fun t =>
      t.fencedLinks = s.fencedLinks ++ [l.val] ∧ t.fld F.MSH_MOD_REPAIR_LINKS = (s.fencedLinks.length + 1) % 2 ^ F.MSH_MOD_REPAIR_LINKS.w) ∧
    (∀ n, s.slotOfField f = some n →
      (s.fld F.MSH_FLD_STATE_STATE f = 1 → (s.slot n).phase = .placed → (s.slot n).requests = [] →
        Completes (.fieldRetirement f) s fun t =>
          (t.slot n).requests = [⟨0x64, f + s.selfId * 2 ^ 6⟩] ∧ OnlySlot n s t ∧ t.out = s.out) ∧
      (∀ j, s.fld F.MSH_FLD_STATE_STATE f = 2 → s.jobOfSlot n = some j → j.stopping = none →
        Completes (.fieldRetirement f) s fun t =>
          { t with jobs := s.jobs } = s ∧
          t.jobOfSlot n = some { j with stopping := some ⟨stFault, 0x47, f + s.selfId * 2 ^ 6, some (s.rd .SEQ_FRAME n), none⟩ }))

/-- R109, R357: a core whose check row reported failures on more than 4 of its latest 1,024 MMAs is marked for test, and where its column
has a spare a shift of its position is asked for; with 4 failures or fewer, or on a core that is marked already, nothing happens. -/
def Clause.CoreMarked : Prop :=
  ∀ (a : CoreAt) (s : State),
    let k := s.core a.field a.core
    let bad := (k.misses.filter fun m => decide (m + 1024 > k.mmas)).length
    let c := a.core.val % 30
    (bad ≤ 4 → exec (.coreMarkedForTest a) s = .next s) ∧
    (∀ p, s.prowOf a.field a.core = some p →
      (4 < bad → (s.position a.field c p).markedAt = none → Completes (.coreMarkedForTest a) s fun t =>
        (t.position a.field c p).markedAt = some s.up ∧ t.mem = s.mem ∧ t.cores = s.cores ∧
        (s.noSpare a.field c = false → t.colOps = s.colOps ++ [⟨a.field, c, p, .shift, false, false, false⟩]) ∧
        (s.noSpare a.field c = true → t.colOps = s.colOps) ∧ SameRegs [(.INT_FLD_TEST, a.field.val)] s t) ∧
      ((s.position a.field c p).markedAt ≠ none → exec (.coreMarkedForTest a) s = .next s))

/-- Elements that leave service, and cores marked for test. -/
def Obligations.ElementsOut : Prop := Clause.FieldsRetire ∧ Clause.ElementsFail ∧ Clause.CoreMarked

/-! ## Frames, ticks and closes, chapter 2 -/

/-- R18, R22, R34, R288, R294: with the control domain supplied, a tick of the module makes the tick's machine time the present one and adds 1
to the tick count, and the ticks of the reference that the interval of a step took in, when no step of machine time is due; a tick of the deck's own oscillator changes neither. A close falls the guard time
before the tick, the largest of the slots still to close, and judges the slots of that guard time: each learns the causes it found, and
each that does not agree by votes and is not stopped learns its decision. -/
def Obligations.TicksAndCloses : Prop :=
  ∀ s : State, s.domains.control = true →
    (∀ x : TickIn, x.own = false → s.time.step = none → Completes (.tick x) s fun t =>
      t.now = s.time.next ∧ t.rd .FTK_LAST = s.time.next % 2 ^ 64 ∧ t.rd .FTK_TICKS = (s.rd .FTK_TICKS + 1 + s.time.skip) % 2 ^ 64 ∧
      t.time.next = (s.time.next + s.period * ns) % 2 ^ 64) ∧
    (∀ x : TickIn, x.own = true → Completes (.tick x) s fun t => t.now = s.now ∧ t.rd .FTK_TICKS = s.rd .FTK_TICKS ∧ t.time = s.time) ∧
    (Completes .close s fun t =>
      t.now = (s.time.next + 2 ^ 64 - s.closeGuard * ns) % 2 ^ 64 ∧
      ∀ n ∈ s.closingSlots s.closeGuard,
        (t.slot n).causes.isSome = true ∧
        (s.votes n = false → (s.slot n).phase ≠ .stopped → (t.slot n).decision.isSome = true))

/-- R27 to R30, R40 to R45: the decision of a slice on this module alone, outside a save or restore. A rotation step in progress holds, with
the cause of the highest priority; then the fencing of a core begins, as a hold for ROTATION; a pre-emption asked for pre-empts; a
faulted frame that nothing keeps waiting is replayed under the same number with the next replay count, but not a fourth time, when the
job is to be stopped, and held otherwise; other causes hold; an abandoned frame is run again under the same count; and without a
cause, and with no step due, the slice advances to the program that SEQ_NEXT named at the close (R23). -/
def Clause.Decisions : Prop :=
  ∀ (s : State) (n : Nat) (cs : List Cause), (s.slot n).moving = false →
    let d := s.judgeAlone n cs
    let rep := s.fld F.SEQ_STATUS_REPLAY n
    let faulted := s.flag F.SEQ_STATUS_FAULTED n
    let ready := s.faultsReady n && !s.flag F.SEQ_STATUS_PROGRAM n && !cs.contains .power
    d.frame = s.rd .SEQ_FRAME n ∧
    (Cause.rotation ∈ cs → d.verdict = .hold ∧ d.cause = recordedCause cs ∧ d.begins = none) ∧
    (Cause.rotation ∉ cs →
      ((s.fenceDue n).isSome = true → d.verdict = .hold ∧ d.cause = 5 ∧ d.begins = some s.selfId) ∧
      ((s.fenceDue n).isSome = false →
        ((s.slot n).requests ≠ [] → d.verdict = .preempt ∧ d.cause = 6 ∧ d.told = pickCause (s.slot n).requests) ∧
        ((s.slot n).requests = [] →
          (faulted = true → rep < 3 → ready = true →
            d.verdict = .replay ∧ d.cause = 4 ∧ d.replay = rep + 1 ∧ d.next = s.fld F.SEQ_STATUS_INDEX n) ∧
          (faulted = true → rep = 3 → d.verdict = .hold ∧ d.cause = 4 ∧ d.ends.isSome = true) ∧
          (faulted = true → rep < 3 → ready = false → d.verdict = .hold ∧ d.cause = 4 ∧ d.halt = true) ∧
          (faulted = false → cs ≠ [] → (s.slot n).rerun = false ∨ Cause.fault ∈ cs ∨ Cause.decision ∈ cs →
            d.verdict = .hold ∧ d.cause = recordedCause cs) ∧
          (faulted = false → (s.slot n).rerun = true → Cause.fault ∉ cs → Cause.decision ∉ cs →
            (Cause.power ∈ cs → d.verdict = .hold ∧ d.cause = 3) ∧
            (Cause.power ∉ cs → d.verdict = .replay ∧ d.cause = 0 ∧ d.replay = rep ∧ d.next = s.fld F.SEQ_STATUS_INDEX n)) ∧
          (faulted = false → (s.slot n).rerun = false → cs = [] →
            ((s.stepDue n).isSome = true → d.verdict = .hold ∧ d.cause = 5 ∧ d.begins = some s.selfId) ∧
            ((s.stepDue n).isSome = false → d.verdict = .advance ∧ d.cause = 0 ∧ d.next = (s.slot n).named.getD (s.fld F.SEQ_NEXT_INDEX n))))))

/-- The entry of the program table and the header of a program read without an error on every core of a slot. -/
def HeadersRead (s : State) (n prog : Nat) : Prop :=
  ∀ p ∈ s.coresOf n, ∀ i ∈ prog / 4 :: rangeFrom ((s.core p.1 p.2).start prog) 9, (s.core p.1 p.2).upsetAt i = 0

/-- R27, R28, R41, R45: at the tick, a slice decided to advance, with no operation on a column of its fields, no pre-emption and no stop asked
for, no decision that came late, and machine time set where it agrees by votes, starts the program named under the next frame number, with replay count 0, no fault and no hold; one
decided to replay starts the program named under the decision's frame number and replay count, without a fault; its cores run from the
program's first body step, with their pointers as they are for an advance and as they were at the frame's first start for a replay. -/
def Clause.SlotAtTick : Prop :=
  ∀ (s : State) (n : Nat) (d : Decision), n < 56 → (s.slot n).phase = .placed → (s.slot n).requests = [] → s.opsOf n = [] →
    s.stopComes n = false → (s.slot n).late = [] → (s.votes n = true → s.timeSet = true) → (s.slot n).decision = some d →
    (s.slot n).started = true → HeadersRead s n d.next →
    let t := s.tickSlot n
    (d.verdict = .advance →
      t.rd .SEQ_FRAME n = (s.rd .SEQ_FRAME n + 1) % 2 ^ 32 ∧ t.fld F.SEQ_STATUS_REPLAY n = 0 ∧ t.fld F.SEQ_STATUS_HOLD n = 0 ∧
      t.fld F.SEQ_STATUS_INDEX n = d.next % 256 ∧ t.fld F.SEQ_STATUS_RUNNING n = 1 ∧ t.flag F.SEQ_STATUS_FAULTED n = false ∧
      (t.slot n).faults = [] ∧
      ∀ p ∈ s.coresOf n, (t.core p.1 p.2).running = true ∧ (t.core p.1 p.2).pc = (s.core p.1 p.2).start d.next + 9 ∧
        (t.core p.1 p.2).ptrs = (s.core p.1 p.2).ptrs ∧ (t.core p.1 p.2).shadow = (s.core p.1 p.2).ptrs) ∧
    (d.verdict = .replay →
      t.rd .SEQ_FRAME n = d.frame % 2 ^ 32 ∧ t.fld F.SEQ_STATUS_REPLAY n = d.replay % 4 ∧ t.fld F.SEQ_STATUS_RUNNING n = 1 ∧
      t.fld F.SEQ_STATUS_INDEX n = d.next % 256 ∧ t.flag F.SEQ_STATUS_FAULTED n = false ∧ t.fld F.SEQ_STATUS_HOLD n = d.cause % 16 ∧
      ∀ p ∈ s.coresOf n, (t.core p.1 p.2).running = true ∧ (t.core p.1 p.2).pc = (s.core p.1 p.2).start d.next + 9 ∧
        (t.core p.1 p.2).ptrs = (s.core p.1 p.2).shadow)

/-- The decision at a close on one module, and what it does at the tick. -/
def Obligations.DecisionsApplied : Prop := Clause.Decisions ∧ Clause.SlotAtTick

/-- R33, R36, R270, R274, R275: a member's vote that reaches the home module takes the place of its earlier one; while a vote is missing
nothing else happens, and the last one makes the decision, which is sent down the tree. At a module on its way a vote goes on, and a
decision that reaches a member is kept for its tick and goes on; it came late, to act at the tick before that of the close, where the
member has not closed since the last tick, or another follows it. A holder keeps a change of placement that a decision announces, and
has no member entry to pass a vote on by. Without an active entry either is dropped and counted. -/
def Obligations.VotesAndDecisions : Prop :=
  ∀ (slice : BitVec 12) (x : Vote) (d : Decision) (s : State),
    (s.entryOf slice.toNat = none →
      exec (.vote slice x) s = .next (s.bump .RTE_TRANSIT_DROP) ∧ exec (.decision slice d) s = .next (s.bump .RTE_TRANSIT_DROP)) ∧
    (∀ e, s.entryOf slice.toNat = some e →
      (s.flag F.RTE_SLICE_ROLE e = true → exec (.vote slice x) s = .next (s.bump .RTE_TRANSIT_DROP)) ∧
      (∀ n, s.flag F.RTE_SLICE_ROLE e = false → s.fld F.RTE_SLICE_HOME e = s.selfId → s.slotOfSlice slice.toNat = some n → x.member ∈ s.voters n →
        let vs := (s.slot n).votes.filter (fun y => y.member != x.member) ++ [x]
        ((∃ m ∈ s.voters n, ∀ y ∈ vs, y.member ≠ m) → Completes (.vote slice x) s fun t =>
          t.slot n = { s.slot n with votes := vs } ∧ t.out = s.out ∧ OnlySlot n s t) ∧
        ((∀ m ∈ s.voters n, ∃ y ∈ vs, y.member = m) → s.timeSet = true → Completes (.vote slice x) s fun t =>
          t.slot n = { s.slot n with votes := [], decision := some (s.judgeVotes n vs) } ∧
          Out.decision slice.toNat (s.judgeVotes n vs) ∈ t.out ∧ t.mem = s.mem ∧ t.cores = s.cores)) ∧
      (s.fld F.RTE_SLICE_HOME e ≠ s.selfId →
        (s.flag F.RTE_SLICE_ROLE e = false → Completes (.vote slice x) s fun t =>
          Out.vote slice.toNat (s.fld F.RTE_SLICE_HOME e) x ∈ t.out ∧ t.slots = s.slots ∧ t.mem = s.mem ∧ t.cores = s.cores) ∧
        (∀ n, s.slotOfSlice slice.toNat = some n → Completes (.decision slice d) s fun t =>
          ((s.slot n).causes = none → t.slot n = { s.slot n with late := (s.slot n).late ++ [d] }) ∧
          ((s.slot n).causes ≠ none →
            t.slot n = { s.slot n with late := (s.slot n).late ++ (s.slot n).decision.toList, decision := some d }) ∧
          (∀ m, m ≠ n → t.slot m = s.slot m) ∧
          Out.decision slice.toNat d ∈ t.out ∧ t.mem = s.mem ∧ t.cores = s.cores) ∧
        (s.slotOfSlice slice.toNat = none → d.change = true → Completes (.decision slice d) s fun t =>
          t.epochDue = s.epochDue ++ [e] ∧ t.slots = s.slots ∧ t.mem = s.mem)))

/-- R37, R39, R43, R157, R296: the limits of time and of holds, on a module that decides alone for a slice in the first, and for the entry
module in the second. A hold, a replay that is recorded as one among them, whose counting cause has been present at 64 ticks becomes a
pre-emption with cause HOLD_LIMIT; a fault
unresolved for 1.000 s stops the job with cause 0x41 and the class, and a mover parked for 1.000 s with cause 0x45; a slice held with
cause DECISION for 1.000 s is pre-empted with cause 0x66 while time is lost, and otherwise its home module is reported lost: at the
entry module itself the job stops with cause 0x48 and is to be released; a member without an answer for a further 1.000 s, or whose
entry module is the one lost, stops the slice and is to give it up at the tick, which frees its fields once its movers have drained. -/
def Obligations.Limits : Prop :=
  ∀ (n : Fin 56) (s : State),
    (∀ d c, (s.slot n).decision = some d → d.holds = true → d.verdict ≠ .preempt → c ∈ countingCauses → c ∈ d.causes → 64 ≤ s.holdCount n c →
      Cause.preempt ∉ d.causes → Cause.rotation ∉ d.causes → s.votes n = false →
      Completes (.holdLimitReached n) s fun t =>
        OnlySlot n s t ∧ t.out = s.out ∧ ∃ c ∈ countingCauses, c ∈ d.causes ∧ 64 ≤ s.holdCount n c ∧
          t.slot n = { s.slot n with decision := some { d with
            verdict := .preempt, cause := 6, told := ⟨0x61, c.code⟩, begins := none, ends := none } }) ∧
    (∀ t0 j, (s.slot n).faultSince = some t0 → 1000000000 ≤ s.since t0 → s.faultsReady n = false → s.jobOfSlot n = some j →
      j.stopping = none → Completes (.faultUnresolved n) s fun t =>
        { t with jobs := s.jobs } = s ∧
        t.jobOfSlot n = some { j with stopping := some ⟨stFault, 0x41, s.fld F.SEQ_FAULT_CLASS n, some (s.rd .SEQ_FRAME n), none⟩ }) ∧
    (∀ (f : Fin 56) (m : Fin 16) (d : Desc) (r : List Desc) (j : Job), (s.mover f m).queue = d :: r → d.state = descParked →
      d.code ≠ 0x20 → (s.mover f m).parkedAt + second ≤ s.up → s.jobs.find? (fun j => j.slice == d.slice) = some j →
      j.stopping = none → d.cc = false → Completes (.moverParkTimeout f m) s fun t =>
        { t with jobs := s.jobs } = s ∧ t.jobs.find? (fun j => j.slice == d.slice) =
          some { j with stopping := some ⟨stFault, 0x45, s.moverLoc f m d.code d.core d.step, some d.frame, none⟩ }) ∧
    (∀ t0, (s.slot n).decisionSince = some t0 → 1000000000 ≤ s.since t0 →
      (s.timeSet = false → (s.slot n).phase = .placed → s.flag F.SEQ_SLOT_CFG_ACTIVE n = true → (s.slot n).requests = [] →
        Completes (.timeLost n) s fun t => t.slot n = { s.slot n with requests := [⟨0x66, 0⟩] } ∧ t.out = s.out ∧ OnlySlot n s t) ∧
      (s.timeSet = true → s.homeOf n ≠ s.selfId → (s.slot n).lostReported = none →
        let slice := s.fld F.SEQ_SLOT_CFG_SLICE_ID n
        (s.entryModule n ≠ s.selfId → Completes (.homeModuleLost n) s fun t =>
          t.slot n = { s.slot n with lostReported := some s.up } ∧
          Out.mgmt (s.entryModule n) (.homeLost (BitVec.ofNat 12 slice) (BitVec.ofNat 14 (s.homeOf n))) ∈ t.out ∧ t.mem = s.mem) ∧
        (∀ j, s.entryModule n = s.selfId → s.jobs.find? (fun j => j.slice == slice) = some j → j.stopping = none →
          Completes (.homeModuleLost n) s fun t =>
            t.slot n = { s.slot n with lostReported := some s.up } ∧
            { j with stopping := some ⟨stFault, 0x48, s.homeOf n, some (s.jobFrame j), none⟩, releasing := .asked } ∈ t.jobs ∧
            t.regs = s.regs ∧ t.mem = s.mem))) ∧
    (∀ t0, (s.slot n).lostReported = some t0 → 1000000000 ≤ s.since t0 ∨ s.entryModule n = s.homeOf n → s.jobOfSlot n = none →
      Completes (.entryModuleNoAnswer n) s fun t =>
        (t.slot n).phase = .stopped ∧ (t.slot n).stopDue = some true ∧ t.fld F.SEQ_STATUS_RUNNING n = 0 ∧
        (∀ p ∈ s.coresOf n, (t.core p.1 p.2).running = false) ∧ t.mem = s.mem) ∧
    ((s.slot n).stopDue = some true → (s.stopSlot n).moversDrained n = true →
      let t := s.tickTold n
      t.flag F.SEQ_SLOT_CFG_ACTIVE n = false ∧ ∀ f ∈ s.fieldsOf n, t.fieldOwner f = none)

/-- R46, R47, R161: when the movers have drained, the end of the saves keeps the slice's context; every register, every core, every mover and
every byte outside the slice's save areas are as before. When the fields return, what their movers hold goes with the context, and they
keep their completions alone. The end of the restore hands
every core of a slice of one field its saved accumulators, pointers, operand slots and steps back. -/
def Obligations.ContextMoves : Prop :=
  ∀ (n : Fin 56) (s : State),
    ((s.slot n).phase = .saving → s.moversDrained n = true → Completes (.contextSaveDone n) s fun t =>
      t.slot n = { s.slot n with phase := .saved } ∧ t.savedOf (s.fld F.SEQ_SLOT_CFG_SLICE_ID n) = some (s.saveSlice n) ∧
      t.regs = s.regs ∧ t.cores = s.cores ∧ t.movers = s.movers ∧
      ∀ x, x / 2 ^ 21 ∉ s.saveAreas (s.fld F.SEQ_SLOT_CFG_SLICE_ID n) → t.mem.byte x = s.mem.byte x) ∧
    (∀ f ∈ s.fieldsOf n, ∀ m, m < 16 →
      (s.keepMovers n).mover f m = { Mover.init with finished := (s.mover f m).finished, blocked := (s.mover f m).blocked } ∧
      ∀ v ∈ s.saved, v.slice = s.fld F.SEQ_SLOT_CFG_SLICE_ID n → ∀ x ∈ v.fields, x.field = f →
        ∃ w ∈ (s.keepMovers n).saved, ∃ y ∈ w.fields, y.field = f ∧ y.cores = x.cores ∧
          (m, { s.mover f m with finished := [], blocked := false }) ∈ y.movers) ∧
    (∀ (v : SavedSlice) (x : SavedField) (f : Nat) (k : Nat → Core), s.savedOf (s.fld F.SEQ_SLOT_CFG_SLICE_ID n) = some v →
      (s.slot n).phase = .restoring → v.fields = [x] → s.fieldsOf n = [f] →
      x.cores = ((List.range 450).map fun c => (c, k c)) → Completes (.contextRestoreDone n) s fun t =>
        (t.slot n).phase = .restored ∧ t.savedOf (s.fld F.SEQ_SLOT_CFG_SLICE_ID n) = none ∧ t.regs = s.regs ∧
        ∀ c, c < 450 → (t.core f c).acc = (k c).acc ∧ (t.core f c).ptrs = (k c).ptrs ∧ (t.core f c).shadow = (k c).shadow ∧
          (t.core f c).steps = (k c).steps ∧ (t.core f c).opnd = (k c).opnd)

/-! ## Images and step stores, chapter 3 -/

/-- R51, R54, R55: START of SEQ_FLD_LOAD makes the field busy with its slot's set, answers code 0xD when there is no set, and is refused
and recorded while a program of the slice runs or is due; the end of the load puts into every core the steps that STEP_MAP names, with
ERROR 0, or, when a store breaks a rule of Table 3.1, leaves every program table of the field without entries, with the code, and names
the lowest core; when a program runs or is due by then, its writes are refused and recorded, and no store changes. -/
def Obligations.StepStoreLoads : Prop :=
  ∀ (f : Fin 56) (s : State),
    (∀ slot : BitVec 6, s.flag F.SEQ_FLD_LOAD_BUSY f = false →
      (s.mayLoad f = false → exec (.seqFldLoadStart f slot) s = .next (s.log 0x02 0x1003 f 0)) ∧
      (s.mayLoad f = true → Completes (.seqFldLoadStart f slot) s fun t =>
        t.fld F.SEQ_FLD_LOAD_SLOT f = slot.toNat ∧ OnlyRegsQuiet [(.SEQ_FLD_LOAD, f.val)] s t ∧
        (s.noSet f slot.toNat = false → t.flag F.SEQ_FLD_LOAD_BUSY f = true) ∧
        (s.noSet f slot.toNat = true → t.flag F.SEQ_FLD_LOAD_BUSY f = false ∧ t.fld F.SEQ_FLD_LOAD_ERROR f = 0xD))) ∧
    (∀ away : List Byte, s.flag F.SEQ_FLD_LOAD_BUSY f = true → s.mayLoad f = false →
      exec (.fieldLoadDone f away) s = .next ((s.setFld F.SEQ_FLD_LOAD_BUSY f 0).log 0x02 0x1003 f 0)) ∧
    (∀ away : List Byte, s.flag F.SEQ_FLD_LOAD_BUSY f = true → s.mayLoad f = true →
      let n := s.fld F.SEQ_FLD_LOAD_SLOT f
      let m := s.setImage n away
      let store := fun c => m.store (m.stepMap (s.imageIndex n f c m.fields))
      let code := fun c => (store c).loadCode (m.store (m.stepMap 0)) (s.fld F.SEQ_LIVE_LIVE n)
      s.noSet f n = false → m.tableOk = true →
      ((∀ c, c < 450 → code c = 0) → Completes (.fieldLoadDone f away) s fun t =>
        (∀ c, c < 450 → (t.core f c).steps = (store c).steps) ∧ t.flag F.SEQ_FLD_LOAD_BUSY f = false ∧
        t.fld F.SEQ_FLD_LOAD_ERROR f = 0 ∧ t.mem = s.mem ∧ SameRegs [(.SEQ_FLD_LOAD, f.val)] s t) ∧
      (∀ c, c < 450 → code c ≠ 0 → (∀ b, b < c → code b = 0) → Completes (.fieldLoadDone f away) s fun t =>
        (∀ b, b < 450 → ∀ e ∈ (t.core f b).steps, 64 ≤ e.1) ∧ t.flag F.SEQ_FLD_LOAD_BUSY f = false ∧
        t.fld F.SEQ_FLD_LOAD_ERROR f = code c ∧ t.fld F.SEQ_FLD_LOAD_CORE f = c ∧ t.mem = s.mem ∧
        SameRegs [(.SEQ_FLD_LOAD, f.val)] s t))

/-- R51, R56, R107: a write of SEQ_NEXT names a program; in a hold for FAULT the step that an unresolved fault of class STEP_ECC names is
written again from the set's image, where its core does not run, and the fault is resolved; TEN_FLD_INJECT arms one injection while
INJ_EN = 1 and is refused otherwise. -/
def Obligations.SequencerWrites : Prop :=
  ∀ (n : Fin 56) (s : State),
    (∀ index valid, Completes (.seqNextWrite n index valid) s fun t =>
      t.fld F.SEQ_NEXT_INDEX n = index.toNat ∧ t.flag F.SEQ_NEXT_VALID n = valid ∧ OnlyRegsQuiet [(.SEQ_NEXT, n.val)] s t) ∧
    (∀ away x, s.fld F.SEQ_STATUS_HOLD n = 4 →
      (s.slot n).faults.find? (fun x => x.cls == clsStepEcc && !x.resolved) = some x → (s.core x.field x.core).running = false →
      Completes (.stepRepair n away) s fun t =>
        let m := s.setImage n away
        (t.core x.field x.core).step x.step =
          m (m.offOf 2 + 262144 * m.stepMap (s.imageIndex n x.field x.core m.fields) + 16 * x.step) 16 % 2 ^ 128 ∧
        mapGet (fun _ => 0) (t.core x.field x.core).stepUpset x.step = 0 ∧
        (∀ i, i ≠ x.step → (t.core x.field x.core).step i = (s.core x.field x.core).step i) ∧
        (∀ y ∈ (t.slot n).faults, y ≠ x) ∧ t.regs = s.regs ∧ t.mem = s.mem) ∧
    (∀ core : BitVec 9, ∀ kind : Bool,
      (s.flag F.TEN_FLD_CTRL_INJ_EN n = true → core.toNat ≤ 449 → Completes (.injectArm n core kind) s fun t =>
        mapGet (fun _ => none) t.inject n.val = some (core.toNat, kind) ∧ { t with inject := s.inject } = s) ∧
      (s.flag F.TEN_FLD_CTRL_INJ_EN n = false → exec (.injectArm n core kind) s =
        .next (s.refuse .TEN_FLD_INJECT n (core.toNat + bit kind * 2 ^ 9 + 2 ^ 10))))

/-! ## Links, chapter 8 -/

/-- Only what one link slot holds beside its registers changes. -/
def OnlyLink (n : Nat) (s t : State) : Prop := { t with links := s.links } = s ∧ ∀ m, m ≠ n → t.link m = s.link m

/-- R198: a link frame that does not arrive whole, or is not of its kind, is taken as a lost sequenced frame of its link and does nothing
else: IDLE, DATA, NAK, AUDIT, CREDIT_INIT and RETRAIN frames of a link slot, and IDENT and ECHO frames of a lane of it. -/
def Clause.BadFrames : Prop :=
  ∀ (n : Fin 24) (l : Fin 192) (f : LinkFrame) (arrived : BitVec 64) (v0 v1 v2 v3 : BitVec 16) (s : State) (i : Instr) (kind : Nat),
    (i, kind) ∈ [(Instr.idleFrame n f, 0), (.dataFrame n f, 1), (.nakFrame n f, 2), (.auditFrame n f, 3),
      (.creditInitFrame n f v0 v1 v2 v3, 6), (.retrainFrame n f, 7), (.identFrame l f, 4), (.echoFrame l f arrived, 5)] →
    (kind = 4 ∨ kind = 5 → s.linkOfLane l = some n.val) →
    frameOk f = false ∨ f.kind.toNat ≠ kind →
    Completes i s fun t =>
      t.link n = { s.link n with gapSince := some ((s.link n).gapSince.getD s.up) } ∧ OnlyLink n s t

/-- R204, R207, R208: on a link with nothing queued and no audit due, the ACK of an IDLE frame frees what it acknowledges in the replay
buffer and its returns add their rise to the credits; a NAK frame frees what it acknowledges and has every frame still held resent,
counted in LNK_LINK_RETX, but on a MISWIRED or QUARANTINED link the DATA frames of VC 3 alone; a gap that stays open makes the receiver send NAK on the link's next lane, with the sequence number
expected, and drop the frames it held. -/
def Clause.Acknowledgements : Prop :=
  ∀ (n : Fin 24) (f : LinkFrame) (s : State),
    let l := s.link n
    let kept := l.replay.filter fun e => decide (0 ≤ seqDiff e.seq f.ack.toNat)
    let rise := fun (v : Nat) (ret : BitVec 16) => (max 0 (signed 16 (ret.toNat + 2 ^ 16 - l.retSeen.get v % 2 ^ 16))).toNat
    (frameOk f = true → f.kind = 0 → l.queued = 0 → l.auditDue = false → Completes (.idleFrame n f) s fun t =>
      OnlyLink n s t ∧ (t.link n).replay = kept ∧
      (t.link n).credHand = ⟨l.credHand.v0 + rise 0 f.ret0, l.credHand.v1 + rise 1 f.ret1, l.credHand.v2 + rise 2 f.ret2,
        l.credHand.v3 + rise 3 f.ret3⟩ ∧ (t.link n).expect = l.expect ∧ (t.link n).buffered = l.buffered) ∧
    (frameOk f = true → f.kind = 2 → (∀ e ∈ kept, e.resent < 7) → Completes (.nakFrame n f) s fun t =>
      (t.link n).replay = (kept.map fun e => if s.resends n e then { e with resent := e.resent + 1 } else e) ∧
      t.rd .LNK_LINK_RETX n = (counterUp (s.rd .LNK_LINK_RETX n) (kept.filter (s.resends n)).length).1 % 2 ^ 64 ∧
      t.out.length = s.out.length + (kept.filter (s.resends n)).length ∧ t.mem = s.mem ∧ SameRegs [(.LNK_LINK_RETX, n.val), (.EVR_AUDIT, 0)] s t) ∧
    (∀ t0, l.gapSince = some t0 → Completes (.nakGapTimeout n) s fun t =>
      t.link n = { l with nakAt := some s.up, hold := [], turn := (t.link n).turn } ∧
      ∃ g, t.out = .frame n g :: s.out ∧ g.kind = 2 ∧ g.ack = BitVec.ofNat 24 l.expect ∧
        ∀ k, s.nextLane n = some k → (t.lane k).line = (s.lane k).line ++ [g] ∧ (t.link n).turn = k)

/-- Link frames that are lost, and those that acknowledge. -/
def Obligations.LinkReplay : Prop := Clause.BadFrames ∧ Clause.Acknowledgements

/-- R202, R207: a DATA or AUDIT frame on an UP link with nothing queued to send and no audit due. The expected DATA frame inside a packet,
with a buffer free, is taken: the next sequence number is expected, and the frame is buffered; the expected AUDIT frame is taken, and
changes nothing else of the receiver while its equations hold; a repeat changes nothing of the receiver; a later frame is held, and a gap
is open. -/
def Obligations.SequencedFrames : Prop :=
  ∀ (n : Fin 24) (f : LinkFrame) (s : State),
    let l := s.link n
    let v := f.vc.toNat
    let d := seqDiff f.seq.toNat l.expect
    frameOk f = true → s.linkState n = linkUp → l.queued = 0 → l.auditDue = false →
    (f.kind = 1 → d = 0 → l.hold = [] → f.eop = false → l.recv.get v < l.granted.get v + l.freed.get v →
      Completes (.dataFrame n f) s fun t =>
        OnlyLink n s t ∧ (t.link n).expect = (l.expect + 1) % 2 ^ 24 ∧ (t.link n).recv.get v = l.recv.get v + 1 ∧
        (t.link n).buffered.get v = l.buffered.get v ++ [⟨v, f.sop, false, f.payload.take f.len.toNat, 0, none⟩] ∧
        (∀ w, w < 4 → w ≠ v → (t.link n).buffered.get w = l.buffered.get w) ∧ (t.link n).gapSince = none) ∧
    (f.kind = 3 → d = 0 → l.hold = [] →
      (∀ v, v < 4 → l.auditFails v (leAt f.payload (16 * v) 4) (leAt f.payload (16 * v + 4) 4) (leAt f.payload (16 * v + 8) 2) = []) →
      Completes (.auditFrame n f) s fun t =>
        OnlyLink n s t ∧ (t.link n).expect = (l.expect + 1) % 2 ^ 24 ∧ (t.link n).buffered = l.buffered ∧ (t.link n).gapSince = none) ∧
    (∀ i, (i, f.kind) ∈ [(Instr.dataFrame n f, 1#4), (.auditFrame n f, 3#4)] →
      (d < 0 → Completes i s fun t =>
        OnlyLink n s t ∧ (t.link n).expect = l.expect ∧ (t.link n).buffered = l.buffered ∧ (t.link n).hold = l.hold ∧
        (t.link n).gapSince = l.gapSince) ∧
      (0 < d → l.nakAt = none → Completes i s fun t =>
        OnlyLink n s t ∧ (t.link n).expect = l.expect ∧ (t.link n).buffered = l.buffered ∧ (t.link n).hold = l.hold ++ [f] ∧
        (t.link n).gapSince.isSome = true))

/-- R209, R212, R217 to R219: a retrain for a cause of Table 8.8 puts an UP link, its field in service, into RETRAINING, counts it, marks
its entries closing, sends a RETRAIN frame with the cause on every lane, and for every cause but PATH marks the slots of the slices
that use the link for a fault at the close; it keeps the replay buffer and the next sequence number and takes the credits away. A
retrain that fails for the third time, and a training without a lane at IDENT 10 ms after the first light, take the link DOWN and close
its entries; CLEAR sends an isolated link into training, its time limit from its first light on, and takes it DOWN when its field is out of service; a command that does not
apply is refused. -/
def Obligations.LinkRetrains : Prop :=
  ∀ (n : Fin 24) (s : State),
    let last := s.fld F.LNK_LINK_CAUSE_LAST n
    let bound := if last = 7 then 2 * msec else msec / 2
    (∀ (i : Instr) (c : Nat) (f : LinkFrame) (k : Fin 8), (i, c) ∈ [(Instr.linkRetrain n k, k.val), (.retrainFrame n f, 4), (.retrainCommand n, 3), (.retrainFailed n, last)] →
      (i = .retrainFrame n f → frameOk f = true ∧ f.kind = 7) → (i = .linkRetrain n k → k ≠ 0 ∧ k ≠ 6) →
      (i ≠ .retrainFailed n → s.linkState n = linkUp) →
      (i = .retrainFailed n → s.linkState n = linkRetraining ∧ s.litFor n bound = true ∧ (s.link n).failures < 2) →
      (s.link n).pathClosing = false → s.linkFenced n = false →
      Completes i s fun t =>
        t.linkState n = linkRetraining ∧ t.fld F.LNK_LINK_STATUS_LANES n = 0 ∧ t.fld F.LNK_LINK_CAUSE_LAST n = c ∧
        t.fld F.RTE_LINK_STATE n = 2 ∧ t.rd .LNK_LINK_RETRAIN n = (counterUp (s.rd .LNK_LINK_RETRAIN n) 1).1 % 2 ^ 64 ∧
        (t.link n).replay = (s.link n).replay ∧ (t.link n).seq = (s.link n).seq ∧ (t.link n).credHand = .all 0 ∧
        (t.link n).hold = [] ∧ (c ≠ 7 → ∀ u ∈ s.usersOf n, n.val ∈ (t.slot u).linkDue) ∧
        (∀ l ∈ s.lanesOf n, ∃ g, (t.lane l).line = (s.lane l).line ++ [g] ∧ g.kind = 7 ∧ g.payload.take 1 = [BitVec.ofNat 8 c]) ∧
        t.mem = s.mem ∧ t.cores = s.cores) ∧
    (∀ i c, (i, c) ∈ [(Instr.retrainFailed n, last), (.trainingDeadline n, 6)] →
      (i = .retrainFailed n → s.linkState n = linkRetraining ∧ s.litFor n bound = true ∧ 2 ≤ (s.link n).failures) →
      (i = .trainingDeadline n → (s.linkState n = linkTraining ∨ s.linkState n = linkRetraining) ∧ s.litFor n (10 * msec) = true ∧
        ∀ k ∈ s.lanesOf n, s.laneState k ≠ laneIdentified) →
      Completes i s fun t =>
        t.linkState n = linkDown ∧ t.fld F.LNK_LINK_STATUS_LANES n = 0 ∧ t.fld F.LNK_LINK_CAUSE_LAST n = c ∧
        t.fld F.RTE_LINK_STATE n = 0 ∧ t.mem = s.mem ∧ t.cores = s.cores) ∧
    (s.mgmtOnly n = true → s.linkFenced n = false → Completes (.clearCommand n) s fun t =>
      t.linkState n = linkTraining ∧ t.mem = s.mem ∧
      (t.link n).litAt = if (s.lanesOf n).any (fun l => s.laneState l != laneDark) then some s.up else none) ∧
    (s.mgmtOnly n = true → s.linkFenced n = true → Completes (.clearCommand n) s fun t =>
      t.linkState n = linkDown ∧ t.fld F.RTE_LINK_STATE n = 0 ∧ t.mem = s.mem) ∧
    (s.mgmtOnly n = false → exec (.clearCommand n) s = .next (s.refuse .LNK_LINK_CFG n (2 ^ 6))) ∧
    (s.linkState n ≠ linkUp → exec (.retrainCommand n) s = .next (s.refuse .LNK_LINK_CFG n (2 ^ 5)))

/-- R193, R209, R210, R212, R216, R237, R244, R381: lanes. Light at a dark lane with a path starts its training, unless its field is out of
service or group 3 is still to be judged; at FEC lock four IDENT frames leave on it; the fourth identical IDENT received is checked, its finding stands in IDCHK, and
it identifies the lane, fails it, or isolates the link; a lane without lock or IDENT in time restarts, and fails after 3 restarts; a
lane that loses its light is dark, one that loses its lock trains again; a failed optical engine darkens its 16 lanes, takes them out of
their links and raises its cause of a service interrupt. -/
def Clause.Lanes : Prop :=
  ∀ (l : Fin 192) (s : State),
    (∀ power : BitVec 16, -2000 ≤ power.toInt → s.hasPath l = true → s.laneState l = laneDark → (s.lane l).engineOut = false →
      s.laneFenced l = false → s.lasersDark = false →
      Completes (.lightPresent l power) s fun t =>
        t.laneState l = laneSignal ∧ t.flag F.DCK_PATH_LIGHT l = true ∧ t.fld F.LNK_LANE_STATUS_RESTARTS l = 0 ∧
        (t.lane l).lightAt = some s.up ∧
        (∀ n, s.linkOfLane l = some n → s.linkState n = linkDown → s.linkFenced n = false → t.linkState n = linkTraining)) ∧
    (∀ c : FecCount, c.lane = l → s.laneState l = laneSignal → Completes (.fecLock c) s fun t =>
      t.laneState l = laneFec ∧ (t.lane l).fecAt = some s.up ∧ t.mem = s.mem ∧ t.links = s.links ∧
      ∀ n o, s.linkOfLane l = some n → s.launchOf l = some o →
        ∃ g, (t.lane l).line = (s.lane l).line ++ [g, g, g, g] ∧ g.kind = 4 ∧ g.payload.take 8 = s.identPayload n l o) ∧
    (∀ f : LinkFrame, frameOk f = true → s.laneState l = laneFec → s.laneApart l = false → f.kind = 4 →
      (3 = (s.lane l).identCount → (s.lane l).ident = f.payload → ∀ n, s.linkOfLane l = some n → Completes (.identFrame l f) s fun t =>
        let code := s.identCode l (Ident.ofBytes f.payload)
        t.fld F.LNK_LINK_CAUSE_IDCHK n = code ∧ (code = 1 → t.laneState l = laneIdentified) ∧ (code = 3 → t.laneState l = laneFailed) ∧
        (code = 4 ∨ code = 5 → t.linkState n = linkMiswired ∧ t.fld F.RTE_LINK_STATE n = 0) ∧
        (code = 6 → t.linkState n = linkQuarantined ∧ t.fld F.RTE_LINK_STATE n = 0)) ∧
      ((s.lane l).ident ≠ f.payload → Completes (.identFrame l f) s fun t =>
        t.lane l = { s.lane l with ident := f.payload, identCount := 1 } ∧ { t with lanes := s.lanes, links := s.links } = s)) ∧
    (∀ t0, (s.laneState l = laneSignal ∧ (s.lane l).lightAt = some t0 ∧ t0 + 10 * msec ≤ s.up) ∨
        (s.laneState l = laneFec ∧ s.laneApart l = false ∧ (s.lane l).fecAt = some t0 ∧ t0 + msec ≤ s.up) →
      Completes (.trainingRestart l) s fun t =>
        (s.fld F.LNK_LANE_STATUS_RESTARTS l < 3 →
          t.laneState l = laneSignal ∧ t.fld F.LNK_LANE_STATUS_RESTARTS l = s.fld F.LNK_LANE_STATUS_RESTARTS l + 1) ∧
        (s.fld F.LNK_LANE_STATUS_RESTARTS l = 3 → t.laneState l = laneFailed)) ∧
    (s.laneState l ≠ laneDark → Completes (.laneLoss l true) s fun t =>
      t.laneState l = laneDark ∧ t.flag F.DCK_PATH_LIGHT l = false ∧ (t.lane l).lightAt = none) ∧
    (s.laneState l ≠ laneDark → s.laneState l ≠ laneFailed → Completes (.laneLoss l false) s fun t =>
      t.laneState l = laneSignal ∧ (t.lane l).fecAt = none) ∧
    (∀ e : Fin 12, Completes (.opticalEngineFailed e) s fun t =>
      (l.val / 16 = e.val → t.laneState l = laneDark ∧ (t.lane l).engineOut = true ∧
        ∀ n, s.linkOfLane l = some n → bitOf (t.fld F.LNK_LINK_STATUS_LANES n) (l.val % 32) = false) ∧
      bitOf (t.fld F.INT_SVC_PEND_CAUSE) 4 = true)

/-- R199, R202, R209, R218, R233: an ECHO frame that brings back the time sent last on an identified lane measures its delay, and is
answered; after 16 of them on a lane the link's CREDIT_INIT goes out; the peer's CREDIT_INIT gives the credits that this end may use, once
in a training; a trained link with both comes UP, its entries open, on the lanes that are measured, but for those more than 100 ns
slower than the fastest, which are EXCLUDED. -/
def Clause.LinkOpens : Prop :=
  ∀ (n : Fin 24) (s : State),
    let trains := s.linkState n = linkTraining ∨ s.linkState n = linkRetraining
    (∀ (l : Fin 192) (f : LinkFrame) (arrived : BitVec 64), s.linkOfLane l = some n.val → frameOk f = true → f.kind = 5 →
      s.laneState l = laneIdentified → (s.lane l).echoSent = some (leAt f.payload 8 8) → Completes (.echoFrame l f arrived) s fun t =>
        (t.lane l).delay = some ((timeDiff arrived.toNat (leAt f.payload 8 8) - (leAt f.payload 16 2 * ns : Nat)) / (2 * ns : Nat)).toNat ∧
        (t.lane l).echoes = (s.lane l).echoes + 1 ∧ (t.lane l).echoSent = some (s.now % 2 ^ 64) ∧ t.mem = s.mem ∧
        (trains → 15 ≤ (s.lane l).echoes → (t.link n).creditOut = true)) ∧
    (∀ (f : LinkFrame) v0 v1 v2 v3, frameOk f = true → f.kind = 6 → trains → (s.link n).creditIn = false →
      (s.link n).replay = [] → Completes (.creditInitFrame n f v0 v1 v2 v3) s fun t =>
        t.link n = { s.link n with creditIn := true, credHand := ⟨v0.toNat, v1.toNat, v2.toNat, v3.toNat⟩ } ∧
        SameRegs [(.LNK_LINK_RETX, n.val)] s t ∧ t.mem = s.mem ∧ t.out = s.out) ∧
    (trains → (s.link n).creditOut = true → (s.link n).creditIn = true →
      (∃ k ∈ s.lanesOf n, s.laneReady k = true) → Completes (.linkUp n) s fun t =>
        t.linkState n = linkUp ∧ t.fld F.RTE_LINK_STATE n = 1 ∧ (t.link n).failures = 0 ∧ t.mem = s.mem ∧
        ∀ k ∈ s.lanesOf n, s.laneReady k = true →
          ((s.lane k).delay.getD 0 ≤ s.leastDelay n + 100 →
            t.laneState k = laneActive ∧ bitOf (t.fld F.LNK_LINK_STATUS_LANES n) (k % 32) = true) ∧
          (s.leastDelay n + 100 < (s.lane k).delay.getD 0 → t.laneState k = laneExcluded))

/-- Lanes in training, and links that come up on them. -/
def Obligations.LinkTraining : Prop := Clause.Lanes ∧ Clause.LinkOpens

/-! ## The deck and the servo, chapters 9 and 10 -/

/-- R230 to R233, R258: START of DCK_CMD_CTRL judges a set of path commands. A set at fault changes no path and no link, and is counted
with the code of its first fault; an accepted set waits for its tick, its links closing. At that tick a CONNECT puts its path into the
table, moving, or failed where one of its axes holds fault code 1 or 5, and a RELEASE takes its path out; a moving path whose axes have
settled is settled, with its LIGHT and LOSSY, and no other path changes. A deck that is empty begins no set before groups 0 to 2 are judged
(R381). -/
def Obligations.DeckSets : Prop :=
  ∀ s : State,
    (∀ count : BitVec 9,
      let r := s.setCode count.toNat
      let links := s.linksOfLanes ((s.cmdEntries count.toNat).map s.entryLanes).flatten
      (r.1 ≠ 0 → Completes (.pathSetStart count) s fun t =>
        t.fld F.DCK_CMD_CTRL_RESULT = r.1 ∧ t.fld F.DCK_CMD_CTRL_ENTRY = r.2 ∧ t.deck = s.deck ∧ t.links = s.links ∧
        t.rd .DCK_REJECT_CNT = (counterUp (s.rd .DCK_REJECT_CNT) 1).1 % 2 ^ 64 ∧
        SameRegs [(.DCK_CMD_CTRL, 0), (.DCK_REJECT_CNT, 0), (.EVR_AUDIT, 0)] s t) ∧
      (r.1 = 0 → Completes (.pathSetStart count) s fun t =>
        t.fld F.DCK_CMD_CTRL_RESULT = 0 ∧ t.flag F.DCK_CMD_CTRL_BUSY = true ∧
        t.deck = { s.deck with set := some ⟨s.cmdEntries count.toNat, s.rd .DCK_CMD_TIME, s.up, links, false, false⟩ } ∧
        (∀ n ∈ links, (t.link n).pathClosing = true ∧ (s.fld F.RTE_LINK_STATE n = 1 → t.fld F.RTE_LINK_STATE n = 2)))) ∧
    (∀ d e, s.deck.set = some d → d.begun = false → d.unpark = false → d.entries = [e] → (s.deckState = deckEmpty → s.deckCalRun = false) →
      (if d.startTick = 0 then s.setDrained d else s.passed d.startTick) = true → Completes .setStartTick s fun t =>
        let o := entryOut e
        t.flag F.DCK_CMD_CTRL_DRAINED = true ∧
        (entryOp e = 1 → t.hasPath o = false) ∧
        (entryOp e = 0 → t.pathInput o = entryIn e ∧ t.fld F.DCK_PATH_TYPE o = pathType (entryIn e) o ∧
          ((∀ a ∈ pathAxes (s.physInput (entryIn e)) o, s.fld F.SRV_AXIS_FAULT a ≠ 1 ∧ s.fld F.SRV_AXIS_FAULT a ≠ 5) →
            t.fld F.DCK_PATH_STATE o = 1) ∧
          ((∃ a ∈ pathAxes (s.physInput (entryIn e)) o, s.fld F.SRV_AXIS_FAULT a = 1 ∨ s.fld F.SRV_AXIS_FAULT a = 5) →
            t.fld F.DCK_PATH_STATE o = 3))) ∧
    (∀ (o : Fin 480) (pin pout : BitVec 16), s.fld F.DCK_PATH_STATE o = 1 → (∀ a ∈ s.axesOfPath o, s.axisState a = axisSettled) →
      Completes (.pathSettled o pin pout) s fun t =>
        t.fld F.DCK_PATH_STATE o = 2 ∧ t.flag F.DCK_PATH_LIGHT o = decide (-2000 ≤ pout.toInt) ∧
        t.flag F.DCK_PATH_LOSSY o = decide (pin.toInt - pout.toInt > 200) ∧ t.links = s.links ∧
        (∀ p, p < 480 → p ≠ o.val → t.rd .DCK_PATH p = s.rd .DCK_PATH p))

/-- R238 to R243: PARK makes every enabled link close; after the drain every path's light goes out and the axes of the paths go to angle
zero, the table being kept; with every mirror at rest the deck is parked. PARK 0 then has the kept paths made again, as a set,
but waits while groups 0 to 2 are being judged (Table 16.4). RESET_KEY 0xD5
resets a parked deck: no path is left, and the control complex, when it runs, writes the paths of the old table to DCK_CMD_BUF; any other
key is refused. A deck reset leaves no path, and so does the loss of the deck; both feeds lost begin the hold-up. -/
def Obligations.DeckParks : Prop :=
  ∀ s : State,
    let again := fun (t : State) => s.booted = true → ∀ k, k < s.paths.length → t.rd .DCK_CMD_BUF k = s.pathEntries.getD k 0
    (s.deckState ≠ deckParking → s.deckState ≠ deckParked → s.deck.parkAt = none → Completes .park s fun t =>
      t.flag F.DCK_CTRL_PARK = true ∧ t.deck = { s.deck with parkAt := some s.up } ∧ t.deckState = s.deckState ∧
      ∀ n ∈ s.enabledLinks, (t.link n).pathClosing = true) ∧
    (∀ t0, s.deck.parkAt = some t0 → s.flag F.DCK_CMD_CTRL_BUSY = false → (∀ n ∈ s.enabledLinks, s.linkDrained n t0 = true) →
      Completes .parking s fun t =>
        t.deckState = deckParking ∧ t.deck.parkAt = none ∧ t.paths = s.paths ∧ ∀ o ∈ s.paths, t.flag F.DCK_PATH_LIGHT o = false ∧
          ∀ a ∈ s.axesOfPath o, (t.axis a).loop = true → (t.axis a).goal = 0) ∧
    (s.deckState = deckParking → (∀ a ∈ s.axes, a.2.rests = true) → Completes .deckParked s fun t =>
      t.deckState = deckParked ∧ OnlyRegsQuiet [(.DCK_STATUS, 0)] s t) ∧
    (s.deckCalRun = true → Completes .unpark s fun t => t = { s with cal := { s.cal with unpark := true } }) ∧
    (s.deckState = deckParked → s.deckCalRun = false → Completes .unpark s fun t =>
      t.flag F.DCK_CTRL_PARK = false ∧ t.deckState = deckUnparking ∧ t.flag F.DCK_CMD_CTRL_BUSY = true ∧
      (∃ d, t.deck.set = some d ∧ d.unpark = true ∧ d.startTick = s.time.next ∧ d.entries = s.paths.map fun o => o + s.pathInput o * 2 ^ 9) ∧
      SameRegs [(.DCK_CTRL, 0), (.DCK_STATUS, 0), (.DCK_CMD_CTRL, 0)] s t) ∧
    (∀ key : BitVec 8,
      (key = 0xD5 → s.deckState = deckParked → ∀ park, Completes (.deckResetKey key park) s fun t =>
        t.deckState = deckEmpty ∧ t.paths = [] ∧ t.axes = [] ∧ t.flag F.SRV_STATUS_READY = true ∧ again t ∧
        (s.paths = [] ∨ s.booted = false → t.deck = Deck.init)) ∧
      (key ≠ 0 → (key ≠ 0xD5 ∨ s.deckState ≠ deckParked) →
        exec (.deckResetKey key true) s = .next (s.refuse .DCK_CTRL 0 (1 + key.toNat * 2 ^ 8)).parkOn)) ∧
    (∀ mref, Completes (.deckReset mref) s fun t =>
      t.domains.deck = true ∧ t.paths = [] ∧ t.axes = [] ∧ t.flag F.SRV_STATUS_READY = true ∧ again t ∧
      (s.paths = [] ∨ s.booted = false → t.deck = Deck.init)) ∧
    (s.domains.deck = true →
      (Completes (.deckPowerLoss false) s fun t =>
        t.flag F.DCK_STATUS_HOLDUP = true ∧ t.deck = { s.deck with holdupAt := some s.up } ∧ SameRegs [(.DCK_STATUS, 0)] s t) ∧
      (Completes (.deckPowerLoss true) s fun t =>
        t.domains.deck = false ∧ t.paths = [] ∧ t.deck = Deck.init ∧ t.flag F.SRV_STATUS_READY = false))

/-- R241, R259, R261: ticks lost and found; a settled axis outside its window for 4 ticks is lost, and puts its path, once settled, back to
moving; a fault of an axis fails its path, or stands at the axis alone where no path uses it, and one of the supply or of the engine fails
every path; a supply back in its range for 1,024 ticks clears its fault, and service condition 6 unless the engine has failed (R361); CLEAR clears code 0x1 or 0x5 of a resting axis and is refused otherwise. -/
def Obligations.ServoFaults : Prop :=
  ∀ (a : Fin 1920) (s : State),
    (s.flag F.DCK_STATUS_DETACHED = false → Completes .detached s fun t =>
      t.flag F.DCK_STATUS_DETACHED = true ∧ t.deck = s.deck ∧ SameRegs [(.DCK_STATUS, 0), (.EVR_AUDIT, 0)] s t) ∧
    (s.flag F.DCK_STATUS_DETACHED = true → s.deck.realign = 0 → Completes .ticksReturn s fun t =>
      t = { s with deck := { s.deck with realign := 16 } }) ∧
    (∀ o, s.pathOfAxis a = some o →
      (s.axisState a = axisSettled → 4 ≤ (s.axis a).away → Completes (.axisLost a) s fun t =>
        t.axisState a = axisLost ∧ t.rd .SRV_LOST_CNT = (counterUp (s.rd .SRV_LOST_CNT) 1).1 % 2 ^ 64 ∧ t.links = s.links ∧
        (s.fld F.DCK_PATH_STATE o = 2 → t.fld F.DCK_PATH_STATE o = 1 ∧ (o, ⟨s.deck.clock, true⟩) ∈ t.deck.moves) ∧
        (s.fld F.DCK_PATH_STATE o ≠ 2 → t.fld F.DCK_PATH_STATE o = s.fld F.DCK_PATH_STATE o ∧ t.deck = s.deck)) ∧
      (∀ code : Fin 8, code.val ≤ 5 → s.servoCondition a code = true → Completes (.servoFault a code) s fun t =>
        t.fld F.DCK_PATH_STATE o = 3 ∧ t.fld F.SRV_AXIS_FAULT a = code ∧ t.flag F.DCK_PATH_LIGHT o = false ∧
        t.flag F.DCK_STATUS_SERVO_FAULT = true)) ∧
    (s.pathOfAxis a = none → ∀ code : Fin 8, code.val ≤ 5 → s.servoCondition a code = true → Completes (.servoFault a code) s fun t =>
      t.fld F.SRV_AXIS_FAULT a = code ∧ t.flag F.DCK_STATUS_SERVO_FAULT = true ∧ t.paths = s.paths ∧
      ((s.axis a).rests = true → t.axisState a = axisFailed)) ∧
    (∀ code : Fin 8, 5 < code.val → s.servoCondition a code = true → Completes (.servoFault a code) s fun t =>
      (∀ o ∈ s.paths, t.fld F.DCK_PATH_STATE o = 3) ∧ bitOf (t.fld F.INT_SVC_PEND_CAUSE) 6 = true ∧
      t.flag F.DCK_STATUS_SERVO_FAULT = true) ∧
    (s.fld F.SRV_STATUS_SUPPLY = 2 → 1024 ≤ s.deck.supplyGood → Completes .supplyRecovered s fun t =>
      t.fld F.SRV_STATUS_SUPPLY = 0 ∧ bitOf (t.fld F.INT_SVC_COND_CAUSE) 6 = s.flag F.SRV_STATUS_ENGINE ∧ t.deck = s.deck) ∧
    (let c := s.fld F.SRV_AXIS_FAULT a
     ((c = 1 ∨ c = 5) → (s.axis a).rests = true → Completes (.axisClear a) s fun t =>
       t.fld F.SRV_AXIS_FAULT a = 0 ∧ t.axisState a = axisResting ∧
       OnlyRegsQuiet [(.SRV_AXIS, a.val), (.SRV_STATUS, 0), (.DCK_STATUS, 0)] s t) ∧
     ((c ≠ 1 ∧ c ≠ 5) ∨ (s.axis a).rests = false → exec (.axisClear a) s = .next (s.refuse .SRV_AXIS a (2 ^ 47))))

/-! ## Placement of slices, chapter 11 -/

/-- R18, R271, R281, R284 to R286, R290: a commit is armed for a tick that has not passed and refused otherwise, and none is armed then; at a
tick, once its own has come, every staged table is in force, with the hop delay told for it, and the epoch has gone up once; between ticks,
and before its own, nothing changes. A spare that the plan allows is brought in by a pre-emption with cause SPARE, by links, by a copy once
the slice is away, which the departing module makes or is told to make, and by tables whose commit a tick is named for, after which the job
may be restored; a spare that the plan refuses leaves its reason with the job; a departing module that cannot be read stops the job with
cause MODULE_LOST. -/
def Obligations.Commits : Prop :=
  ∀ (e : Fin 64) (s : State),
    let active := s.flag F.RTE_SLICE_ACTIVE e = true
    let slice := s.fld F.RTE_SLICE_SLICE_ID e
    (∀ tick : BitVec 64, Completes (.commitArm e tick) s fun t =>
      t.rd .RTE_SLICE_COMMIT e = tick.toNat ∧ OnlyRegsQuiet [(.RTE_SLICE_COMMIT, e.val), (.RTE_SLICE, e.val)] s t ∧
      (s.flag F.RTE_SLICE_ACTIVE e = false → t.fld F.RTE_SLICE_CRESULT e = 2 ∧ t.flag F.RTE_SLICE_ARMED e = s.flag F.RTE_SLICE_ARMED e) ∧
      (active →
        (s.passed tick.toNat = true → t.fld F.RTE_SLICE_CRESULT e = 1 ∧ t.flag F.RTE_SLICE_ARMED e = false) ∧
        (s.passed tick.toNat = false → t.fld F.RTE_SLICE_CRESULT e = 0 ∧ t.flag F.RTE_SLICE_ARMED e = true))) ∧
    (s.atTick = true → s.flag F.RTE_SLICE_ARMED e = true → s.passed (s.rd .RTE_SLICE_COMMIT e) = true →
      Completes (.commitTakesEffect e) s fun t =>
        t.flag F.RTE_SLICE_ARMED e = false ∧
        (∀ k ∈ stagedKeys e, ∀ v, mapGet (fun _ => none) s.staged (regKey k.1 k.2) = some v → t.rd k.1 k.2 = v % 2 ^ (8 * k.1.bytes)) ∧
        (∀ k ∈ stagedKeys e, mapGet (fun _ => none) s.staged (regKey k.1 k.2) = none → t.rd k.1 k.2 = s.rd k.1 k.2) ∧
        (mapGet (fun _ => 0) s.epochTick e.val ≠ s.ticks + 1 →
          t.fld F.RTE_SLICE_EPOCH e = (s.fld F.RTE_SLICE_EPOCH e + 1) % 65536) ∧
        mapGet (fun _ => none) t.voteDelays e.val = mapGet (fun _ => none) s.nextDelays e.val ∧ t.mem = s.mem) ∧
    (s.atTick = false ∨ s.flag F.RTE_SLICE_ARMED e = false ∨ s.passed (s.rd .RTE_SLICE_COMMIT e) = false →
      exec (.commitTakesEffect e) s = .next s) ∧
    (active → ∀ departing : BitVec 14,
      let plan := s.spares.find? fun x => x.entry == e.val && x.old == departing.toNat
      (∀ spare survey, plan = none →
        (∀ r, s.sparePlan e departing.toNat spare.toNat survey = .error r → Completes (.spareSwitch e departing (.preempt spare survey)) s fun t =>
          t = { s with jobs := s.jobs.map fun j => if j.slice = slice then { j with reason := r } else j }) ∧
        (∀ x n, s.sparePlan e departing.toNat spare.toNat survey = .ok x → s.slotOfSlice slice = some n → (s.slot n).phase = .placed →
          s.flag F.SEQ_SLOT_CFG_ACTIVE n = true → (s.slot n).requests = [] →
          Completes (.spareSwitch e departing (.preempt spare survey)) s fun t =>
            t.slot n = { s.slot n with requests := [⟨0x65, departing.toNat⟩] } ∧ x ∈ t.spares ∧ t.regs = s.regs ∧ t.mem = s.mem)) ∧
      (∀ x, plan = some x →
        (∀ tick, x.stage = .saving → Completes (.spareSwitch e departing (.links tick)) s fun t =>
          { x with stage := .linking } ∈ t.spares ∧ t.jobs = s.jobs ∧ t.mem = s.mem) ∧
        (x.stage = .linking → s.slotOfSlice slice = none → Completes (.spareSwitch e departing .copy) s fun t =>
          { x with stage := .copied } ∈ t.spares ∧ t.jobs = s.jobs ∧ t.mem = s.mem ∧
          (∀ v, x.old = s.selfId → s.savedOf slice = some v →
            let m := s.mem.keepFrames (s.framesOf slice)
            t.regs = s.regs ∧ t.out = .contextCopy x.new v { m with cells := putShifted 0 0 1 (s.mem.keepTables v.root) m.cells }
              (s.saveAreas slice) :: s.out) ∧
          (x.old ≠ s.selfId → .mgmt x.old (.spareCopy (BitVec.ofNat 12 slice) (BitVec.ofNat 14 x.new)) ∈ t.out)) ∧
        (∀ tick, x.stage = .copied → s.passed tick.toNat = false → (s.substOf e x.old x.new).isSome = true →
          Completes (.spareSwitch e departing (.rewrite tick)) s fun t =>
            (∀ y ∈ t.spares, y.entry ≠ e.val) ∧
            ((x.old = s.selfId → ∃ j ∈ s.jobs, j.slice = slice) → t.flag F.RTE_SLICE_ARMED e = true ∧
              t.rd .RTE_SLICE_COMMIT e = tick.toNat ∧ mapGet (fun _ => none) t.nextDelays e.val = some x.delay) ∧
            ∀ j ∈ s.jobs, j.slice = slice → j.state = .preempted → j.cause.code = 0x65 → { j with resumeOk := true } ∈ t.jobs)) ∧
      (∀ j, s.jobs.find? (fun j => j.slice == slice) = some j → j.stopping = none →
        Completes (.spareSwitch e departing .lost) s fun t =>
          { j with stopping := some ⟨stFault, 0x48, departing.toNat, some (s.jobFrame j), none⟩ } ∈ t.jobs ∧ t.regs = s.regs))

/-! ## Machine time, chapter 12 -/

/-- R287, R293, R294, R297, R298: a TIME request is answered on its link with the stamps of its arrival and departure; every 16th tick a module
that follows a parent asks for the time; the reply to its request gives TIM_OFFSET and the one-way delay, and a step at the next tick for
an offset of 1 µs or more, while a smaller one, with the tick count and the anchor of the parent, sets the rate that slews it away; 4
measurements lost in a row enter HOLDOVER from LOCKED or ACQUIRING, and 2 s there end in FREE; REFCLK shows in TIM_STATUS, and its loss with SOURCE 1 enters
HOLDOVER from LOCKED. -/
def Obligations.TimeOverLinks : Prop :=
  ∀ (n : Fin 24) (s : State),
    let stamps := [(.TIM_TSQ_TIME, 2), (.TIM_TSQ_INFO, 2), (.TIM_TSQ_DROP, 2), (.EVR_AUDIT, 0)]
    (∀ t1 arrived leaves, Completes (.time n (.request t1) arrived leaves) s fun t =>
      Out.time n (.reply t1 arrived leaves (BitVec.ofNat 64 s.ticks) (BitVec.ofNat 64 (s.rd .FTK_ANCHOR))) ∈ t.out ∧
      { t.time with tsq2 := s.time.tsq2 } = s.time ∧ t.now = s.now ∧ t.mem = s.mem ∧ SameRegs stamps s t) ∧
    (∀ (t1 t2 t3 ticks anchor arrived leaves : BitVec 64) (k : Nat), s.time.asked = some (t1.toNat, k) → s.fld F.TIM_STATUS_PARENT = n →
      s.followsLinks = true → Completes (.time n (.reply t1 t2 t3 ticks anchor) arrived leaves) s fun t =>
        let off := (timeDiff t2.toNat t1.toNat - timeDiff arrived.toNat t3.toNat) / 2
        t.rd .TIM_OFFSET = unsigned 64 off ∧ t.time.asked = none ∧ t.time.lost = 0 ∧ t.now = s.now ∧
        t.time.delay = some ((timeDiff t2.toNat t1.toNat + timeDiff arrived.toNat t3.toNat) / 2) ∧
        (1000 * ns ≤ off.natAbs → t.time.step = some ⟨off, anchor.toNat, ticks.toNat, t3.toNat⟩ ∧ t.rd .TIM_RATE = s.rd .TIM_RATE) ∧
        (off.natAbs < 1000 * ns → ticks.toNat = s.countAt t3.toNat → anchor.toNat = s.rd .FTK_ANCHOR →
          t.rd .TIM_RATE = unsigned 32 (s.rateFor off) ∧ t.time.step = s.time.step)) ∧
    (s.ticks % 16 = 0 → s.followsLinks = true → s.flag F.TIM_STATUS_PARENT_VALID = true → s.time.asked = none →
      Completes .timeMeasure s fun t =>
        { t.time with tsq2 := s.time.tsq2 } = { s.time with asked := some (s.now, s.ticks) } ∧
        Out.time (s.fld F.TIM_STATUS_PARENT) (.request (BitVec.ofNat 64 s.now)) ∈ t.out ∧ SameRegs stamps s t) ∧
    (∀ q k, s.time.asked = some (q, k) → k + 16 ≤ s.ticks → Completes .measurementLost s fun t =>
      t.time.asked = none ∧ (s.time.lost < 3 → t.time.lost = s.time.lost + 1 ∧ t.timeState = s.timeState) ∧
      (3 ≤ s.time.lost → s.timeState = timeLocked ∨ s.timeState = timeAcquiring → t.timeState = timeHoldover)) ∧
    (s.timeState = timeHoldover → s.time.heldAt + 2 * second ≤ s.up → Completes .holdoverExpiry s fun t =>
      t.timeState = timeFree ∧ SameRegs [(.TIM_STATUS, 0), (.EVR_AUDIT, 0)] s t) ∧
    (Completes .refclkLoss s fun t =>
      t.flag F.TIM_STATUS_REFCLK = false ∧ (s.fld F.TIM_CTRL_SOURCE = 1 → s.timeState = timeLocked → t.timeState = timeHoldover) ∧
      (s.fld F.TIM_CTRL_SOURCE ≠ 1 → t.timeState = s.timeState)) ∧
    (Completes .refclkReturn s fun t => t.flag F.TIM_STATUS_REFCLK = true ∧ OnlyRegsQuiet [(.TIM_STATUS, 0)] s t)

/-- R300 to R305: a missing TICK_IN edge is counted and no good measurement, a good one sets TIM_OFFSET; ARM of the harness load takes a tick
count that is a multiple of 1,024, and is refused otherwise, and the next marker edge loads machine time and the tick count (with the marker
tick as anchor: log entry 60); a change of period is armed when it may be and refused with its RESULT otherwise, can be withdrawn up to the
tick before its own, and takes effect at the tick that its value names, the servo's gain set with it unless the deck is DETACHED; stamps wait
in their queue of 64, are dropped and counted when it is full, and POP removes the oldest; a received PTP message's stamp is kept, and with
the master's times of a delay request-response exchange gives the relation to TAI. -/
def Obligations.HarnessPeriodsStamps : Prop :=
  ∀ s : State,
    (s.fld F.TIM_CTRL_SOURCE = 1 →
      (∀ m, Completes (.tickInEdge none m) s fun t =>
        t.rd .TIM_TICKIN_ERR = (counterUp (s.rd .TIM_TICKIN_ERR) 1).1 % 2 ^ 64 ∧ t.now = s.now ∧
        (s.time.mismatch < 3 → t.time = { s.time with mismatch := s.time.mismatch + 1, good := 0 })) ∧
      (∀ edge : BitVec 64,
        let k := (edge.toNat + 2 ^ 64 - s.fld F.TIM_HRN_CFG_DELAY * ns / 10) % 2 ^ 64
        let off := timeDiff (s.nearestTick k) k
        off.natAbs ≤ 20 * ns → Completes (.tickInEdge (some edge) false) s fun t =>
          t.rd .TIM_OFFSET = unsigned 64 off ∧ t.time.mismatch = 0 ∧ t.now = s.now) ∧
      (∀ edge : BitVec 64, s.flag F.TIM_HRN_ARM_ARMED = true → Completes (.tickInEdge (some edge) true) s fun t =>
        t.now = s.rd .TIM_HRN_TIME ∧ t.rd .FTK_TICKS = s.rd .TIM_HRN_TICK % 2 ^ 64 ∧ t.rd .FTK_ANCHOR = s.rd .TIM_HRN_TIME % 2 ^ 64 ∧
        t.flag F.TIM_HRN_ARM_ARMED = false)) ∧
    (Completes .harnessArm s fun t =>
      (s.rd .TIM_HRN_TICK % 1024 = 0 → t.flag F.TIM_HRN_ARM_ARMED = true ∧ t.flag F.TIM_HRN_ARM_BAD = false) ∧
      (s.rd .TIM_HRN_TICK % 1024 ≠ 0 → t.flag F.TIM_HRN_ARM_ARMED = false ∧ t.flag F.TIM_HRN_ARM_BAD = true) ∧
      SameRegs [(.TIM_HRN_ARM, 0), (.EVR_AUDIT, 0)] s t) ∧
    (∀ period : BitVec 16, Completes (.periodChangeArm period) s fun t =>
      let r := s.periodCheck period.toNat
      t.fld F.FTK_NEXT_RESULT = r ∧ t.fld F.FTK_NEXT_PERIOD = period.toNat ∧ t.period = s.period ∧
      (r = 0 → t.time = { s.time with change := some (s.rd .FTK_CHANGE_AT, period.toNat) } ∧ t.flag F.FTK_NEXT_PENDING = true) ∧
      (r ≠ 0 → t.time = s.time) ∧ SameRegs [(.FTK_NEXT, 0), (.EVR_AUDIT, 0)] s t) ∧
    (s.time.change = none → exec .periodChangeCancel s = .next s) ∧
    (∀ at_ p, s.time.change = some (at_, p) →
      ((s.period * ns : Nat) ≤ timeDiff at_ s.now → Completes .periodChangeCancel s fun t =>
        t.time = { s.time with change := none } ∧ t.flag F.FTK_NEXT_PENDING = false ∧ SameRegs [(.FTK_NEXT, 0)] s t) ∧
      (timeDiff at_ s.now < (s.period * ns : Nat) → exec .periodChangeCancel s = .next s)) ∧
    (∀ at_ p, s.time.change = some (at_, p) → s.passed at_ = true → p < 65536 → Completes .periodChange s fun t =>
      let a := gridNext s.period (s.rd .FTK_ANCHOR) at_
      t.period = p ∧ t.rd .FTK_ANCHOR = a ∧ t.time.change = none ∧ t.time.next = gridNext p a (s.now + 1) ∧
      t.flag F.FTK_NEXT_PENDING = false ∧ (s.flag F.DCK_STATUS_DETACHED = false → t.fld F.SRV_STATUS_SET = gainSet p) ∧
      (s.flag F.DCK_STATUS_DETACHED = true → t.fld F.SRV_STATUS_SET = s.fld F.SRV_STATUS_SET)) ∧
    (∀ q : Fin 3, Completes (.tsqPop q) s fun t =>
      t.time.tsq q = (s.time.tsq q).drop 1 ∧ t.now = s.now ∧ SameRegs [(.TIM_TSQ_TIME, q.val), (.TIM_TSQ_INFO, q.val)] s t) ∧
    (∀ (port : Fin 2) (ident : BitVec 16) (crossed : BitVec 64) (tai : Option (BitVec 64)),
      s.flag (if port = 0 then F.TIM_PTP_CTRL_EN0 else F.TIM_PTP_CTRL_EN1) = true →
      (Completes (.ptpEventMessage port none crossed tai) s fun t =>
        t = { s with time := { s.time with ptpIn := some ⟨port, crossed.toNat, tai.map (·.toNat)⟩ } }) ∧
      Completes (.ptpEventMessage port (some ident) crossed tai) s fun t =>
        ((s.time.tsq port).length < 64 → t.time.tsq port = s.time.tsq port ++ [⟨ident.toNat, port, crossed.toNat⟩]) ∧
        (64 ≤ (s.time.tsq port).length → t.time.tsq port = s.time.tsq port ∧
          t.rd .TIM_TSQ_DROP port = (counterUp (s.rd .TIM_TSQ_DROP port) 1).1 % 2 ^ 64) ∧
        (∀ t4 t2 t1, tai = some t4 → s.time.ptpIn = some ⟨port, t2, some t1⟩ →
          t.time.ptp = some (ptpRelation t1 t2 crossed.toNat t4.toNat)))

/-! ## Domains, chapter 20 -/

/-- R456, R457: the isolated ports. A HELLO tells when the peer was heard and its session, and a peer with another session is down until it
resynchronises; 4 missed HELLOs take it down; resynchronisation brings it up. -/
def Clause.IsolatedPorts : Prop :=
  ∀ (p : PortId) (s : State),
    let x := s.domains.port p
    (∀ session : BitVec 32, Completes (.hello p session) s fun t =>
      t.domains.port p = { x with heardAt := s.up, peer := session.toNat, up := x.up && x.peer == session.toNat } ∧
      { t with domains := s.domains } = s) ∧
    (x.heardAt + 40000 * ns ≤ s.up → Completes (.peerDown p) s fun t =>
      t.domains.port p = { x with up := false } ∧ { t with domains := s.domains } = s) ∧
    (∀ session : BitVec 32, Completes (.resynchronisation p session) s fun t =>
      t.domains.port p = { x with up := true, peer := session.toNat, heardAt := s.up } ∧ t.regs = s.regs ∧ t.mem = s.mem)

/-- R447, R458 to R461, R480, R481: resets and restarts of the domains. A control reset and MOD_RST_N end every job and connection and take
the wafer down, while machine time and the tick count run on; release begins the boot; a wafer reset and a restart bring the wafer up
with the LPDDR devices that trained; a thermal shutdown switches it off with all that it held; power at a feed starts every domain. -/
def Clause.DomainResets : Prop :=
  ∀ s : State,
    (s.domains.control = true → ∀ i ∈ [Instr.controlReset, .modRstN], Completes i s fun t =>
      t.jobs = [] ∧ t.works = [] ∧ t.domains.wafer = false ∧ t.domains.mission = false ∧ t.domains.booting = true ∧ t.cores = [] ∧
      t.slots = [] ∧ t.now = s.now ∧ t.rd .FTK_TICKS = s.rd .FTK_TICKS ∧ (∀ n, n < 1024 → t.connState n = connClosed) ∧
      (i = .modRstN → t.domains.resetHeld = true)) ∧
    (s.domains.control = true → s.domains.resetHeld = true → ∀ okA okB x, Completes (.modRstNRelease okA okB x) s fun t =>
      t.domains.resetHeld = false ∧ t.domains.control = true ∧ t.domains.booting = false ∧ t.now = s.now) ∧
    (s.booted = true → s.domains.shutAt = none → ∀ x, Completes (.waferReset x) s fun t =>
      t.domains.wafer = true ∧ t.domains.mission = false ∧ (∀ j ∈ t.jobs, j.placed = false) ∧
      ∀ d : Fin 32, d ∈ x.failed → t.flag F.LPD_DEV_STATUS_FAILED d = true) ∧
    (s.domains.wafer = true → ∀ conv : BitVec 8, (4 ≤ s.domains.hot110 ∨ 125 ≤ conv.toNat) → Completes (.thermalShutdown conv) s fun t =>
      t.domains.wafer = false ∧ t.domains.shutAt = some s.up ∧ t.cores = [] ∧ t.links = [] ∧ t.slots = [] ∧ t.mem.cells = [] ∧
      (∀ j ∈ t.jobs, j.placed = false) ∧ (s.domains.keepOff = true → t.domains.keepOff = true)) ∧
    (∀ t0 (conv : BitVec 8) x, s.domains.shutAt = some t0 → s.booted = true → s.domains.keepOff = false →
      t0 + 60 * second ≤ s.up → conv.toNat < 85 → Completes (.waferRestart conv x) s fun t =>
        t.domains.wafer = true ∧ t.domains.shutAt = none ∧ t.domains.restartAt = some s.up ∧
        ∀ d : Fin 32, d ∈ x.failed → t.flag F.LPD_DEV_STATUS_FAILED d = true) ∧
    (∀ x : PowerIn, (feedGood x.voltsA || feedGood x.voltsB) = true → Completes (.powerUp x) s fun t =>
      t.domains.control = true ∧ t.domains.deck = true ∧ t.domains.straps = x.straps ∧ t.domains.booting = false ∧
      t.flag F.PWR_STATUS_FEED_A = feedGood x.voltsA ∧ t.flag F.PWR_STATUS_FEED_B = feedGood x.voltsB)

/-- Isolated ports, and resets of the domains. -/
def Obligations.DomainsAndPorts : Prop := Clause.IsolatedPorts ∧ Clause.DomainResets

/-! ## Front-end ports, connections and rings, chapter 13 -/

/-- R307 to R312: connections. Open takes a closed connection whose configuration holds no reserved value into service with the PSNs of
FEI_CONN_PSN and its indices at zero; close takes it out unless it is bound to a job; reopen brings one in error back with its indices
kept, and writes the completions again that were not acknowledged before the error; each leaves its RESULT. An acknowledgement takes the operations that it covers off the list, and a STATUS that is all of them
completes; a timeout, a sequence error and an RNR NAK each retry up to RETRY times and then put the connection in error, any other NAK at
once; a request is refused with NAK, and what is no packet of a connection is dropped and counted; an ARP or Neighbour Solicitation for an
enabled own address is answered, and no other; a port's status follows its link. -/
def Obligations.Connections : Prop :=
  ∀ (n : Fin 1024) (s : State),
    (s.connState n = connClosed →
      (s.connBad n = false → Completes (.connOpen n) s fun t =>
        t.connState n = connOpen ∧ t.fld F.FEI_CONN_CMD_RESULT n = 0 ∧ t.rd .FEI_CONN_IDX n = 0 ∧ (t.conn n).reqs = [] ∧
        (t.conn n).sendPsn = s.fld F.FEI_CONN_PSN_SQ_PSN n ∧ (t.conn n).recvPsn = s.fld F.FEI_CONN_PSN_RQ_PSN n ∧
        { t with regs := s.regs, conns := s.conns } = s ∧
        SameRegs [(.FEI_CONN_CMD, n.val), (.FEI_CONN_CFG, n.val), (.FEI_CONN_IDX, n.val)] s t) ∧
      (s.connBad n = true → Completes (.connOpen n) s fun t =>
        t.fld F.FEI_CONN_CMD_RESULT n = 3 ∧ OnlyRegsQuiet [(.FEI_CONN_CMD, n.val)] s t)) ∧
    (s.connState n ≠ connClosed →
      (Completes (.connOpen n) s fun t => t.fld F.FEI_CONN_CMD_RESULT n = 1 ∧ OnlyRegsQuiet [(.FEI_CONN_CMD, n.val)] s t) ∧
      (s.connBound n = true → Completes (.connClose n) s fun t =>
        t.fld F.FEI_CONN_CMD_RESULT n = 2 ∧ OnlyRegsQuiet [(.FEI_CONN_CMD, n.val)] s t) ∧
      (s.connBound n = false → Completes (.connClose n) s fun t =>
        t.fld F.FEI_CONN_CMD_RESULT n = 0 ∧ t.connState n = connClosed ∧ (t.conn n).reqs = [] ∧ t.mem = s.mem ∧ t.jobs = s.jobs)) ∧
    (s.connState n = connError → Completes (.connReopen n) s fun t =>
      t.connState n = connOpen ∧ t.fld F.FEI_CONN_CMD_RESULT n = 0 ∧
      ((s.conn n).again = [] → (t.conn n).sendPsn = s.fld F.FEI_CONN_PSN_SQ_PSN n) ∧
      (t.conn n).reqs.map (fun r => (r.use, r.op)) = (s.conn n).again.map (fun r => (r.use, r.op)) ∧
      t.out = ((s.conn n).again.map fun r => r.op.out n).reverse ++ s.out ∧
      { t with regs := s.regs, conns := s.conns, out := s.out } = s ∧
      SameRegs [(.FEI_CONN_CMD, n.val), (.FEI_CONN_CFG, n.val)] s t) ∧
    (∀ port : Fin 2, Completes (.fePacket (.other port)) s fun t =>
      t.rd .FEI_PORT_DROP port = (counterUp (s.rd .FEI_PORT_DROP port) 1).1 % 2 ^ 64 ∧ t.conns = s.conns ∧ t.mem = s.mem ∧
      SameRegs [(.FEI_PORT_DROP, port.val), (.EVR_AUDIT, 0)] s t) ∧
    (s.connUp n = true →
      (Completes (.fePacket (.request n)) s fun t =>
        t.out = .feNak n :: s.out ∧ t.conns = s.conns ∧ t.mem = s.mem ∧
        t.rd .FEI_PORT_REFUSED (s.connPort n) = (counterUp (s.rd .FEI_PORT_REFUSED (s.connPort n)) 1).1 % 2 ^ 64) ∧
      (∀ psn : BitVec 24, Completes (.fePacket (.ack n psn)) s fun t =>
        (t.conn n).reqs = (s.conn n).reqs.filter (fun r => !r.ackedBy psn.toNat) ∧ t.regs = s.regs ∧ t.mem = s.mem ∧
        (∀ r k w, (s.conn n).reqs = [r] → r.ackedBy psn.toNat = true → r.use = .status k → s.work k = some w →
          (t.conn w.conn).waiting = (s.conn w.conn).waiting ++ [⟨w.tag, w.job, w.opcode, stDone, 0, none, 0, 0⟩])) ∧
      (∀ i k, ((i = Instr.feAckTimeout n ∧ k = .timeout ∧ ∃ r rs, (s.conn n).reqs = r :: rs ∧ r.sentAt + s.ackLimit n ≤ s.up) ∨
            ∃ psn, ∃ x : BitVec 8, syndromeRetry x.toNat = some k ∧ i = .feNak n psn x) →
        ((s.conn n).retries.get k < s.fld F.FEI_CONN_CFG_RETRY n → Completes i s fun t =>
          t.conn n = { s.conn n with
            retries := (s.conn n).retries.more k, reqs := (s.conn n).reqs.map fun r => { r with sentAt := s.up } } ∧
          t.connState n = connOpen ∧
          t.out = ((s.conn n).reqs.map fun r => r.op.out n).reverse ++ s.out ∧
          t.rd .FEI_CONN_RETX n = (counterUp (s.rd .FEI_CONN_RETX n) ((s.conn n).reqs.map (·.packets)).sum).1 % 2 ^ 64) ∧
        (s.fld F.FEI_CONN_CFG_RETRY n ≤ (s.conn n).retries.get k → Completes i s fun t =>
          t.connState n = connError ∧ (t.conn n).reqs = [] ∧ t.mem = s.mem ∧ t.jobs = s.jobs)) ∧
      (∀ psn, ∀ x : BitVec 8, syndromeRetry x.toNat = none → Completes (.feNak n psn x) s fun t =>
        t.connState n = connError ∧ (t.conn n).reqs = [] ∧ t.mem = s.mem ∧ t.jobs = s.jobs)) ∧
    (s.connUp n = false → ∀ psn x, Completes (.feNak n psn x) s fun t =>
      t.rd .FEI_PORT_DROP (s.connPort n) = (counterUp (s.rd .FEI_PORT_DROP (s.connPort n)) 1).1 % 2 ^ 64 ∧ t.conns = s.conns ∧
      t.mem = s.mem ∧ SameRegs [(.FEI_PORT_DROP, s.connPort n), (.EVR_AUDIT, 0)] s t) ∧
    (∀ (port : Fin 2) (addr : IpAddr),
      let mine := match addr with
        | .v4 a => s.flag F.FEI_PORT_IP_V4_EN port = true ∧ s.fld F.FEI_PORT_IP_IPV4 port = a.toNat
        | .v6 a => s.flag F.FEI_PORT_IP_V6_EN port = true ∧ s.fld F.FEI_PORT_IP_IPV6 port = a.toNat
      (mine → Completes (.feArp port addr) s fun t => t = s.emit (.neighbour port addr)) ∧
      (¬mine → exec (.feArp port addr) s = .next s)) ∧
    (∀ (port : Fin 2) (up : Bool) (lanes : BitVec 4), Completes (.fePortLinkChange port up lanes) s fun t =>
      t.flag F.FEI_PORT_STATUS_UP port = up ∧ t.fld F.FEI_PORT_STATUS_LANES port = lanes.toNat ∧
      OnlyRegsQuiet [(.FEI_PORT_STATUS, port.val)] s t)

/-- R313 to R317: rings. A doorbell with bits [31:17] zero moves SQ_PROD or CQ_CONS when its index does not go back and lies in its ring;
any other is ignored and counted, and one on a closed connection is dropped and counted at its port. Entries read from the submission ring are taken in order while their completions have room beyond
the 8 kept for events, with SQ_CONS after the last taken. A waiting completion that fits is written at CQ_PROD, which rises by one. -/
def Obligations.Rings : Prop :=
  ∀ (n : Fin 1024) (s : State),
    let prod := s.fld F.FEI_CONN_IDX_SQ_PROD n
    let cons := s.fld F.FEI_CONN_IDX_SQ_CONS n
    let cprod := s.fld F.FEI_CONN_IDX_CQ_PROD n
    let ccons := s.fld F.FEI_CONN_IDX_CQ_CONS n
    (∀ imm : BitVec 32, s.connState n = connClosed → Completes (.doorbell n imm) s fun t =>
      t.rd .FEI_PORT_DROP (s.connPort n) = (counterUp (s.rd .FEI_PORT_DROP (s.connPort n)) 1).1 % 2 ^ 64 ∧
      SameRegs [(.FEI_PORT_DROP, s.connPort n), (.EVR_AUDIT, 0)] s t ∧ t.conns = s.conns ∧ t.mem = s.mem) ∧
    (∀ imm : BitVec 32, s.connState n ≠ connClosed →
      let i := imm.toNat % 65536
      (imm.toNat < 2 ^ 16 → (i + 65536 - cons) % 65536 ≤ 2 ^ (s.fld F.FEI_CONN_SQ_LOG2N n + 6) → (i + 65536 - prod) % 65536 < 32768 →
        Completes (.doorbell n imm) s fun t =>
          t.fld F.FEI_CONN_IDX_SQ_PROD n = i ∧ t.fld F.FEI_CONN_IDX_SQ_CONS n = cons ∧ t.fld F.FEI_CONN_IDX_CQ_PROD n = cprod ∧
          t.fld F.FEI_CONN_IDX_CQ_CONS n = ccons ∧
          { t with regs := s.regs, conns := s.conns } = s ∧ SameRegs [(.FEI_CONN_IDX, n.val)] s t) ∧
      (2 ^ 16 ≤ imm.toNat → imm.toNat < 2 ^ 17 → (cprod + 65536 - i) % 65536 ≤ 2 ^ (s.fld F.FEI_CONN_CQ_LOG2N n + 6) →
        (i + 65536 - ccons) % 65536 < 32768 → Completes (.doorbell n imm) s fun t =>
          t.fld F.FEI_CONN_IDX_CQ_CONS n = i ∧ t.fld F.FEI_CONN_IDX_CQ_PROD n = cprod ∧ t.fld F.FEI_CONN_IDX_SQ_PROD n = prod ∧
          { t with regs := s.regs, conns := s.conns } = s ∧ SameRegs [(.FEI_CONN_IDX, n.val)] s t) ∧
      (2 ^ 17 ≤ imm.toNat ∨ (imm.toNat < 2 ^ 16 ∧ 32768 ≤ (i + 65536 - prod) % 65536) → Completes (.doorbell n imm) s fun t =>
        t.rd .FEI_CONN_IDX n = s.rd .FEI_CONN_IDX n ∧
        t.rd .FEI_CONN_BADDB n = (counterUp (s.rd .FEI_CONN_BADDB n) 1).1 % 2 ^ 64 ∧ t.mem = s.mem)) ∧
    (∀ entries : List (BitVec 512),
      let k := entries.length
      let at_ := cons % s.sqSize n
      s.connUp n = true → 0 < k → k ≤ 32 → k ≤ ringDiff prod cons → at_ + k ≤ s.sqSize n →
      s.cqUsed n + s.cqPromised n + 8 + k ≤ s.cqSize n → Completes (.descriptorFetch n entries) s fun t =>
        (t.conn n).taken = (s.conn n).taken ++ entries.map sqWords ∧ t.fld F.FEI_CONN_IDX_SQ_CONS n = (cons + k) % 65536 ∧
        t.out = .rdmaRead n (s.fld F.FEI_CONN_SQ_RKEY n) (s.fld F.FEI_CONN_SQ_ADDR n + at_ * 64) (64 * k) :: s.out ∧
        { t with regs := s.regs, conns := s.conns, out := s.out } = s ∧ SameRegs [(.FEI_CONN_IDX, n.val)] s t) ∧
    (∀ (c : Cpl) (rest : List Cpl), s.connUp n = true → (s.conn n).waiting = c :: rest →
      s.cqUsed n + (if c.opcode = 0xF then s.cqPromised n else 0) < s.cqSize n → Completes (.completionWrite n) s fun t =>
        t.fld F.FEI_CONN_IDX_CQ_PROD n = (cprod + 1) % 65536 ∧ (t.conn n).waiting = rest ∧
        Out.rdmaWrite n (s.fld F.FEI_CONN_CQ_RKEY n) (s.fld F.FEI_CONN_CQ_ADDR n + cprod % s.cqSize n * 32)
          (toBytes 32 (s.cplRecord n c)) ∈ t.out ∧
        { t with regs := s.regs, conns := s.conns, out := s.out } = s ∧ SameRegs [(.FEI_CONN_IDX, n.val)] s t)

/-! ## Descriptors and jobs, chapter 13 -/

/-- The next descriptor of a connection has an opcode and no reserved bit. -/
def NextIs (n op : Nat) (ws : List Nat) (s : State) : Prop :=
  s.nextDesc n = some ws ∧ descBad ws = false ∧ dOp ws = op

/-- A connection gives its next descriptor up, and a completion waits on it. -/
def TakenWith (n : Nat) (c : Cpl) (s t : State) : Prop :=
  t.conn n = { s.conn n with taken := (s.conn n).taken.drop 1, waiting := (s.conn n).waiting ++ [c] }

/-- R318, R319, R323 to R331, R335: descriptors. NOP completes DONE; one with a reserved opcode or bit is refused with cause OPCODE, one
that names no job of the connection with NO_JOB. LOAD makes a queued job, or is refused with its cause. RUN starts its entries on an
idle job; a COPY becomes work in progress; STATUS writes the snapshot; STOP and RELEASE ask for their effect at the next tick; RESUME
of a job pre-empted for the hold limit completes DONE. -/
def Obligations.Descriptors : Prop :=
  ∀ (n : Fin 1024) (ws : List Nat) (s : State),
    (NextIs n 0 ws s → Completes (.nopDescriptor n) s fun t =>
      TakenWith n ⟨dTag ws, 0, 0, stDone, 0, none, 0, 0⟩ s t ∧ { t with conns := s.conns } = s) ∧
    (s.nextDesc n = some ws → descBad ws = true → Completes (.invalidOpcode n) s fun t =>
      TakenWith n ⟨dTag ws, if dOp ws ≤ 1 then 0 else dJob ws, dOp ws, stRefused, 0x20, none, 0, 0⟩ s t ∧
      { t with conns := s.conns } = s) ∧
    (∀ i op, (i, op) ∈ [(Instr.run n, 2), (.copyIn n, 3), (.copyOut n, 4), (.status n, 5), (.stop n, 6), (.release n, 7), (.resume n, 8)] →
      NextIs n op ws s → s.job (dJob ws) = none → s.connUp n = true → Completes i s fun t =>
        TakenWith n ⟨dTag ws, dJob ws, op, stRefused, 0x21, none, 0, 0⟩ s t ∧ { t with conns := s.conns } = s) ∧
    (NextIs n 1 ws s →
      (s.loadCheck ws = 0 → Completes (.load n) s fun t =>
        ∃ j, t.jobs = s.jobs ++ [j] ∧ j.ident = s.freeIdent 65536 s.nextJob ∧ j.state = .queued ∧ j.tag = dTag ws ∧ j.homeConn = n.val ∧
          j.placed = false ∧ j.imageAddr = dw ws 2 ∧ j.waitMs = bits (dw ws 5) 21 16 ∧ j.prio = bits (dw ws 4) 23 4 ∧
          t.works = s.works ++ [⟨s.nextWork, n, j.ident, 1, dTag ws, ws, [], true⟩] ∧ t.regs = s.regs ∧ t.mem = s.mem) ∧
      (s.loadCheck ws ≠ 0 → Completes (.load n) s fun t =>
        TakenWith n ⟨dTag ws, 0, 1, stRefused, s.loadCheck ws, none, 0, 0⟩ s t ∧ { t with conns := s.conns } = s)) ∧
    (∀ j, s.job (dJob ws) = some j → j.conns.contains n.val = true →
      (NextIs n 2 ws s → j.state = .idle → j.run = none → (∀ w ∈ s.works, w.job = j.ident → w.opcode ≠ 2) →
        let first := bits (dw ws 2) 0 16
        let k := bits (dw ws 2) 16 16
        k ≠ 0 → first + k ≤ s.scheduleLen j → Completes (.run n) s fun t =>
          t.job j.ident = some { j with run := some ⟨first, k, 0, 0, 0, 0⟩, state := .running, entryIdx := first, entryRep := 0 } ∧
          t.mem = s.mem ∧ SameRegs [(.SEQ_NEXT, j.slot % 65536), (.RTE_TRANSIT_DROP, 0), (.EVR_AUDIT, 0), (.TIM_TSQ_TIME, 2),
            (.TIM_TSQ_INFO, 2), (.TIM_TSQ_DROP, 2)] s t) ∧
      (∀ i op, (i, op) ∈ [(Instr.copyIn n, 3), (.copyOut n, 4)] → NextIs n op ws s → (i = .copyIn n → j.state ≠ .stopped) → copyCheck s j ws = 0 →
        Completes i s fun t => t.nextWork = s.nextWork + 1 ∧ t.mem = s.mem ∧ t.jobs = s.jobs ∧
          ∃ w ∈ t.works, w.num = s.nextWork ∧ w.opcode = op ∧ w.job = j.ident ∧ w.words = ws) ∧
      (NextIs n 5 ws s → s.connUp n = true → Completes (.status n) s fun t =>
        t.out = .rdmaWrite n (bits (dw ws 3) 0 32) (dw ws 2) (s.snapshot j) :: s.out ∧ t.jobs = s.jobs ∧ t.regs = s.regs ∧
        t.works = s.works ++ [⟨s.nextWork, n, j.ident, 5, dTag ws, ws, [], true⟩]) ∧
      (NextIs n 6 ws s → j.state ≠ .stopped → j.stopping = none → Completes (.stop n) s fun t =>
        t.job j.ident = some { j with stopping := some ⟨stStopped, 0x70, 0, none, none⟩ } ∧ t.regs = s.regs ∧ t.mem = s.mem ∧
        t.works = s.works ++ [⟨s.nextWork, n, j.ident, 6, dTag ws, ws, [], true⟩]) ∧
      (NextIs n 7 ws s → Completes (.release n) s fun t =>
        (∃ k, t.job j.ident = some k ∧ k.releasing = .asked ∧ (j.state ≠ .stopped → k.stopping.isSome = true)) ∧
        t.regs = s.regs ∧ t.mem = s.mem ∧ t.works = s.works ++ [⟨s.nextWork, n, j.ident, 7, dTag ws, ws, [], true⟩]) ∧
      (NextIs n 8 ws s → j.state = .preempted → j.cause.code = 0x61 → Completes (.resume n) s fun t =>
        t.job j.ident = some { j with resumeOk := true } ∧ TakenWith n ⟨dTag ws, j.ident, 8, stDone, 0, none, 0, 0⟩ s t ∧
        t.regs = s.regs ∧ t.mem = s.mem))

/-- R281, R324, R327, R330 to R335: jobs. WAIT_MS ends the LOAD of a job that is not placed; a loaded job is IDLE and its LOAD completes DONE
with the slice, the home module and the count of members, or is refused where a field rejected the set; JOB_CMD stops, releases and resumes
with its RESULT; a job that lingers is released; a placement keeps the reason that stands against it, or refuses a LOAD that does not
wait with it, gives a queued job its fields, restores a pre-empted job, also as a member of another entry module's slice, and gives a
STOPPED job one field for its COPY_OUT; a lower-priority job is asked to give way. -/
def Obligations.JobCommands : Prop :=
  ∀ (i : BitVec 16) (s : State),
    (∀ (p : Placing) v n, p.job = i → s.job i.toNat = none → s.mayPlace = true → (∀ j ∈ s.jobs, j.slice ≠ p.slice.toNat) →
      s.savedOf p.slice.toNat = some v → s.entryOf p.slice.toNat = some n → p.fields.length = v.fields.length →
      (s.memberCount n ≤ 1 ∨ (s.flag F.RTE_COORD_VALID = true ∧ s.placeBars = false)) → (p.fields.map (·.val)).Nodup → (∀ f ∈ p.fields, f.val ∈ s.freeFields) →
      s.slotFree p.slot = true → Completes (.placement p) s fun t =>
        (t.slot p.slot).phase = .restoring ∧ t.rd .SEQ_FRAME p.slot = v.frame % 2 ^ 32 ∧
        ∀ f ∈ p.fields, t.fieldOwner f = some p.slice.toNat) ∧
    (s.job i.toNat = none → ∀ c ∈ [Instr.jobCmdStop i, .jobCmdRelease i, .jobCmdResume i], Completes c s fun t =>
      t.fld F.JOB_CMD_RESULT = 1 ∧ OnlyRegsQuiet [(.JOB_CMD, 0)] s t) ∧
    (∀ j, s.job i.toNat = some j →
      (∀ w, j.state = .queued → j.waitMs ≠ 0 → j.waitMs * 1000000 ≤ s.since j.loadTick → j.placed = false → j.slice = 0 → j.undo = [] → s.loadWork j.ident = some w →
        Completes (.loadWaitExpired i) s fun t =>
          t.job j.ident = none ∧ t.regs = s.regs ∧ t.mem = s.mem ∧
          (t.conn w.conn).waiting = (s.conn w.conn).waiting ++ [⟨w.tag, 0, 1, stRefused, 0x26, none, j.reason, 0⟩]) ∧
      (∀ w targets, j.state = .loading → j.stage = .programs → s.loadWork j.ident = some w →
        (∀ f ∈ j.owned, s.flag F.SEQ_FLD_LOAD_BUSY f = false) →
        ((∀ f ∈ j.owned, s.fld F.SEQ_FLD_LOAD_ERROR f = 0) → Completes (.loadDone i targets) s fun t =>
          t.job j.ident = some { j with state := .idle, stage := .loaded } ∧
          SameRegs [(.RTE_TRANSIT_DROP, 0), (.EVR_AUDIT, 0), (.TIM_TSQ_TIME, 2), (.TIM_TSQ_INFO, 2), (.TIM_TSQ_DROP, 2)] s t ∧
          (t.conn w.conn).waiting = (s.conn w.conn).waiting ++
            [⟨w.tag, w.job, 1, stDone, 0, none, j.slice + j.home * 2 ^ 12 + boxMembers j.extent * 2 ^ 26, 0⟩]) ∧
        ((∃ f ∈ j.owned, s.fld F.SEQ_FLD_LOAD_ERROR f ≠ 0) → (j.placed = false ∨ (s.cancelMovers j.slot).moversDrained j.slot = true) →
          Completes (.loadDone i targets) s fun t => t.job j.ident = none)) ∧
      (j.state ≠ .stopped → j.stopping = none → Completes (.jobCmdStop i) s fun t =>
        t.job j.ident = some { j with stopping := some ⟨stStopped, 0x71, 0, none, none⟩ } ∧ t.fld F.JOB_CMD_RESULT = 0 ∧ t.mem = s.mem ∧
        SameRegs [(.JOB_CMD, 0)] s t) ∧
      (j.state = .stopped → (Completes (.jobCmdStop i) s fun t => t.fld F.JOB_CMD_RESULT = 2 ∧ OnlyRegsQuiet [(.JOB_CMD, 0)] s t) ∧
        (Completes (.jobCmdRelease i) s fun t =>
          t.job j.ident = some { j with releasing := .asked } ∧ t.fld F.JOB_CMD_RESULT = 0 ∧ SameRegs [(.JOB_CMD, 0)] s t) ∧
        (∀ p : Placing, p.job = i → s.mayPlace = true → s.waits j = true → (∀ k ∈ s.jobs, s.waits k = true → k.before j = true → k.tried = true) →
          s.placeReason j p = 0 → s.placingOk j p = true → Completes (.placement p) s fun t =>
            (t.slot p.slot).phase = .stopped ∧
            (∀ f ∈ p.fields, t.fieldOwner f = some ((if j.slice = 0 then p.slice.toNat else j.slice) % 2 ^ 12)) ∧
            ∃ k, t.job j.ident = some k ∧ k.placed = true ∧ k.state = .stopped ∧ k.slot = p.slot ∧ k.owned = p.fields.map (·.val)) ∧
        (s.fld F.JOB_CFG_LINGER_S ≠ 0 → s.fld F.JOB_CFG_LINGER_S * 1000000000 ≤ s.since j.stopTick → Completes (.lingerExpired i) s fun t =>
          t.job j.ident = some { j with releasing := .linger } ∧ { t with jobs := s.jobs } = s)) ∧
      (j.state = .preempted ∧ j.cause.code = 0x61 → Completes (.jobCmdResume i) s fun t =>
        t.job j.ident = some { j with resumeOk := true } ∧ t.fld F.JOB_CMD_RESULT = 0 ∧ SameRegs [(.JOB_CMD, 0)] s t) ∧
      (¬(j.state = .preempted ∧ j.cause.code = 0x61) → Completes (.jobCmdResume i) s fun t =>
        t.fld F.JOB_CMD_RESULT = 2 ∧ OnlyRegsQuiet [(.JOB_CMD, 0)] s t) ∧
      (∀ p : Placing, p.job = i → s.mayPlace = true → s.waits j = true → (∀ k ∈ s.jobs, s.waits k = true → k.before j = true → k.tried = true) →
        (∀ r, s.placeReason j p = r → r ≠ 0 →
          let refused := j.state = .queued ∧ (r = reasonShape ∨ r = reasonReach ∨ r = reasonVote ∨ j.waitMs = 0)
          (¬refused → Completes (.placement p) s fun t =>
            t.job j.ident = some { j with reason := r, tried := true } ∧ { t with jobs := s.jobs } = s) ∧
          (∀ w, refused → j.placed = false → j.slice = 0 → j.undo = [] → s.loadWork j.ident = some w → Completes (.placement p) s fun t =>
            t.job j.ident = none ∧ t.regs = s.regs ∧ t.mem = s.mem ∧
            (t.conn w.conn).waiting = (s.conn w.conn).waiting ++ [⟨w.tag, 0, 1, stRefused, r, none, 0, 0⟩])) ∧
        (s.placeReason j p = 0 → s.placingOk j p = true →
          (j.state = .queued → j.frames + j.imageCount < 2 ^ 21 →
            (∀ q, q < 64 → s.flag F.LPD_QUOTA_ACTIVE q = true → q ≠ p.entry → s.fld F.LPD_QUOTA_SLICE_ID q ≠ p.slice.toNat) →
            Completes (.placement p) s fun t => (t.slot p.slot).phase = .placed ∧ (∀ f ∈ p.fields, t.fieldOwner f = some p.slice.toNat) ∧
              ∃ k, t.job j.ident = some k ∧ k.state = .loading ∧ k.placed = true ∧ k.slot = p.slot ∧ k.slice = p.slice.toNat ∧
                k.owned = p.fields.map (·.val)) ∧
          (∀ v, j.state = .preempted → s.savedOf j.slice = some v → Completes (.placement p) s fun t =>
            (t.slot p.slot).phase = .restoring ∧ t.rd .SEQ_FRAME p.slot = v.frame % 2 ^ 32 ∧
            (∀ f ∈ p.fields, t.fieldOwner f = some (j.slice % 2 ^ 12)) ∧
            ∃ k, t.job j.ident = some k ∧ k.placed = true ∧ k.slot = p.slot ∧ k.owned = p.fields.map (·.val)))) ∧
      (∀ v, s.waits j = true → j.reason = 1 → s.preemptHelps j = true → s.jobs.filter (s.mayPreempt j.prio) = [v] →
        let gone := (((List.range 56).filter s.leaving).map fun n => (s.fieldsOf n).length).sum
        s.freeFields.length + gone < j.needs → j.needs ≤ s.freeFields.length + gone + v.owned.length → s.flag F.SEQ_SLOT_CFG_ACTIVE v.slot = true →
        Completes (.schedulerPreempt i) s fun t =>
          t.slot v.slot = { s.slot v.slot with requests := (s.slot v.slot).requests ++ [⟨0x60, 0⟩] } ∧ t.out = s.out ∧
          OnlySlot v.slot s t))

/-! ## Integrity, chapter 14 -/

/-- R348 to R351: once in a second the block computes λ, the larger of the model's rate and the observed one, and S for the next tick:
65,536 for the detection goal; under the budget S_MIN while λ is within the limit E, and otherwise 65,536 × (λ − E) ÷ λ rounded up
and clamped between S_MIN and S_MAX. The 60th computation in a row above the limit sets EXCEEDED and asks for a service. -/
def Obligations.SamplingComputed : Prop :=
  ∀ s : State, s.integ.last ≠ s.sec →
    let hist := ((s.fld F.INT_STATUS_S, s.vecMisses) :: s.integ.history).take 3601
    let lam := max s.lambdaModel (lambdaObs s.vecMisses hist)
    let limit := s.fld F.INT_BUDGET_LIMIT
    let lo := s.fld F.INT_SAMPLE_S_MIN
    let hi := s.fld F.INT_SAMPLE_S_MAX
    let v := max lo ((65536 * (lam - limit) + lam - 1) / lam)
    Completes .samplingCompute s fun t =>
      t.integ.last = s.sec ∧ t.integ.history = hist ∧ t.fld F.INT_LAMBDA_RATE = s.lambdaModel % 2 ^ 48 ∧
      t.fld F.INT_LAMBDA_OBS_RATE = lambdaObs s.vecMisses hist % 2 ^ 48 ∧ t.fld F.INT_STATUS_S = s.fld F.INT_STATUS_S ∧ t.mem = s.mem ∧
      (s.flag F.INT_MODE_GOAL = false → t.integ.next = some (65536, false) ∧ t.fld F.INT_UNDET_RATE = 0) ∧
      (s.flag F.INT_MODE_GOAL = true → lam ≤ limit → t.integ.next = some (lo, false) ∧ t.integ.past = 0) ∧
      (s.flag F.INT_MODE_GOAL = true → limit < lam → t.integ.next = some (min v hi, decide (hi < v)) ∧
        (limit * 65536 < lam * (65536 - min v hi) →
          t.integ.past = min 60 (s.integ.past + 1) ∧
          (59 ≤ s.integ.past → s.flag F.INT_STATUS_EXCEEDED = false →
            t.flag F.INT_STATUS_EXCEEDED = true ∧ bitOf (t.fld F.INT_SVC_PEND_CAUSE) 1 = true)))

/-- R353 to R360: in-field test. A position whose age reaches DUE_MIN becomes due; a test that may start runs, in place on a cleared core;
a pass is counted, zeroes the age and ends what was due; a failure is counted and captured, and a failed spare is to be fenced; at the
maximum deferral of a due or marked position the owning slice is asked to be pre-empted with cause TEST. -/
def Obligations.InFieldTest : Prop :=
  ∀ (f : Fin 56) (c : Fin 30) (p : Fin 16) (s : State),
    let x := s.position f c p
    (s.overdue x = true → x.dueAt = none → s.fenced f c p = false → Completes (.positionDue f c p) s fun t =>
      t.position f c p = { x with dueAt := some s.up } ∧ { t with regs := s.regs, positions := s.positions } = s ∧
      SameRegs [(.INT_FLD_TEST, f.val)] s t) ∧
    (∀ inPlace, s.mayTest f c p inPlace = true → Completes (.testStart f c p inPlace) s fun t =>
      t.position f c p = { x with testing := some inPlace } ∧ { t with regs := s.regs, positions := s.positions, mem := s.mem } = s ∧
      SameRegs [(.INT_FLD_TEST, f.val)] s t ∧ (inPlace = false → t.mem = s.mem) ∧
      (inPlace = true → ∀ core, s.coreAtRow f c p = some core → ∀ b, b < 0x300000 → t.mem.byte (sramLine f core 0 + b) = 0)) ∧
    (∀ inPlace, x.testing = some inPlace →
      (Completes (.testDone f c p 0) s fun t =>
        t.position f c p = ⟨s.up, none, none, none, false⟩ ∧
        t.rd .INT_FLD_PASS f = (counterUp (s.rd .INT_FLD_PASS f) 1).1 % 2 ^ 64 ∧ t.mem = s.mem ∧
        SameRegs [(.INT_FLD_PASS, f.val), (.INT_FLD_TEST, f.val), (.EVR_AUDIT, 0)] s t) ∧
      (∀ part : Fin 6, part ≠ 0 → Completes (.testDone f c p part) s fun t =>
        (t.position f c p).testing = none ∧
        t.rd .INT_FLD_FAIL f = (counterUp (s.rd .INT_FLD_FAIL f) 1).1 % 2 ^ 64 ∧ t.flag F.INT_FLD_LAST_VALID f = true ∧
        (s.flag F.INT_FLD_LAST_VALID f = false →
          t.fld F.INT_FLD_LAST_COLUMN f = c ∧ t.fld F.INT_FLD_LAST_PROW f = p ∧ t.fld F.INT_FLD_LAST_PART f = part) ∧
        (inPlace = false → t.colOps = ⟨f, c, p, .fenceSpare, false, false, false⟩ :: s.colOps) ∧
        (inPlace = true → s.noSpare f c = true → s.inService f = true → t.fld F.MSH_FLD_STATE_STATE f = 1))) ∧
    (∀ t0 n, (x.dueAt = some t0 ∧ t0 + s.fld F.INT_TEST_DEFER_H * 60 * minute ≤ s.up) ∨
        (x.markedAt = some t0 ∧ t0 + s.fld F.INT_TEST_SUSPECT_MIN * minute ≤ s.up) →
      s.isSpare f c p = false → s.fenced f c p = false → s.slotOfField f = some n → (s.slot n).phase = .placed →
      s.flag F.SEQ_SLOT_CFG_ACTIVE n = true → (s.slot n).requests = [] → Completes (.maximumDeferral f c p) s fun t =>
        t.slot n = { s.slot n with requests := [⟨0x63, f + c * 2 ^ 6 + s.selfId * 2 ^ 11⟩] } ∧ t.out = s.out ∧ OnlySlot n s t)

/-! ## Power, chapter 15 -/

/-- R374 to R376, R464: feeds and clock steps. The loss of a feed is counted and asks for a service, and the loss of both takes the control
and wafer domains down; a feed that returns counts as present again. 16 ticks of heat, or overdraw, step the clock one step slower at
the next tick, but not beyond step 3; a cool second steps it one faster, within the ceiling; overdraw is counted at most once in 10 ms;
a ceiling slower than the step in force moves the module to it. -/
def Obligations.PowerArbiter : Prop :=
  ∀ s : State,
    (∀ (feed : Fin 2) (volts : BitVec 12),
      let lost := volts.toNat < 440 ∨ 600 < volts.toNat
      let own := if feed = 0 then F.PWR_STATUS_FEED_A else F.PWR_STATUS_FEED_B
      let other := if feed = 0 then F.PWR_STATUS_FEED_B else F.PWR_STATUS_FEED_A
      (lost → s.flag own = true → s.flag other = true → Completes (.feedLost feed volts) s fun t =>
        t.flag own = false ∧ t.flag other = true ∧ t.rd .PWR_FEED_LOSS = (counterUp (s.rd .PWR_FEED_LOSS) 1).1 % 2 ^ 64 ∧
        bitOf (t.fld F.INT_SVC_PEND_CAUSE) 2 = true ∧
        t.power = (if feed = 0 then { s.power with goodA := s.up } else { s.power with goodB := s.up }) ∧
        { t with regs := s.regs, evr := s.evr, power := s.power } = s ∧
        SameRegs [(.PWR_STATUS, 0), (.PWR_FEED_LOSS, 0), (.INT_SVC_PEND, 0), (.INT_SVC_COND, 0), (.EVR_AUDIT, 0)] s t) ∧
      (lost → s.flag own = true → s.flag other = false → Completes (.feedLost feed volts) s fun t =>
        t.domains.control = false ∧ t.domains.wafer = false ∧ t.jobs = [] ∧ t.cores = [] ∧ t.evr = Recorder.empty ∧
        t.flag own = false ∧ t.domains.deck = s.domains.deck ∧ (s.domains.deck = true → t.flag F.DCK_STATUS_HOLDUP = true)) ∧
      (¬lost ∨ s.flag own = false → exec (.feedLost feed volts) s = .next (s.voltsSeen feed volts.toNat)) ∧
      (480 ≤ volts.toNat → volts.toNat ≤ 600 → s.domains.control = true →
          (if feed = 0 then s.power.goodA else s.power.goodB) + 100 * msec ≤ s.up → Completes (.feedReturn feed volts) s fun t =>
        t.flag own = true ∧ (if feed = 0 then t.power.voltsA else t.power.voltsB) = volts.toNat ∧ t.flag other = s.flag other ∧
        (s.flag other = true → bitOf (t.fld F.INT_SVC_COND_CAUSE) 2 = false) ∧
        SameRegs [(.PWR_STATUS, 0), (.INT_SVC_COND, 0), (.DCK_STATUS, 0)] s t)) ∧
    (∀ cause, (cause = 1 ∧ 16 ≤ s.power.hot) ∨ (cause = 2 ∧ s.power.hot < 16 ∧ s.power.overdue = true) →
      (s.baseStep < 3 → Completes .clockStepSlower s fun t =>
        ((∀ x c, s.power.nextStep = some (x, c) → x ≤ s.baseStep) → t.power.nextStep = some (s.baseStep + 1, cause)) ∧
        (∀ x c, s.power.nextStep = some (x, c) → s.baseStep < x → t.power.nextStep = s.power.nextStep) ∧ t.power.coolSince = s.up ∧ t.regs = s.regs ∧
        (cause = 1 → t.power.hot = 0) ∧ (cause = 2 → t.power.overdue = false) ∧ { t with power := s.power } = s) ∧
      (3 ≤ s.baseStep → Completes .clockStepSlower s fun t => t.power.nextStep = s.power.nextStep ∧ t.mem = s.mem)) ∧
    (s.fld F.PWR_CLOCK_CEILING < s.baseStep → s.power.nextStep = none → s.power.coolSince + second ≤ s.up → s.power.overdue = false →
      Completes .clockStepFaster s fun t =>
        t.power = { s.power with nextStep := some (s.baseStep - 1, 0), coolSince := s.up } ∧ { t with power := s.power } = s) ∧
    (∀ mean frame ampsA ampsB : BitVec 16,
      let past := s.fld F.PWR_STATUS_B_W * 103 < mean.toNat * 100 ∨ 20000 < frame.toNat ∨ 196 < ampsA.toNat ∨ 196 < ampsB.toNat
      (past → (∀ t0, s.power.overAt = some t0 → t0 + 10 * msec ≤ s.up) → Completes (.overdraw mean frame ampsA ampsB) s fun t =>
        t.rd .PWR_OVERDRAW = (counterUp (s.rd .PWR_OVERDRAW) 1).1 % 2 ^ 64 ∧
        t.power = { s.power with overdue := true, overAt := some s.up, overSeen := s.up, coolSince := s.up } ∧
        SameRegs [(.PWR_OVERDRAW, 0), (.EVR_AUDIT, 0)] s t) ∧
      (∀ t0, past → s.power.overAt = some t0 → s.up < t0 + 10 * msec → Completes (.overdraw mean frame ampsA ampsB) s fun t =>
        t = { s with power := { s.power with overSeen := s.up, coolSince := s.up } }) ∧
      (¬past → exec (.overdraw mean frame ampsA ampsB) s = .next s)) ∧
    (∀ c : Fin 4, Completes (.ceilingWrite c) s fun t =>
      t.fld F.PWR_CLOCK_CEILING = c ∧ SameRegs [(.PWR_CLOCK, 0)] s t ∧
      (s.baseStep < c → (∀ x k, s.power.nextStep = some (x, k) → x < c) →
        t.power = { s.power with nextStep := some (c.val, 3), coolSince := s.up }) ∧
      (s.baseStep < c → ∀ x k, s.power.nextStep = some (x, k) → c ≤ x → t.power = { s.power with coolSince := s.up }) ∧
      (c ≤ s.baseStep → t.power = s.power))

/-! ## Calibration, chapter 16 -/

/-- R380 to R385, R389 to R391: calibration. A run is refused while one is busy or while a group's domain is in use; otherwise its groups are
to be measured, or all fail when MREF is out of range. A group whose DACs all lie within their limits passes with its new trims; one
judged with MREF out of range fails and keeps the last-good trims. A burn takes the next fuse slot with the trims in force. The hourly
save keeps the module's records on each device that took the write, and counts an hour untraced; before its hour it is the save of an
orderly shutdown (a DESIGN CHOICE, log entry 107), which counts none. The readings, and the trim that they give, are coded as log entry 120
says. -/
def Obligations.Calibration : Prop :=
  ∀ s : State,
    (∀ (mask : BitVec 4) (mref : BitVec 24),
      let deckInUse := mask.toNat % 8 ≠ 0 ∧ s.deckState ≠ deckParked ∧ s.deckState ≠ deckEmpty
      let linksInUse := bitOf mask.toNat 3 = true ∧ s.enabledLinks ≠ []
      (s.flag F.CAL_STATUS_BUSY = true → Completes (.calRun mask mref) s fun t =>
        t.fld F.CAL_CMD_RESULT = 1 ∧ OnlyRegsQuiet [(.CAL_CMD, 0)] s t) ∧
      (s.flag F.CAL_STATUS_BUSY = false → deckInUse ∨ linksInUse → Completes (.calRun mask mref) s fun t =>
        t.fld F.CAL_CMD_RESULT = 2 ∧ OnlyRegsQuiet [(.CAL_CMD, 0)] s t) ∧
      (s.flag F.CAL_STATUS_BUSY = false → ¬deckInUse → ¬linksInUse → mask ≠ 0 →
        (2475000 ≤ mref.toNat ∧ mref.toNat ≤ 2525000 → Completes (.calRun mask mref) s fun t =>
          t.cal.run = some ⟨(List.range 4).filter (bitOf mask.toNat), false, true⟩ ∧ t.flag F.CAL_STATUS_BUSY = true ∧
          t.fld F.CAL_CMD_RESULT = 0 ∧ t.fld F.CAL_MREF_VOLTS = mref.toNat ∧ t.flag F.CAL_STATUS_MREF_OK = true ∧ t.mem = s.mem) ∧
        (¬(2475000 ≤ mref.toNat ∧ mref.toNat ≤ 2525000) → s.cal.laser = none → Completes (.calRun mask mref) s fun t =>
          t.cal.run = none ∧ t.flag F.CAL_STATUS_BUSY = false ∧ t.flag F.CAL_STATUS_MREF_OK = false ∧
          ∀ g, g < 4 → bitOf mask.toNat g = true → t.fld F.CAL_GROUP_STATE g = 3 ∧ t.fld F.CAL_GROUP_CAUSE g = 1))) ∧
    (∀ (g : Fin 4) (mref : BitVec 24) (codes : List (BitVec 20)) (r : CalRun), s.cal.run = some r → r.groups = [g.val] →
      s.cal.laser = none → s.mayMeasure r g = true →
      let first := (trimRange g).1
      let count := (trimRange g).2
      (2475000 ≤ mref.toNat → mref.toNat ≤ 2525000 → r.bad = false →
        (∀ k, k < count → ∃ v, s.measured g k codes = some v ∧ judgeDac g v (s.cal.lastGood (first + k)) = 0) →
        Completes (.calGroupJudged g mref codes) s fun t =>
          t.fld F.CAL_GROUP_STATE g = 1 ∧ t.fld F.CAL_GROUP_CAUSE g = 0 ∧ t.fld F.CAL_GROUP_FAILED g = 0 ∧ t.cal.run = none ∧
          t.flag F.CAL_STATUS_BUSY = false ∧
          (s.flag F.CAL_CTRL_APPLY_MODE = false → ∀ k v, k < count → s.measured g k codes = some v →
            t.fld F.CAL_TRIM_VALUE (first + k) = v)) ∧
      (¬(2475000 ≤ mref.toNat ∧ mref.toNat ≤ 2525000) → Completes (.calGroupJudged g mref codes) s fun t =>
        t.fld F.CAL_GROUP_STATE g = 3 ∧ t.fld F.CAL_GROUP_CAUSE g = 1 ∧ t.fld F.CAL_GROUP_FAILED g = count ∧
        t.flag F.CAL_STATUS_UNTRACED = true ∧ t.rd .CAL_FAIL_CNT = (counterUp (s.rd .CAL_FAIL_CNT) 1).1 % 2 ^ 64 ∧ t.cal.run = none)) ∧
    (∀ (key : BitVec 8) (intact : Bool),
      (s.flag F.CAL_STATUS_BUSY = false → key = 0xA7 → s.allPassed = true → s.cal.slots.length < 8 → Completes (.fuseBurn key intact) s fun t =>
        (∃ x, t.cal.slots = s.cal.slots ++ [x] ∧ x.valid = intact ∧
          ∀ i, i < 3073 → mapGet (fun _ => 0) x.trims i = s.fld F.CAL_TRIM_VALUE i) ∧
        t.fld F.CAL_CMD_RESULT = 0 ∧ t.fld F.CAL_FUSE_USED = s.cal.slots.length + 1 ∧ SameRegs [(.CAL_CMD, 0), (.CAL_FUSE, 0)] s t) ∧
      (s.flag F.CAL_STATUS_BUSY = false → key ≠ 0xA7 → Completes (.fuseBurn key intact) s fun t =>
        t.fld F.CAL_CMD_RESULT = 5 ∧ OnlyRegsQuiet [(.CAL_CMD, 0)] s t)) ∧
    (∀ okA okB : Bool, Completes (.hourlySave okA okB) s fun t =>
      t.flashA.records.isSome = okA ∧ t.flashB.records.isSome = okB ∧
      (∀ r, t.flashA.records = some r ∨ t.flashB.records = some r →
        r.columns = (List.range 1680).map (fun i => (i, s.rd .MSH_COL_MAP i)) ∧
        r.fields = (List.range 56).map (fun f => (f, s.rd .MSH_FLD_STATE f)) ∧ r.untraced = t.fld F.CAL_UNTRACED_H_HOURS ∧
        r.ages = (List.range 26880).map (fun k => (k, s.age (mapGet (fun _ => Position.init) s.positions k)))) ∧
      (s.up < s.savedAt + hour → t.savedAt = s.savedAt ∧ t.rd .CAL_UNTRACED_H = s.rd .CAL_UNTRACED_H) ∧
      (s.savedAt + hour ≤ s.up → t.savedAt = s.up) ∧
      (s.savedAt + hour ≤ s.up → s.flag F.CAL_STATUS_UNTRACED = true → t.fld F.CAL_UNTRACED_H_HOURS = min 65535 (s.fld F.CAL_UNTRACED_H_HOURS + 1)) ∧
      (s.flag F.CAL_STATUS_UNTRACED = false → t.fld F.CAL_UNTRACED_H_HOURS = s.fld F.CAL_UNTRACED_H_HOURS) ∧
      t.mem = s.mem)

/-! ## Metrology, chapter 17 -/

/-- R399 to R404, R407, R408: the module's side and the records. A TIME record is made once in a second, while fewer than 256 are held; the
records not acknowledged go out again in order. The cartridge applies a record that is signed, well formed, its own module's and next
in order, and acknowledges it and a repeat; it counts any other as rejected. A check settles MET_STATUS.STATE, which fails when it stays
unsettled or a record unacknowledged, and is ABSENT without a cartridge. A pushed entry is stored, and the cursor shows an entry. -/
def Obligations.MeterRecords : Prop :=
  ∀ s : State,
    (s.meter.timeSec ≠ s.sec + 1 → s.meter.pending.length < 256 → Completes .timeRecordSend s fun t =>
      ∃ r : AssignRec, r.op = 3 ∧ r.seq = s.meter.nextSeq ∧ r.effective = s.now ∧ r.module = s.selfId ∧ t.meter.timeSec = s.sec + 1 ∧
        t.meter.pending = s.meter.pending ++ [(r, s.up)] ∧ t.meter.nextSeq = s.meter.nextSeq + 1 ∧
        t.out = .assign r.bytes :: s.out ∧ SameRegs [(.MET_STATUS, 0)] s t) ∧
    (s.meter.resentAt + 100000000 * ns ≤ s.up → Completes .recordResend s fun t =>
      t.out = (s.meter.pending.map fun r => Out.assign r.1.bytes).reverse ++ s.out ∧
      t.meter = { s.meter with resentAt := s.up } ∧ { t with out := s.out, meter := s.meter } = s) ∧
    (∀ bytes : List Byte, s.cart.seated = true → s.cart.powered = true → s.domains.cartPort.up = true →
      let r := readRecord bytes
      let kept := s.meter.pending.filter fun p => p.1.seq != r.seq
      Completes (.assignmentRecord bytes) s fun t =>
        (s.cart.signed bytes = false →
          t.cart.rejects = s.cart.rejects + 1 ∧ t.cart.accounts = s.cart.accounts ∧ t.cart.lastSeq = s.cart.lastSeq ∧ t.meter = s.meter ∧
          ∃ e d, t.cart.log.head? = some e ∧ e.payload = .event 0x04 d) ∧
        (s.cart.signed bytes = true → recordReserved bytes = true → t.cart = { s.cart with rejects := s.cart.rejects + 1 } ∧ t.meter = s.meter) ∧
        (s.cart.signed bytes = true → recordReserved bytes = false → s.cart.paired = some r.module →
          (r.seq = s.cart.lastSeq + 1 → t.cart = s.cart.apply r ∧ t.cart.lastSeq = r.seq ∧ t.meter.pending = kept ∧
            (r.op = 1 → ∀ f ∈ maskFields r.fields, t.cart.accountOf f = s.cart.nextNum)) ∧
          (0 < r.seq → r.seq ≤ s.cart.lastSeq → t.cart = s.cart ∧ t.meter.pending = kept) ∧
          (s.cart.lastSeq + 1 < r.seq → t.cart = { s.cart with rejects := s.cart.rejects + 1 } ∧ t.meter = s.meter))) ∧
    (∀ seating certOk : Bool,
      (seating = true ∨ s.cart.seated = true →
        (certOk = false → Completes (.cartridgeCheck seating certOk) s fun t => t.fld F.MET_STATUS_STATE = 4 ∧ t.mem = s.mem) ∧
        (certOk = true → s.cart.paired ≠ some s.selfId → Completes (.cartridgeCheck seating certOk) s fun t =>
          t.fld F.MET_STATUS_STATE = 3 ∧ t.mem = s.mem) ∧
        (certOk = true → s.cart.paired = some s.selfId → Completes (.cartridgeCheck seating certOk) s fun t =>
          t.meter.checked = true ∧ (seating = true → t.fld F.MET_STATUS_STATE = 1 ∧ t.cart.seated = true ∧ t.cart.powered = true))) ∧
      (seating = false → s.cart.seated = false → Completes (.cartridgeCheck seating certOk) s fun t => t.fld F.MET_STATUS_STATE = 0)) ∧
    ((s.fld F.MET_STATUS_STATE = 1 ∧ s.meter.startAt + 8 * second ≤ s.up) ∨
        (s.fld F.MET_STATUS_STATE = 2 ∧ ∃ r ∈ s.meter.pending, r.2 + 10 * second ≤ s.up) →
      Completes .cartridgeCheckTimeout s fun t => t.fld F.MET_STATUS_STATE = 4 ∧ t.cart = s.cart ∧ t.mem = s.mem) ∧
    (Completes .cartridgeRemoval s fun t =>
      t.fld F.MET_STATUS_STATE = 0 ∧ t.cart = { s.cart with seated := false, powered := false } ∧ t.mem = s.mem) ∧
    (∀ e : LogEntry,
      let newest := s.newestLog
      (newest < e.lseq → Completes (.logEntry e true true) s fun t =>
        t.flashA.ring = (e :: s.flashA.ring).take logSize ∧ t.flashB.ring = (e :: s.flashB.ring).take logSize ∧
        t.fld F.MET_LOG_PTR_NEWEST = e.lseq % 2 ^ 64 ∧ t.cart = s.cart ∧
        (newest ≠ 0 → newest + 1 < e.lseq →
          t.rd .MET_LOG_GAP = (counterUp (s.rd .MET_LOG_GAP) (e.lseq - newest - 1)).1 % 2 ^ 64) ∧
        (∀ d, e.payload = .event 0x06 d → t.flag F.MET_STATUS_TAMPER = true)) ∧
      (∀ okA okB, e.lseq ≤ newest → exec (.logEntry e okA okB) s = .next s)) ∧
    (∀ lseq : BitVec 64, Completes (.logCursorWrite lseq) s fun t =>
      t.rd .MET_LOG_CURSOR = lseq.toNat ∧ OnlyRegsQuiet [(.MET_LOG_CURSOR, 0), (.MET_LOG_WIN, 0)] s t ∧
      (∀ e, s.copies.find? (fun e => e.lseq == lseq.toNat) = some e → t.rd .MET_LOG_WIN = ofBytes e.bytes) ∧
      (s.copies.find? (fun e => e.lseq == lseq.toNat) = none → t.rd .MET_LOG_WIN = 0))

/-- R393 to R397, R405, R409 to R412: the cartridge. A bin adds to the open energies of the feeds and is credited to the accounts that
held its fields at its start; a period end adds the whole millijoules of the period to the feeds' registers, and what the accounts and UNASSIGNED gain is
exactly that. Calibration sets UNTRACED or clears it; an opening counts an event, at the next start when it happens without power; the
verification port answers while supplied; an UPDATE is activated only after its four checks, and counts one event, the previous image
staying when the new one does not start; one that fails a check changes nothing, and its answer names the check. -/
def Obligations.Cartridge : Prop :=
  ∀ s : State,
    (∀ b : BinIn, s.cart.seated = true → s.cart.powered = true → (Instr.binSample b).wf = true → Completes (.binSample b) s fun t =>
      let energy := fun (v a : Nat) => if a < 20 then 0 else v * min a 42000
      t.cart.ctime = s.cart.ctime + 1 ∧ t.cart.openA = s.cart.openA + energy b.voltsA.toNat b.ampsA.toNat ∧
      t.cart.openB = s.cart.openB + energy b.voltsB.toNat b.ampsB.toNat ∧ t.cart.feedA = s.cart.feedA ∧
      t.cart.unassigned = s.cart.unassigned ∧ t.cart.accounts = s.cart.accounts ∧
      (∃ x, t.cart.bins.head? = some x ∧ x.at_ = s.cart.ctime ∧ x.accounts = (List.range 56).map fun f => s.cart.holders.getD f 0) ∧
      t.cart.holders = (List.range 56).map s.cart.accountOf ∧
      { t with cart := s.cart } = s) ∧
    (s.cart.seated = true → s.cart.powered = true → s.cart.periodAt + 1000 ≤ s.cart.ctime →
      let c := s.cart.closePeriod
      c.unassigned + (c.accounts.map (·.energy)).sum =
        s.cart.unassigned + (s.cart.accounts.map (·.energy)).sum + (s.cart.openA / 1000 : Nat) + (s.cart.openB / 1000 : Nat) ∧
      Completes .periodEnd s fun t =>
        t.cart.feedA = s.cart.feedA + s.cart.openA / 1000 ∧ t.cart.feedB = s.cart.feedB + s.cart.openB / 1000 ∧
        t.cart.openA = s.cart.openA % 1000 ∧ t.cart.periodAt = s.cart.ctime ∧ t.cart.unassigned = c.unassigned ∧
        t.cart.accounts = c.accounts.filter (fun a => !c.settled a) ∧ t.mem = s.mem ∧
        (s.domains.cartPort.up = true → t.rd .MET_FEED_A = (s.cart.feedA + s.cart.openA / 1000) % 2 ^ 64)) ∧
    (∀ (mref : BitVec 24) (drift : BitVec 16), s.cart.seated = true → s.cart.powered = true → s.cart.calAt = none →
      Completes (.cartridgeCalibration mref drift) s fun t =>
        let ok := decide (2475000 ≤ mref.toNat ∧ mref.toNat ≤ 2525000 ∧ drift.toNat ≤ 200)
        t.cart.untraced = !ok ∧ t.cart.calAt = some s.cart.ctime ∧ t.cart.feedA = s.cart.feedA ∧
        ∃ e d, t.cart.log.head? = some e ∧ e.payload = .event 0x03 d) ∧
    (s.cart.powered = true → Completes .tamper s fun t =>
      t.cart.evtCnt = s.cart.evtCnt + 1 ∧ t.cart.accounts = s.cart.accounts ∧ ∃ e d, t.cart.log.head? = some e ∧ e.payload = .event 0x06 d) ∧
    (s.cart.powered = false → Completes .tamper s fun t => t = { s with cart := { s.cart with tamperOff := true } }) ∧
    (Completes .cartridgePowerLoss s fun t => t = { s with cart := { s.cart with powered := false } }) ∧
    (s.cart.powered = true →
      (∀ i r passed, (i, r) ∈ [(Instr.ident, VerReply.ident Config.cartSerial.toNat Config.cartCertificate s.cart.swid s.cart.version s.cart.secVer s.cart.evtCnt s.cart.paired),
          (.regs, .regs s.cart.feedA s.cart.feedB s.cart.unassigned.toNat s.cart.openSlices), (.unknownCommand, .unknown),
          (.selftest passed, .selftest ([s.cart.feedA, s.cart.feedB, s.cart.unassigned.toNat] ++ s.cart.openSlices.map (·.2)) passed)] →
        Completes i s fun t => t = s.emit (.verification r)) ∧
      (∀ lseq : BitVec 64, Completes (.log lseq) s fun t => ∃ l, t = s.emit (.verification (.log l)) ∧ l.length ≤ 64 ∧
        ∀ e ∈ l, e ∈ s.cart.log ∧ lseq.toNat ≤ e.lseq) ∧
      (∀ u : CartUpdate, s.cart.tamperOff = false → Completes (.update u) s fun t =>
        let image := edVerify (Config.enrolledKey 0) (Config.updateContext false) u.image u.signature
        let auth := edVerify (Config.enrolledKey (1 + u.verifier.val)) (Config.updateContext true)
          (Config.authorisation u.image u.counter.toNat) u.authorisation
        (image = true → auth = true → u.counter.toNat = s.cart.evtCnt + 1 → s.cart.secVer ≤ u.secVer.toNat →
          t.cart.evtCnt = s.cart.evtCnt + 1 ∧ t.cart.secVer = u.secVer.toNat ∧
          t.cart.swid = (if u.starts then swidOf u.image else s.cart.swid) ∧
          t.cart.feedA = s.cart.feedA ∧ t.cart.unassigned = s.cart.unassigned ∧ t.out.head? = some (.verification (.update .activated))) ∧
        (image = false → t = s.emit (.verification (.update .imageSignature))) ∧
        (image = true → auth = false → t = s.emit (.verification (.update .authorisation))) ∧
        (image = true → auth = true → u.counter.toNat ≠ s.cart.evtCnt + 1 → t = s.emit (.verification (.update .counter))) ∧
        (image = true → auth = true → u.counter.toNat = s.cart.evtCnt + 1 → u.secVer.toNat < s.cart.secVer →
          t = s.emit (.verification (.update .security)))))

/-! ## Firmware, chapter 18 -/

/-- R416, R424 to R428: firmware. BEGIN empties the inactive slot; WRITE puts a chunk of FWU_BUF into it; VERIFY gives the first check that
fails, or leads to PHASE 3 and shows the image's version in FWU_VERSION.OTHER; ACTIVATE of a verified image writes a TRIAL record that wins, and restarts the domains; CONFIRM, of a trial
whose start checks passed with AUTO = 1 or within TRIAL_S with AUTO = 0, writes a CONFIRMED record and burns the fuses up to the image's SEC_VER; ABORT returns to idle; a trial that is not confirmed in time falls back;
a boot runs the winning record's image, or enters recovery without one; attestation carries the nonce. -/
def Obligations.Firmware : Prop :=
  ∀ s : State,
    let n := s.updateSlot
    (∀ length : BitVec 40,
      (s.inTrial = true → Completes (.begin length) s fun t => t.fld F.FWU_CMD_RESULT = 2 ∧ t.flashA = s.flashA ∧ t.flashB = s.flashB) ∧
      (s.inTrial = false → 2 ^ 34 < length.toNat → Completes (.begin length) s fun t =>
        t.fld F.FWU_CMD_RESULT = 11 ∧ t.flashA = s.flashA ∧ t.flashB = s.flashB) ∧
      (s.inTrial = false → length.toNat ≤ 2 ^ 34 → Completes (.begin length) s fun t =>
        t.fld F.FWU_CMD_RESULT = 0 ∧ t.fld F.FWU_CMD_PHASE = 1 ∧ t.flashA = s.flashA.setSlot n (some (.written length.toNat [] [])) ∧
        t.flashB = s.flashB.setSlot n (some (.written length.toNat [] [])) ∧
        SameRegs [(.FWU_CMD, 0), (.FWU_IMG, 0), (.FWU_VERSION, 0)] s t)) ∧
    (∀ (off : BitVec 40) (len : BitVec 21) (okB : Bool),
      (∀ m, s.flashA.slot n = some m → s.phase ≠ 0 → 0 < len.toNat → len.toNat ≤ 1048576 → off.toNat + len.toNat ≤ m.length →
        Completes (.fwuWrite off len true okB) s fun t =>
          t.fld F.FWU_CMD_RESULT = 0 ∧ ∃ m', t.flashA.slot n = some m' ∧
            (∀ i, i < len.toNat → m'.byte (off.toNat + i) = (toBytes len.toNat (s.rd .FWU_BUF)).getD i 0) ∧
            (∀ i, i < off.toNat ∨ off.toNat + len.toNat ≤ i → m'.byte i = m.byte i)) ∧
      (∀ m, s.flashA.slot n = some m → s.phase ≠ 0 → len = 0 ∨ 1048576 < len.toNat ∨ m.length < off.toNat + len.toNat →
        ∀ okA, Completes (.fwuWrite off len okA okB) s fun t => t.fld F.FWU_CMD_RESULT = 3 ∧ t.flashA = s.flashA ∧ t.flashB = s.flashB)) ∧
    ((s.phase < 2 → Completes .verify s fun t => t.fld F.FWU_CMD_RESULT = 2 ∧ OnlyRegsQuiet [(.FWU_CMD, 0)] s t) ∧
      (∀ m, 2 ≤ s.phase → (s.slotCheck n).1 = 0 → s.validSlot n = some m → s.inRecovery = true ∨ s.linkVerBad m = false →
        Completes .verify s fun t => t.fld F.FWU_CMD_RESULT = 0 ∧ t.fld F.FWU_CMD_PHASE = 3 ∧
          (s.inRecovery = false → t.fld F.FWU_VERSION_OTHER = m.fwVersion % 2 ^ 32) ∧ OnlyRegsQuiet [(.FWU_CMD, 0), (.FWU_VERSION, 0)] s t) ∧
      (2 ≤ s.phase → (s.slotCheck n).1 ≠ 0 → Completes .verify s fun t =>
        t.fld F.FWU_CMD_RESULT = (s.slotCheck n).1 % 16 ∧ t.fld F.FWU_CMD_PHASE = 2 ∧ t.flashA = s.flashA)) ∧
    (∀ okA okB : Bool,
      (s.inRecovery = false → s.jobs ≠ [] → Completes (.activate okA okB) s fun t =>
        t.fld F.FWU_CMD_RESULT = 10 ∧ OnlyRegsQuiet [(.FWU_CMD, 0)] s t) ∧
      (s.inRecovery = false → s.jobs = [] → s.phase = 3 → (okA || okB) = true → Completes (.activate okA okB) s fun t =>
        t.winning = some ⟨n, 1 - n, 1, 0, ((s.winning.map (·.seq)).getD 0) + 1⟩ ∧ t.domains.booting = true ∧ t.domains.wafer = false ∧
        t.fuses = s.fuses) ∧
      (∀ library : Fin 3, let slot := s.fld F.FWU_STATUS_ACTIVE
        (s.mayConfirm = false → Completes (.confirm okA okB library) s fun t =>
          t.fld F.FWU_CMD_RESULT = 2 ∧ OnlyRegsQuiet [(.FWU_CMD, 0)] s t) ∧
        (s.inTrial = true → (s.flag F.FWU_CFG_AUTO = true → s.startChecks = true) →
          s.up < s.domains.trialAt + s.fld F.FWU_CFG_TRIAL_S * second → (okA || okB) = true → Completes (.confirm okA okB library) s fun t =>
          t.winning = some ⟨slot, 1 - slot, 0, 0, ((s.winning.map (·.seq)).getD 0) + 1⟩ ∧ s.fuses.version ≤ t.fuses.version ∧
          min 127 s.runningImage.secVer ≤ t.fuses.version ∧ t.fld F.FWU_STATUS_STATE = 0 ∧ t.fld F.FWU_STATUS_LAST = 1 ∧
          t.fld F.FWU_CMD_RESULT = 0)) ∧
      (∀ r, s.inTrial = true → s.domains.control = true → s.domains.trialAt + s.fld F.FWU_CFG_TRIAL_S * second ≤ s.up →
        s.winning = some r → (okA || okB) = true → Completes (.trialWatchdog okA okB) s fun t =>
          t.winning = some { r with active := r.prev, state := 0, attempts := 0, seq := r.seq + 1 } ∧ t.fld F.FWU_STATUS_LAST = 3 ∧
          t.domains.booting = true ∧ t.domains.wafer = false ∧ t.fuses = s.fuses)) ∧
    (s.inRecovery = false → Completes .abort s fun t =>
      t.fld F.FWU_CMD_RESULT = 0 ∧ t.fld F.FWU_CMD_PHASE = 0 ∧ OnlyRegsQuiet [(.FWU_CMD, 0)] s t) ∧
    (s.inRecovery = true → Completes .abort s fun t =>
      t.fld F.FWU_CMD_RESULT = 2 ∧ t.fld F.FWU_CMD_PHASE = s.phase ∧ OnlyRegsQuiet [(.FWU_CMD, 0)] s t) ∧
    (∀ okA okB : Bool, s.domains.control = true → s.domains.booting = true → s.domains.resetHeld = false →
      (s.winning = none → Completes (.boot okA okB) s fun t =>
        t.fld F.FWU_STATUS_STATE = 2 ∧ t.domains.booting = false ∧ t.flashA = s.flashA ∧ t.fuses = s.fuses) ∧
      (∀ r m k x, s.winning = some r → r.state = 0 → s.validSlot r.active = some m → s.settingsCopies = [(k, x)] →
        x.version = m.settingsVer → Completes (.boot okA okB) s fun t =>
          t.domains.booting = false ∧ t.fld F.FWU_STATUS_STATE = 0 ∧ t.fld F.FWU_STATUS_ACTIVE = r.active % 2 ∧
          t.fld F.FWU_VERSION_RUN = m.fwVersion ∧ t.domains.linkVer = m.linkVer ∧ s.fuses.version ≤ t.fuses.version ∧
          min 127 m.secVer ≤ t.fuses.version ∧ t.flashA = s.flashA)) ∧
    (∀ nonce : BitVec 256, s.inRecovery = false → Completes (.attest nonce) s fun t =>
      t.rd .FWU_ATT_NONCE = nonce.toNat ∧ bits (t.rd .FWU_ATT_WIN) 0 16 = 0x4556 ∧ bits (t.rd .FWU_ATT_WIN) 1280 256 = nonce.toNat ∧
      OnlyRegsQuiet [(.FWU_ATT_NONCE, 0), (.FWU_ATT_WIN, 0)] s t)

/-! ## The recorder, chapter 19 -/

/-- R437, R440 to R444: the recorder's commands. An open record closes one second after its TIME; the suppressed occurrences of an earlier
second are written as one record, marked, with their count; a cursor write takes a snapshot of eight records, and says of each whether
it is present, gone or ahead; EVR_CLEAR with its key empties the permanent area, and any other key is refused; a note is written with
the DATA of EVR_NOTE_DATA and is no privileged record, and over the limit of its second it is refused and counted. -/
def Obligations.RecorderCommands : Prop :=
  ∀ s : State,
    (∀ (seq : BitVec 64) (e : EvRec), e ∈ s.evr.circ → e.seq = seq.toNat → e.opened = true → e.code ≠ 0x1001 →
      second ≤ timeDiff s.now e.time → Completes (.recordClose seq) s fun t =>
        { e with opened := false } ∈ t.evr.circ ∧ t.evr.circ.length = s.evr.circ.length ∧
        (∀ x ∈ s.evr.circ, x.seq ≠ seq.toNat → x ∈ t.evr.circ) ∧ { t with evr := s.evr } = s) ∧
    (∀ u, s.evr.supp = [u] → u.second ≠ s.sec → Completes .suppressionRecord s fun t =>
      t.evr.supp = [] ∧ t.rd .EVR_SUPPR_CNT = (counterUp (s.rd .EVR_SUPPR_CNT) u.count).1 % 2 ^ 64 ∧ t.mem = s.mem ∧
      ∃ e ∈ t.evr.circ, e.suppressed = true ∧ e.code = u.code ∧ e.source = u.source ∧ e.loc = u.loc ∧ e.data = u.data ∧
        e.rep = min 65535 u.count ∧ e.seq = s.evr.next ∧ e.opened = false) ∧
    (∀ seq : BitVec 64, Completes (.cursorWrite seq) s fun t =>
      t.rd .EVR_CURSOR = seq.toNat ∧ t.evr = { s.evr with window := (List.range 8).map fun i => s.evr.lookup (seq.toNat + i) } ∧
      SameRegs [(.EVR_CURSOR, 0), (.EVR_WIN_INFO, 0)] s t ∧ t.mem = s.mem ∧
      ∀ i, i < 8 →
        bitOf (t.fld F.EVR_WIN_INFO_PRESENT) i = (s.evr.lookup (seq.toNat + i)).isSome ∧
        bitOf (t.fld F.EVR_WIN_INFO_GONE) i = ((s.evr.lookup (seq.toNat + i)).isNone && decide (seq.toNat + i < s.evr.next)) ∧
        bitOf (t.fld F.EVR_WIN_INFO_AHEAD) i = ((s.evr.lookup (seq.toNat + i)).isNone && decide (s.evr.next ≤ seq.toNat + i))) ∧
    (∀ key : BitVec 8,
      (key = 0x5A → Completes (.evrClear key) s fun t =>
        t.fld F.EVR_CLEAR_RESULT = 0 ∧ (∀ e ∈ t.evr.perm, s.evr.next ≤ e.seq) ∧ SameRegs [(.EVR_CLEAR, 0), (.EVR_AUDIT, 0)] s t) ∧
      (key ≠ 0x5A → Completes (.evrClear key) s fun t =>
        t.fld F.EVR_CLEAR_RESULT = 1 ∧ (∀ e ∈ s.evr.perm, ∃ x ∈ t.evr.perm, x.seq = e.seq) ∧
        SameRegs [(.EVR_CLEAR, 0), (.EVR_AUDIT, 0)] s t)) ∧
    (∀ code : BitVec 12,
      let count := if s.evr.noteSecond = s.sec then s.evr.notes else 0
      (count < s.evNoteLimit → s.evr.auditOk = true → Completes (.note code) s fun t =>
        t.fld F.EVR_NOTE_CMD_RESULT = 0 ∧ t.evr.next = s.evr.next + 1 ∧ t.evr.notes = count + 1 ∧ t.mem = s.mem ∧
        SameRegs [(.EVR_NOTE_CMD, 0)] s t ∧
        ∃ e, t.evr.circ.head? = some e ∧ e.source = 0x21 ∧ e.code = 0xF000 + code.toNat ∧ e.data = s.rd .EVR_NOTE_DATA ∧ e.note = true ∧
          e.perm = false ∧ e.seq = s.evr.next) ∧
      (s.evNoteLimit ≤ count → Completes (.note code) s fun t =>
        t.fld F.EVR_NOTE_CMD_RESULT = 1 ∧ t.rd .EVR_NOTE_REFUSED = (counterUp (s.rd .EVR_NOTE_REFUSED) 1).1 % 2 ^ 64 ∧
        SameRegs [(.EVR_NOTE_CMD, 0), (.EVR_NOTE_REFUSED, 0), (.EVR_AUDIT, 0)] s t))

/-! ## Set-up access, chapter 22 -/

/-- R6, R212, R274, R278, R485 to R495, R501: set-up access. A write sets the RW fields of its register; while the lock is set, an RWL field
keeps its value; a write that breaks the format changes no register. MGT_LOCK with its key sets the lock, and AUTOLOCK_S seconds after the
first tick the runtime does. A line read gives the line's bytes past ownership, and zeros for a line that cannot be read. A request over
Ethernet is dropped for its port or its tag, answered STALE for its number, and otherwise accepted and answered; one in an MGMT packet to
this module is dropped for its tag, and accepted with a new number; an MGMT packet to another module goes on toward it, or is dropped and
counted. I3C takes an address, serves transfers once it has one and NACKs a CCC that is not listed; ARP is answered for the module's own
addresses, and no other. -/
def Obligations.SetupAccess : Prop :=
  ∀ s : State,
    (s.served = true →
      (∀ (path : SetupPath) (bytes : List Byte), s.inRecovery = false →
        (bytes.length = 8 → Completes (.registerWrite path (BitVec.ofNat 26 (Reg.addr .EVR_NOTE_DATA 0)) bytes) s fun t =>
          t.rd .EVR_NOTE_DATA = ofBytes bytes ∧ OnlyRegsQuiet [(.EVR_NOTE_DATA, 0)] s t) ∧
        (bytes.length = 4 →
          (s.locked = false → Completes (.registerWrite path (BitVec.ofNat 26 (Reg.addr .MGT_CFG 0)) bytes) s fun t =>
            t.fld F.MGT_CFG_AUTOLOCK_S = ofBytes bytes % 65536 ∧ OnlyRegsQuiet [(.MGT_CFG, 0)] s t) ∧
          (s.locked = true → Completes (.registerWrite path (BitVec.ofNat 26 (Reg.addr .MGT_CFG 0)) bytes) s fun t =>
            t.rd .MGT_CFG = s.rd .MGT_CFG ∧ SameRegs [(.EVR_AUDIT, 0)] s t ∧ t.mem = s.mem))) ∧
      (∀ path (offset : BitVec 26) (bytes : List Byte), rangeUnits offset.toNat bytes.length = none →
        Completes (.registerWrite path offset bytes) s fun t =>
          SameRegs [(.EVR_AUDIT, 0)] s t ∧ { t with regs := s.regs, evr := s.evr } = s) ∧
      (∀ (x : IpAddr) (port : BitVec 16) (d : List Byte),
        let body := d.take (d.length - 16)
        let h := body.take 32
        let good := 48 ≤ d.length ∧ d.drop (d.length - 16) = s.tagOf body
        (port.toNat ≠ s.fld F.MGT_NET_PORT → Completes (.setupRequest x port d) s fun t =>
          t.rd .MGT_DROP = (counterUp (s.rd .MGT_DROP) 1).1 % 2 ^ 64 ∧ t.out = s.out ∧ t.access = s.access) ∧
        (port.toNat = s.fld F.MGT_NET_PORT →
          (¬good → Completes (.setupRequest x port d) s fun t =>
            t.rd .MGT_BADTAG = (counterUp (s.rd .MGT_BADTAG) 1).1 % 2 ^ 64 ∧ t.out = s.out ∧ t.access = s.access) ∧
          (good → leAt h 16 8 ≤ s.access.lastOf x → Completes (.setupRequest x port d) s fun t =>
            t.rd .MGT_STALE = (counterUp (s.rd .MGT_STALE) 1).1 % 2 ^ 64 ∧ t.access = s.access ∧
            ∃ r, t.out = .response x r :: s.out ∧ r.getD 3 0 = 1) ∧
          (good → s.access.lastOf x < leAt h 16 8 → leAt h 2 1 = 1 → headerBad h (d.length - 48) = false →
            Completes (.setupRequest x port d) s fun t =>
              t.access.lastOf x = leAt h 16 8 ∧ SameRegs [(.MGT_STATUS, 0)] s t ∧ t.mem = s.mem ∧
              ∃ r, t.out = .response x r :: s.out ∧ r.take 3 = h.take 3))) ∧
      (∀ addr : IpAddr,
        let mine := match addr with
          | .v4 a => s.flag F.MGT_NET_V4_EN = true ∧ s.fld F.MGT_NET_IPV4 = a.toNat
          | .v6 a => a.toNat = linkLocal Config.managementMac ∨ (s.flag F.MGT_NET_V6_EN = true ∧ s.fld F.MGT_NET_IPV6 = a.toNat)
        (mine → Completes (.mgmtArp addr) s fun t =>
          t.flag F.MGT_STATUS_ETH_UP = true ∧ t.out = .neighbour 2 addr :: s.out ∧ SameRegs [(.MGT_STATUS, 0)] s t) ∧
        (¬mine → exec (.mgmtArp addr) s = .next s)) ∧
      (Completes (.i3cCcc .rstdaa) s fun t =>
        t.fld F.MGT_STATUS_I3C_DA = 0 ∧ t.out = .i3c true [] :: s.out ∧ SameRegs [(.MGT_STATUS, 0)] s t) ∧
      (∀ x, Completes (.i3cCcc (.other x)) s fun t => t = s.emit (.i3c false [])) ∧
      (s.fld F.MGT_STATUS_I3C_DA = 0 → ∀ a : BitVec 7,
        (∀ c ∈ [I3cCcc.entdaa a, .setdasa 0x2C a], Completes (.i3cCcc c) s fun t =>
          t.fld F.MGT_STATUS_I3C_DA = a.toNat ∧ t.out = .i3c true [] :: s.out ∧ SameRegs [(.MGT_STATUS, 0)] s t) ∧
        (∀ x, Completes (.i3cPrivateTransfer x) s fun t => t = s.emit (.i3c false []))) ∧
      (s.fld F.MGT_STATUS_I3C_DA ≠ 0 →
        (∀ bs : List Byte, bs.length = 6 → Completes (.i3cPrivateTransfer (.write bs)) s fun t =>
          t.access = { s.access with header := some (leAt bs 0 4, leAt bs 4 2), reply := none } ∧ t.out = .i3c true [] :: s.out ∧
          t.regs = s.regs) ∧
        (∀ off len, s.access.header = some (off, len) → Completes (.i3cPrivateTransfer .read) s fun t =>
          t.access = { s.access with header := none } ∧ t.regs = s.regs ∧
          t.out = .i3c true (BitVec.ofNat 8 (s.setupRead .i3c off len).1 :: (s.setupRead .i3c off len).2) :: s.out))) ∧
    (∀ key : BitVec 8,
      (key = 0x4C → Completes (.setupLock key) s fun t => t.locked = true ∧ OnlyRegsQuiet [(.MGT_STATUS, 0)] s t) ∧
      (key ≠ 0x4C → Completes (.setupLock key) s fun t => t.locked = s.locked ∧ SameRegs [(.EVR_AUDIT, 0)] s t)) ∧
    (s.booted = true → s.domains.mission = true → s.fld F.MGT_CFG_AUTOLOCK_S ≠ 0 →
      s.domains.missionAt + s.fld F.MGT_CFG_AUTOLOCK_S * second ≤ s.up → Completes .autolock s fun t =>
        t.locked = true ∧ OnlyRegsQuiet [(.MGT_STATUS, 0)] s t) ∧
    (∀ line : BitVec 44,
      let o := line.toNat * 64
      (s.domains.wafer = true → placeOf o = .job → CleanLines s o 1 → Completes (.lineRead line) s fun t =>
        t.fld F.MGT_LINE_CMD_RESULT = 0 ∧ t.rd .MGT_LINE_DATA = ofBytes (s.mem.bytes o 64) ∧ t.mem = s.mem ∧
        SameRegs [(.MGT_LINE_ADDR, 0), (.MGT_LINE_CMD, 0), (.MGT_LINE_DATA, 0)] s t) ∧
      (s.domains.wafer = false ∨ placeOf o = .hole → Completes (.lineRead line) s fun t =>
        t.fld F.MGT_LINE_CMD_RESULT = 3 ∧ t.rd .MGT_LINE_DATA = 0 ∧ t.mem = s.mem)) ∧
    (∀ (via : Via) (p : Packet) (b : MgmtBody) (stamp : Option (BitVec 16)),
      let m := p.addr.toNat / 2 ^ 50
      let shut := match via with
        | .link n => s.mgmtOnly n
        | .mesh => false
      (m ≠ s.selfId → s.mgmtLink m = none ∨ shut = true → Completes (.mgmt via p ⟨b, stamp⟩) s fun t =>
        t.rd .RTE_TRANSIT_DROP = (counterUp (s.rd .RTE_TRANSIT_DROP) 1).1 % 2 ^ 64 ∧ t.mem = s.mem) ∧
      (∀ n, m ≠ s.selfId → s.mgmtLink m = some n → shut = false → Completes (.mgmt via p ⟨b, stamp⟩) s fun t =>
        t = s.sendLink n p (stamp.map (·.toNat))) ∧
      (p.addr.toNat / 2 ^ 50 = s.selfId → s.booted = true → b = .request →
        let h := slice p.data 0 32
        let k := if leAt h 2 1 = 2 then leAt h 8 2 else 0
        (slice p.data (32 + k) 16 ≠ s.tagOf (h ++ slice p.data 32 k) → Completes (.mgmt via p ⟨b, stamp⟩) s fun t =>
          t.rd .MGT_BADTAG = (counterUp (s.rd .MGT_BADTAG) 1).1 % 2 ^ 64 ∧ t.access = s.access ∧ t.out = s.out) ∧
        (slice p.data (32 + k) 16 = s.tagOf (h ++ slice p.data 32 k) → mapGet (fun _ => 0) s.access.senders p.src.toNat < leAt h 16 8 →
          leAt h 2 1 = 1 → Completes (.mgmt via p ⟨b, stamp⟩) s fun t =>
            mapGet (fun _ => 0) t.access.senders p.src.toNat = leAt h 16 8 ∧ t.mem = s.mem)))

/-! ## Completion of single commands -/

/-- R86 to R93, R113: MMA ZERO writes the product of its operands over its tile, and MMA ACC, on a tile that reads without an error, the sum of
the tile and the product, whatever the comparator finds in it; the count of MMAs is one up and the sequencer moves on. -/
def Clause.MmaRuns : Prop :=
  ∀ (a : CoreAt) (op : MmaOp) (s : State), StepReads a s →
    let k := s.core a.field a.core
    let p := mmaProduct a op s
    let runs := fun (new : List F32) (t : State) =>
      let l := t.core a.field a.core
      l.tile op.tile = new ∧ (∀ x : Fin 64, x ≠ op.tile → l.tile x = k.tile x) ∧ l.mmas = k.mmas + 1 ∧ l.pc = k.advance.pc ∧
      l.opnd = k.opnd ∧ l.ptrs = k.ptrs ∧ SameCoresBut a s t ∧ t.mem = s.mem
    ((Instr.mmaZero a op).wf = true → Completes (.mmaZero a op) s (runs p)) ∧
    ((Instr.mmaAcc a op).wf = true → k.tileErrors op.tile = (0, false) →
      Completes (.mmaAcc a op) s (runs (tileZip f32Add (k.tile op.tile) p)))

/-- R241, R259, R261: the deck counts as detached when its ticks stay away, and realigns in 16 ticks when they return; a settled axis outside its
window for 4 ticks is lost; a condition of Table 10.4 that is met is a fault, counted; a supply back in range for 1,024 ticks clears its fault, and
CLEAR one of code 0x1 or 0x5 at a resting axis. -/
def Clause.ServoRuns : Prop :=
  ∀ (a : Fin 1920) (s : State),
    (Completes .detached s fun t => t.flag F.DCK_STATUS_DETACHED = true ∧ t.deck = s.deck ∧ t.mem = s.mem) ∧
    (s.flag F.DCK_STATUS_DETACHED = true → s.deck.realign = 0 → Completes .ticksReturn s fun t =>
      t = { s with deck := { s.deck with realign := 16 } }) ∧
    (∀ o, s.pathOfAxis a = some o → s.axisState a = axisSettled → 4 ≤ (s.axis a).away → Completes (.axisLost a) s fun t =>
      t.axisState a = axisLost ∧ t.rd .SRV_LOST_CNT = (counterUp (s.rd .SRV_LOST_CNT) 1).1 % 2 ^ 64 ∧ t.mem = s.mem) ∧
    (∀ code : Fin 8, s.servoCondition a code = true → Completes (.servoFault a code) s fun t =>
      t.flag F.DCK_STATUS_SERVO_FAULT = true ∧ t.rd .SRV_FAULT_CNT = (counterUp (s.rd .SRV_FAULT_CNT) 1).1 % 2 ^ 64 ∧ t.mem = s.mem) ∧
    (s.fld F.SRV_STATUS_SUPPLY = 2 → 1024 ≤ s.deck.supplyGood → Completes .supplyRecovered s fun t =>
      t.fld F.SRV_STATUS_SUPPLY = 0 ∧ t.deck = s.deck ∧ t.mem = s.mem) ∧
    ((s.fld F.SRV_AXIS_FAULT a = 1 ∨ s.fld F.SRV_AXIS_FAULT a = 5) → (s.axis a).rests = true → Completes (.axisClear a) s fun t =>
      t.fld F.SRV_AXIS_FAULT a = 0 ∧ t.axisState a = axisResting ∧ t.mem = s.mem)

/-- R271, R285, R290: a commit of an entry in use is armed for a tick that has not passed; it takes effect at a tick once its own has come, with the
epoch one up; and a switch from a departing module that cannot be read stops the job with cause MODULE_LOST. -/
def Clause.CommitRuns : Prop :=
  ∀ (e : Fin 64) (s : State), s.flag F.RTE_SLICE_ACTIVE e = true →
    (∀ tick : BitVec 64, s.passed tick.toNat = false → Completes (.commitArm e tick) s fun t =>
      t.rd .RTE_SLICE_COMMIT e = tick.toNat ∧ t.fld F.RTE_SLICE_CRESULT e = 0 ∧ t.flag F.RTE_SLICE_ARMED e = true ∧ t.mem = s.mem) ∧
    (s.atTick = true → s.flag F.RTE_SLICE_ARMED e = true → s.passed (s.rd .RTE_SLICE_COMMIT e) = true →
      mapGet (fun _ => 0) s.epochTick e.val ≠ s.ticks + 1 → Completes (.commitTakesEffect e) s fun t =>
        t.flag F.RTE_SLICE_ARMED e = false ∧ t.fld F.RTE_SLICE_EPOCH e = (s.fld F.RTE_SLICE_EPOCH e + 1) % 65536 ∧ t.mem = s.mem) ∧
    (∀ (departing : BitVec 14) j, s.jobs.find? (fun j => j.slice == s.fld F.RTE_SLICE_SLICE_ID e) = some j → j.stopping = none →
      Completes (.spareSwitch e departing .lost) s fun t =>
        { j with stopping := some ⟨stFault, 0x48, departing.toNat, some (s.jobFrame j), none⟩ } ∈ t.jobs ∧ t.regs = s.regs)

/-- R485 to R495: while set-up access is served, a register write, a request with a good tag and a new number over Ethernet or in an MGMT packet, an
ARP for an own address, and an I3C address assignment and header are taken; the lock is set by its key, and by the runtime when AUTOLOCK_S has
passed; a line read of a line in use gives its bytes. -/
def Clause.AccessRuns : Prop :=
  ∀ s : State,
    (s.served = true →
      (∀ (path : SetupPath) (bytes : List Byte), s.inRecovery = false → bytes.length = 8 →
        Completes (.registerWrite path (BitVec.ofNat 26 (Reg.addr .EVR_NOTE_DATA 0)) bytes) s fun t =>
          t.rd .EVR_NOTE_DATA = ofBytes bytes ∧ OnlyRegsQuiet [(.EVR_NOTE_DATA, 0)] s t) ∧
      (∀ (x : IpAddr) (port : BitVec 16) (d : List Byte),
        let body := d.take (d.length - 16)
        let h := body.take 32
        port.toNat = s.fld F.MGT_NET_PORT → 48 ≤ d.length → d.drop (d.length - 16) = s.tagOf body → s.access.lastOf x < leAt h 16 8 →
          leAt h 2 1 = 1 → headerBad h (d.length - 48) = false → Completes (.setupRequest x port d) s fun t =>
            t.access.lastOf x = leAt h 16 8 ∧ t.mem = s.mem ∧ ∃ r, t.out = .response x r :: s.out) ∧
      (∀ addr : BitVec 32, s.flag F.MGT_NET_V4_EN = true → s.fld F.MGT_NET_IPV4 = addr.toNat → Completes (.mgmtArp (.v4 addr)) s fun t =>
        t.out = .neighbour 2 (.v4 addr) :: s.out ∧ t.mem = s.mem) ∧
      (∀ a : BitVec 7, s.fld F.MGT_STATUS_I3C_DA = 0 → Completes (.i3cCcc (.entdaa a)) s fun t =>
        t.fld F.MGT_STATUS_I3C_DA = a.toNat ∧ t.out = .i3c true [] :: s.out ∧ t.mem = s.mem) ∧
      (∀ bs : List Byte, s.fld F.MGT_STATUS_I3C_DA ≠ 0 → bs.length = 6 → Completes (.i3cPrivateTransfer (.write bs)) s fun t =>
        t.access.header = some (leAt bs 0 4, leAt bs 4 2) ∧ t.out = .i3c true [] :: s.out ∧ t.regs = s.regs)) ∧
    (Completes (.setupLock 0x4C) s fun t => t.locked = true ∧ t.mem = s.mem) ∧
    (s.booted = true → s.domains.mission = true → s.fld F.MGT_CFG_AUTOLOCK_S ≠ 0 →
      s.domains.missionAt + s.fld F.MGT_CFG_AUTOLOCK_S * second ≤ s.up → Completes .autolock s fun t => t.locked = true ∧ t.mem = s.mem) ∧
    (∀ line : BitVec 44, s.domains.wafer = true → placeOf (line.toNat * 64) = .job → CleanLines s (line.toNat * 64) 1 →
      Completes (.lineRead line) s fun t =>
        t.fld F.MGT_LINE_CMD_RESULT = 0 ∧ t.rd .MGT_LINE_DATA = ofBytes (s.mem.bytes (line.toNat * 64) 64) ∧ t.mem = s.mem) ∧
    (∀ (via : Via) (p : Packet), s.booted = true → p.addr.toNat / 2 ^ 50 = s.selfId →
      let h := slice p.data 0 32
      slice p.data 32 16 = s.tagOf h → mapGet (fun _ => 0) s.access.senders p.src.toNat < leAt h 16 8 → leAt h 2 1 = 1 →
        Completes (.mgmt via p ⟨.request, none⟩) s fun t =>
          mapGet (fun _ => 0) t.access.senders p.src.toNat = leAt h 16 8 ∧ t.mem = s.mem)

/-- The MMA steps, the deck's servo, commits and set-up access run to a next state with the effect of their own. -/
def Obligations.CommandsComplete : Prop := Clause.MmaRuns ∧ Clause.ServoRuns ∧ Clause.CommitRuns ∧ Clause.AccessRuns

/-! ## Rules over the whole module -/

/-- R384, R389: the last-good trim of a DAC is its trim in the newest valid fuse slot, that of the highest sequence number, and its factory
baseline when no slot is valid; trims that wait, runs in progress and slots burned since the power-up do not count for it. Of two valid slots
of one number the later one counts (log entry 120: the model's choice). -/
def Obligations.LastGoodTrim : Prop :=
  ∀ (c : Cal) (i : Nat),
    ((∀ x ∈ c.slots.take c.old, x.valid = false) → c.lastGood i = (Config.trimBaseline i).toNat) ∧
    (∀ older newest later, c.slots.take c.old = older ++ newest :: later → newest.valid = true →
      (∀ x ∈ older, x.valid = true → x.seq ≤ newest.seq) → (∀ x ∈ later, x.valid = true → x.seq < newest.seq) →
      c.lastGood i = mapGet (fun _ => 0) newest.trims i) ∧
    (∀ d : Cal, d.slots = c.slots → d.old = c.old → d.lastGood i = c.lastGood i) ∧
    (∀ (d : Cal) burned, c.old ≤ c.slots.length → d.slots = c.slots ++ burned → d.old = c.old → d.lastGood i = c.lastGood i)

/-- R418: the fused version is the highest step whose pair reads 1, and 0 when none does; a pair reads 1 when either fuse is burned; burning
to v burns both fuses of every pair from 1 to v that is not burned, in ascending order, and changes nothing when all are; and no
command of the table lowers the version. -/
def Obligations.FusedVersion : Prop :=
  (∀ (f : Fuses) (k : Nat), f.pair k = true ↔ k ∈ f.left ∨ k ∈ f.right) ∧
  (∀ (f : Fuses) (k : Nat), f.pair k = true → k ≤ f.version) ∧
  (∀ f : Fuses, (f.version = 0 ∧ ∀ k, f.pair k = true → k = 0) ∨ f.pair f.version = true) ∧
  (∀ (f : Fuses) (v : Nat), v ≤ 127 →
    let missing := (rangeFrom 1 v).filter fun k => !f.pair k
    (f.burnTo v).left = f.left ++ missing ∧ (f.burnTo v).right = f.right ++ missing ∧ (missing = [] → f.burnTo v = f) ∧
    f.version ≤ (f.burnTo v).version) ∧
  (∀ (i : Instr) (s t : State), exec i s = .next t → s.fuses.version ≤ t.fuses.version)

/-- Every command that completes leaves the queue of waiting commands as it was. -/
def Obligations.ExecKeepsQueue : Prop :=
  ∀ (i : Instr) (s t : State), exec i s = .next t → t.pending = s.pending

/-- From every state whose register map is in canonical form, a step gives one whose register map is. -/
def Obligations.StepKeepsRegs : Prop :=
  ∀ s t : State, RegsCanonical s → step s = .next t → RegsCanonical t

/-- From every state whose memory and saved contexts are in canonical form, a step gives one whose memory and saved contexts are. -/
def Obligations.StepKeepsMemory : Prop :=
  ∀ s t : State, MemCanonical s → step s = .next t → MemCanonical t

/-- Reset meets both invariants, and its queue is empty, so that its step idles (log entries 1 and 2: the model's choices). -/
def Obligations.ResetInvariants : Prop :=
  RegsCanonical State.reset ∧ MemCanonical State.reset ∧ State.reset.pending = [] ∧
  ∀ s : State, s.pending = [] → step s = .next s

/-- After reset every register reads as its reset value; no core runs, no job exists, no record is held and nothing has left the module
(log entry 1 says which of these values are the model's choice). -/
def Obligations.ResetValues : Prop :=
  (∀ (r : Reg) (i : Nat), i < 65536 → State.reset.rd r i = r.resetVal i) ∧
  State.reset.jobs = [] ∧ State.reset.evr.circ = [] ∧ State.reset.evr.perm = [] ∧ State.reset.evr.next = 0 ∧ State.reset.out = [] ∧
  (∀ f c, (State.reset.core f c).running = false) ∧ (∀ n, State.reset.slot n = Slot.init) ∧ State.reset.fuses.version = 0 ∧
  State.reset.fld F.PWR_BUDGET_WATTS = 18000 ∧ State.reset.fld F.INT_BUDGET_LIMIT = 10000000 ∧ State.reset.fld F.JOB_CFG_LINGER_S = 600
end

