-- ==== Sys2Proof/Laws/Bits.lean ====
section
/-!
SUPPORT. Sys2Proof/Laws/Bits.lean: a bit field reads what was set in it, and setting it leaves fields beside it alone.
-/
namespace Sys2Proof.Machine

theorem bits_lt (x lo w : Nat) : bits x lo w < 2 ^ w := Nat.mod_lt _ (by positivity)

theorem bits_zero (lo w : Nat) : bits 0 lo w = 0 := by simp [bits]

/-- A field reads what was set in it, cut to its width. -/
@[simp] theorem bits_setBits_self (x lo w v : Nat) : bits (setBits x lo w v) lo w = v % 2 ^ w := by
  unfold bits setBits
  have h1 : x % 2 ^ lo < 2 ^ lo := Nat.mod_lt _ (by positivity)
  have h2 : (x / 2 ^ (lo + w) * 2 ^ (lo + w) + v % 2 ^ w * 2 ^ lo + x % 2 ^ lo) / 2 ^ lo = x / 2 ^ (lo + w) * 2 ^ w + v % 2 ^ w := by
    have : x / 2 ^ (lo + w) * 2 ^ (lo + w) + v % 2 ^ w * 2 ^ lo + x % 2 ^ lo =
        x % 2 ^ lo + 2 ^ lo * (x / 2 ^ (lo + w) * 2 ^ w + v % 2 ^ w) := by rw [pow_add]; ring
    rw [this, Nat.add_mul_div_left _ _ (by positivity), Nat.div_eq_of_lt h1, Nat.zero_add]
  rw [h2, Nat.mul_comm, Nat.mul_add_mod]
  exact Nat.mod_mod _ _

/-- A field below the one set reads as before. -/
theorem bits_setBits_below (x lo w v l u : Nat) (h : l + u ≤ lo) : bits (setBits x lo w v) l u = bits x l u := by
  unfold bits setBits
  obtain ⟨c, rfl⟩ := Nat.exists_eq_add_of_le h
  have e : x / 2 ^ (l + u + c + w) * 2 ^ (l + u + c + w) + v % 2 ^ w * 2 ^ (l + u + c) + x % 2 ^ (l + u + c) =
      x % 2 ^ (l + u + c) + 2 ^ l * (2 ^ u * (x / 2 ^ (l + u + c + w) * 2 ^ (c + w) + v % 2 ^ w * 2 ^ c)) := by
    simp only [pow_add]; ring
  rw [e, Nat.add_mul_div_left _ _ (by positivity), Nat.add_mul_mod_self_left]
  rw [show 2 ^ (l + u + c) = 2 ^ l * 2 ^ (u + c) by rw [← pow_add]; ring_nf, Nat.mod_mul_right_div_self]
  exact Nat.mod_mod_of_dvd _ (pow_dvd_pow 2 (Nat.le_add_right u c))

/-- A field above the one set reads as before. -/
theorem bits_setBits_above (x lo w v l u : Nat) (h : lo + w ≤ l) : bits (setBits x lo w v) l u = bits x l u := by
  unfold bits setBits
  obtain ⟨c, rfl⟩ := Nat.exists_eq_add_of_le h
  have h1 : v % 2 ^ w * 2 ^ lo + x % 2 ^ lo < 2 ^ (lo + w) := by
    have a : v % 2 ^ w + 1 ≤ 2 ^ w := Nat.mod_lt _ (by positivity)
    have b : x % 2 ^ lo < 2 ^ lo := Nat.mod_lt _ (by positivity)
    calc v % 2 ^ w * 2 ^ lo + x % 2 ^ lo < (v % 2 ^ w + 1) * 2 ^ lo := by rw [Nat.add_mul]; omega
      _ ≤ 2 ^ w * 2 ^ lo := Nat.mul_le_mul_right _ a
      _ = 2 ^ (lo + w) := by rw [pow_add]; ring
  congr 1
  rw [pow_add 2 (lo + w) c, ← Nat.div_div_eq_div_mul, ← Nat.div_div_eq_div_mul, Nat.add_assoc,
    Nat.mul_comm (x / 2 ^ (lo + w)), Nat.mul_add_div (by positivity), Nat.div_eq_of_lt h1, Nat.add_zero]

/-- A field beside the one set reads as before. -/
theorem bits_setBits_beside (x lo w v l u : Nat) (h : l + u ≤ lo ∨ lo + w ≤ l) : bits (setBits x lo w v) l u = bits x l u :=
  h.elim (bits_setBits_below x lo w v l u) (bits_setBits_above x lo w v l u)

/-- A number with a field set stays within a width that holds both. -/
theorem setBits_lt {x lo w v n : Nat} (hx : x < 2 ^ n) (hn : lo + w ≤ n) : setBits x lo w v < 2 ^ n := by
  unfold setBits
  obtain ⟨c, rfl⟩ := Nat.exists_eq_add_of_le hn
  have h1 : v % 2 ^ w * 2 ^ lo + x % 2 ^ lo < 2 ^ (lo + w) := by
    have a : v % 2 ^ w + 1 ≤ 2 ^ w := Nat.mod_lt _ (by positivity)
    have b : x % 2 ^ lo < 2 ^ lo := Nat.mod_lt _ (by positivity)
    calc v % 2 ^ w * 2 ^ lo + x % 2 ^ lo < (v % 2 ^ w + 1) * 2 ^ lo := by rw [Nat.add_mul]; omega
      _ ≤ 2 ^ w * 2 ^ lo := Nat.mul_le_mul_right _ a
      _ = 2 ^ (lo + w) := by rw [pow_add]; ring
  have h2 : x / 2 ^ (lo + w) + 1 ≤ 2 ^ c := by
    have : x / 2 ^ (lo + w) < 2 ^ c := Nat.div_lt_of_lt_mul (by rwa [← pow_add])
    omega
  calc x / 2 ^ (lo + w) * 2 ^ (lo + w) + v % 2 ^ w * 2 ^ lo + x % 2 ^ lo
      < (x / 2 ^ (lo + w) + 1) * 2 ^ (lo + w) := by rw [Nat.add_mul]; omega
    _ ≤ 2 ^ c * 2 ^ (lo + w) := Nat.mul_le_mul_right _ h2
    _ = 2 ^ (lo + w + c) := by rw [pow_add 2 (lo + w) c]; ring

end Sys2Proof.Machine
end

