-- ==== Sys2Proof/Laws/Map.lean ====
section
/-!
SUPPORT. Sys2Proof/Laws/Map.lean: reading after writing in the sparse maps of Machine/Map.lean, and that every operation keeps
their canonical form.
-/
namespace Sys2Proof.Machine

variable {α : Type}

/-! ## Reading after writing -/

theorem mapGet_mapIns_self (d : Nat → α) (k : Nat) (v : α) (m : List (Nat × α)) : mapGet d (mapIns k v m) k = v := by
  induction m with
  | nil => simp [mapIns, mapGet]
  | cons e m ih =>
    obtain ⟨k', v'⟩ := e
    simp only [mapIns]
    split
    · simp [mapGet]
    · split
      · simp [mapGet]
      · next h => simp [mapGet, h, ih]

theorem mapGet_mapIns_ne (d : Nat → α) {k j : Nat} (h : j ≠ k) (v : α) (m : List (Nat × α)) :
    mapGet d (mapIns k v m) j = mapGet d m j := by
  induction m with
  | nil => simp [mapIns, mapGet, h]
  | cons e m ih =>
    obtain ⟨k', v'⟩ := e
    simp only [mapIns]
    split
    · simp [mapGet, h]
    · split
      · next hk => subst hk; simp [mapGet, h]
      · simp [mapGet, ih]

theorem mapGet_filter_keep (d : Nat → α) (p : Nat × α → Bool) (k : Nat) (m : List (Nat × α))
    (h : ∀ v, p (k, v) = true) : mapGet d (m.filter p) k = mapGet d m k := by
  induction m with
  | nil => rfl
  | cons e m ih =>
    obtain ⟨k', v'⟩ := e
    by_cases hk : k = k'
    · subst hk; simp [h, mapGet]
    · by_cases hp : p (k', v') = true
      · simp [hp, mapGet, hk, ih]
      · simp [hp, mapGet, hk, ih]

theorem mapGet_filter_drop (d : Nat → α) (p : Nat × α → Bool) (k : Nat) (m : List (Nat × α))
    (h : ∀ v, p (k, v) = false) : mapGet d (m.filter p) k = d k := by
  induction m with
  | nil => rfl
  | cons e m ih =>
    obtain ⟨k', v'⟩ := e
    by_cases hp : p (k', v') = true
    · have hk : k ≠ k' := fun hk => by subst hk; simp [h] at hp
      simp [hp, mapGet, hk, ih]
    · simp [hp, ih]

theorem mapGet_mapDel_self (d : Nat → α) (k : Nat) (m : List (Nat × α)) : mapGet d (mapDel k m) k = d k :=
  mapGet_filter_drop d _ k m (by simp)

theorem mapGet_mapDel_ne (d : Nat → α) {k j : Nat} (h : j ≠ k) (m : List (Nat × α)) :
    mapGet d (mapDel k m) j = mapGet d m j :=
  mapGet_filter_keep d _ j m (by simp [h])

/-- A read depends only on what its own key reads as unlisted. -/
theorem mapGet_congr {d e : Nat → α} {k : Nat} (h : d k = e k) (m : List (Nat × α)) : mapGet d m k = mapGet e m k := by
  induction m with
  | nil => exact h
  | cons x m ih => obtain ⟨k', v'⟩ := x; simp only [mapGet, ih]

variable [DecidableEq α]

@[simp] theorem mapGet_mapSet_self (d : Nat → α) (k : Nat) (v : α) (m : List (Nat × α)) : mapGet d (mapSet d k v m) k = v := by
  unfold mapSet
  split
  · next h => rw [mapGet_mapDel_self, h]
  · exact mapGet_mapIns_self d k v m

theorem mapGet_mapSet_ne (d : Nat → α) {k j : Nat} (h : j ≠ k) (v : α) (m : List (Nat × α)) :
    mapGet d (mapSet d k v m) j = mapGet d m j := by
  unfold mapSet
  split
  · exact mapGet_mapDel_ne d h m
  · exact mapGet_mapIns_ne d h v m

theorem mapGet_mapSet (d : Nat → α) (k j : Nat) (v : α) (m : List (Nat × α)) :
    mapGet d (mapSet d k v m) j = if j = k then v else mapGet d m j := by
  split
  · next h => subst h; exact mapGet_mapSet_self d j v m
  · next h => exact mapGet_mapSet_ne d h v m

omit [DecidableEq α] in
theorem mapGet_mapDelRange (d : Nat → α) (lo hi k : Nat) (m : List (Nat × α)) :
    mapGet d (mapDelRange lo hi m) k = if lo ≤ k ∧ k < hi then d k else mapGet d m k := by
  unfold mapDelRange
  split
  · next h => exact mapGet_filter_drop d _ k m (by simp [h])
  · next h =>
    refine mapGet_filter_keep d _ k m fun v => ?_
    simp only [Bool.not_eq_true', Bool.and_eq_false_iff, decide_eq_false_iff_not]
    by_cases h1 : lo ≤ k
    · exact .inr fun h2 => h ⟨h1, h2⟩
    · exact .inl h1

/-- Consecutive keys set: the i-th of them reads the i-th value, and every other key is as before. -/
theorem mapGet_mapSetList (d : Nat → α) (k j : Nat) (vs : List α) (m : List (Nat × α)) :
    mapGet d (mapSetList d k vs m) j = if k ≤ j then (match vs[j - k]? with | some v => v | none => mapGet d m j) else mapGet d m j := by
  induction vs generalizing k m with
  | nil => simp [mapSetList]
  | cons v vs ih =>
    rw [mapSetList, ih]
    by_cases h : k ≤ j
    · by_cases hk : j = k
      · subst hk
        simp
      · have h1 : k + 1 ≤ j := by omega
        have h2 : j - k = (j - (k + 1)) + 1 := by omega
        simp [h, h1, h2, mapGet_mapSet_ne d hk]
    · have hk : j ≠ k := by omega
      have h1 : ¬k + 1 ≤ j := by omega
      simp [h, h1, mapGet_mapSet_ne d hk]

/-! ## The canonical form -/

omit [DecidableEq α] in
theorem mapRising_mono {b c : Nat} (h : b ≤ c) (m : List (Nat × α)) (hm : mapRising c m = true) : mapRising b m = true := by
  cases m with
  | nil => rfl
  | cons e m =>
    obtain ⟨k, v⟩ := e
    simp only [mapRising, Bool.and_eq_true, decide_eq_true_eq] at hm ⊢
    exact ⟨by omega, hm.2⟩

omit [DecidableEq α] in
theorem mapRising_filter (b : Nat) (p : Nat × α → Bool) (m : List (Nat × α)) (hm : mapRising b m = true) :
    mapRising b (m.filter p) = true := by
  induction m generalizing b with
  | nil => rfl
  | cons e m ih =>
    obtain ⟨k, v⟩ := e
    simp only [mapRising, Bool.and_eq_true, decide_eq_true_eq] at hm
    by_cases hp : p (k, v) = true
    · simp only [List.filter_cons, hp, if_true, mapRising, Bool.and_eq_true, decide_eq_true_eq]
      exact ⟨hm.1, ih _ hm.2⟩
    · simp only [List.filter_cons, hp]
      exact mapRising_mono (by omega) _ (ih _ hm.2)

omit [DecidableEq α] in
theorem mapRising_mapIns (b k : Nat) (v : α) (m : List (Nat × α)) (hk : b ≤ k) (hm : mapRising b m = true) :
    mapRising b (mapIns k v m) = true := by
  induction m generalizing b with
  | nil => simp [mapIns, mapRising, hk]
  | cons e m ih =>
    obtain ⟨k', v'⟩ := e
    simp only [mapRising, Bool.and_eq_true, decide_eq_true_eq] at hm
    simp only [mapIns]
    split
    · next h => simp only [mapRising, Bool.and_eq_true, decide_eq_true_eq]; exact ⟨hk, by omega, hm.2⟩
    · split
      · next h => subst h; simp only [mapRising, Bool.and_eq_true, decide_eq_true_eq]; exact hm
      · simp only [mapRising, Bool.and_eq_true, decide_eq_true_eq]; exact ⟨hm.1, ih _ (by omega) hm.2⟩

omit [DecidableEq α] in
theorem mapIns_mem {k : Nat} {v : α} {m : List (Nat × α)} {e : Nat × α} (h : e ∈ mapIns k v m) : e = (k, v) ∨ e ∈ m := by
  induction m with
  | nil => simpa [mapIns] using h
  | cons x m ih =>
    obtain ⟨k', v'⟩ := x
    simp only [mapIns] at h
    split at h
    · simpa using h
    · split at h
      · simp only [List.mem_cons] at h ⊢; tauto
      · simp only [List.mem_cons] at h ⊢
        rcases h with h | h
        · exact .inr (.inl h)
        · rcases ih h with h | h
          · exact .inl h
          · exact .inr (.inr h)

/-- The canonical form in words: keys rise, and no entry holds what its key reads as unlisted. -/
theorem mapWf_iff (d : Nat → α) (m : List (Nat × α)) :
    mapWf d m = true ↔ mapRising 0 m = true ∧ ∀ e ∈ m, e.2 ≠ d e.1 := by
  simp [mapWf]

theorem mapWf_nil (d : Nat → α) : mapWf d ([] : List (Nat × α)) = true := rfl

theorem mapWf_filter (d : Nat → α) (p : Nat × α → Bool) (m : List (Nat × α)) (h : mapWf d m = true) :
    mapWf d (m.filter p) = true := by
  rw [mapWf_iff] at *
  exact ⟨mapRising_filter _ _ _ h.1, fun e he => h.2 e (List.mem_filter.mp he).1⟩

theorem mapWf_mapIns (d : Nat → α) (k : Nat) (v : α) (m : List (Nat × α)) (hv : v ≠ d k) (h : mapWf d m = true) :
    mapWf d (mapIns k v m) = true := by
  rw [mapWf_iff] at *
  refine ⟨mapRising_mapIns 0 k v m (by omega) h.1, fun e he => ?_⟩
  rcases mapIns_mem he with rfl | he
  · exact hv
  · exact h.2 e he

theorem mapWf_mapDel (d : Nat → α) (k : Nat) (m : List (Nat × α)) (h : mapWf d m = true) : mapWf d (mapDel k m) = true :=
  mapWf_filter d _ m h

theorem mapWf_mapSet (d : Nat → α) (k : Nat) (v : α) (m : List (Nat × α)) (h : mapWf d m = true) :
    mapWf d (mapSet d k v m) = true := by
  unfold mapSet
  split
  · exact mapWf_mapDel d k m h
  · next hv => exact mapWf_mapIns d k v m hv h

theorem mapWf_mapDelRange (d : Nat → α) (lo hi : Nat) (m : List (Nat × α)) (h : mapWf d m = true) :
    mapWf d (mapDelRange lo hi m) = true := mapWf_filter d _ m h

theorem mapWf_mapSetList (d : Nat → α) (k : Nat) (vs : List α) (m : List (Nat × α)) (h : mapWf d m = true) :
    mapWf d (mapSetList d k vs m) = true := by
  induction vs generalizing k m with
  | nil => exact h
  | cons v vs ih => exact ih (k + 1) _ (mapWf_mapSet d k v m h)

end Sys2Proof.Machine
end

