-- ==== Sys2Proof/Laws/Reg.lean ====
section
/-!
SUPPORT. Sys2Proof/Laws/Reg.lean: registers and fields read what was written to them, and leave each other alone.
-/
namespace Sys2Proof.Machine

theorem Reg.all_code (r : Reg) : Reg.all[r.code]? = some r := by cases r <;> rfl

theorem Reg.code_inj {r q : Reg} (h : r.code = q.code) : r = q := by
  have a := Reg.all_code r
  rw [h, Reg.all_code q] at a
  exact (Option.some.inj a).symm

/-- Two keys are the same only for the same copy of the same register. -/
theorem regKey_inj {r q : Reg} {i j : Nat} : regKey r i = regKey q j ↔ r = q ∧ i % 65536 = j % 65536 := by
  unfold regKey
  constructor
  · intro h
    have hi := Nat.mod_lt i (show 0 < 65536 by decide)
    have hj := Nat.mod_lt j (show 0 < 65536 by decide)
    have : r.code = q.code := by omega
    exact ⟨Reg.code_inj this, by omega⟩
  · rintro ⟨rfl, h⟩; rw [h]

/-- An unlisted register reads as its reset value. -/
@[simp] theorem regDflt_regKey (r : Reg) (i : Nat) (hi : i < 65536) : regDflt (regKey r i) = r.resetVal i := by
  unfold regDflt regKey
  have h1 : (r.code * 65536 + i % 65536) / 65536 = r.code := by omega
  have h2 : (r.code * 65536 + i % 65536) % 65536 = i := by omega
  rw [h1, h2, Reg.all_code]

/-- A register reads what was written, cut to its width. -/
@[simp] theorem State.rd_wr_self (s : State) (r : Reg) (i v : Nat) : (s.wr r i v).rd r i = v % 2 ^ (8 * r.bytes) := by
  simp [State.rd, State.wr]

/-- Every other register, and every other copy, reads as before. -/
theorem State.rd_wr_ne (s : State) {r q : Reg} {i j : Nat} (v : Nat) (h : regKey q j ≠ regKey r i) :
    (s.wr r i v).rd q j = s.rd q j := by
  simp [State.rd, State.wr, mapGet_mapSet_ne regDflt h]

theorem State.rd_wr_reg (s : State) {r q : Reg} {i j : Nat} (v : Nat) (h : q ≠ r) : (s.wr r i v).rd q j = s.rd q j :=
  s.rd_wr_ne v fun e => h (regKey_inj.mp e).1

theorem State.rd_wr_idx (s : State) {r : Reg} {i j : Nat} (v : Nat) (h : j % 65536 ≠ i % 65536) : (s.wr r i v).rd r j = s.rd r j :=
  s.rd_wr_ne v fun e => h (regKey_inj.mp e).2

/-- Bits of a number cut to a width that holds them. -/
theorem bits_mod {x lo w n : Nat} (h : lo + w ≤ n) : bits (x % 2 ^ n) lo w = bits x lo w := by
  unfold bits
  obtain ⟨c, rfl⟩ := Nat.exists_eq_add_of_le h
  rw [Nat.add_assoc, pow_add, Nat.mod_mul_right_div_self]
  exact Nat.mod_mod_of_dvd _ (pow_dvd_pow 2 (Nat.le_add_right w c))

/-- A field reads what was set, cut to its width. -/
theorem State.fld_setFld_self (s : State) (f : Fld) (i v : Nat) (h : f.lo + f.w ≤ 8 * f.reg.bytes) :
    (s.setFld f i v).fld f i = v % 2 ^ f.w := by
  simp [State.fld, State.setFld, bits_mod h]

/-- A field of the same register beside the one set reads as before. -/
theorem State.fld_setFld_beside (s : State) {f g : Fld} (i v : Nat) (hr : g.reg = f.reg)
    (hg : g.lo + g.w ≤ 8 * f.reg.bytes) (hd : g.lo + g.w ≤ f.lo ∨ f.lo + f.w ≤ g.lo) :
    (s.setFld f i v).fld g i = s.fld g i := by
  unfold State.fld State.setFld
  rw [hr, State.rd_wr_self, bits_mod hg, bits_setBits_beside _ _ _ _ _ _ hd]

/-- A field of another register reads as before. -/
theorem State.fld_setFld_reg (s : State) {f g : Fld} {i j : Nat} (v : Nat) (h : g.reg ≠ f.reg) : (s.setFld f i v).fld g j = s.fld g j := by
  unfold State.fld State.setFld
  rw [State.rd_wr_reg _ _ h]

/-- A field of another copy reads as before. -/
theorem State.fld_setFld_idx (s : State) {f g : Fld} {i j : Nat} (v : Nat) (hr : g.reg = f.reg) (h : j % 65536 ≠ i % 65536) :
    (s.setFld f i v).fld g j = s.fld g j := by
  unfold State.fld State.setFld
  rw [hr, State.rd_wr_idx _ _ h]

/-- A field of another register reads as before when a register is written. -/
theorem State.fld_wr_reg (s : State) {r : Reg} {g : Fld} {i j : Nat} (v : Nat) (h : g.reg ≠ r) : (s.wr r i v).fld g j = s.fld g j := by
  unfold State.fld
  rw [State.rd_wr_reg _ _ h]

/-- Every other register reads as before when a field is set. -/
theorem State.rd_setFld_reg (s : State) {f : Fld} {r : Reg} {i j : Nat} (v : Nat) (h : r ≠ f.reg) :
    (s.setFld f i v).rd r j = s.rd r j := State.rd_wr_reg _ _ h

theorem State.rd_setFld_idx (s : State) {f : Fld} {r : Reg} {i j : Nat} (v : Nat) (hr : r = f.reg) (h : j % 65536 ≠ i % 65536) :
    (s.setFld f i v).rd r j = s.rd r j := by subst hr; exact State.rd_wr_idx _ _ h

/-- A write of a register keeps the canonical form of the register map. -/
theorem State.wr_regs_wf (s : State) (r : Reg) (i v : Nat) (h : mapWf regDflt s.regs = true) :
    mapWf regDflt (s.wr r i v).regs = true := mapWf_mapSet _ _ _ _ h

theorem State.setFld_regs_wf (s : State) (f : Fld) (i v : Nat) (h : mapWf regDflt s.regs = true) :
    mapWf regDflt (s.setFld f i v).regs = true := s.wr_regs_wf _ _ _ h

end Sys2Proof.Machine
end

