-- ==== Sys2Proof/Laws/State.lean ====
section
/-!
SUPPORT. Sys2Proof/Laws/State.lean: what each named update of the state leaves as it was: one lemma for each update and each
field, true by rfl.
-/
namespace Sys2Proof.Machine

variable (s : State)


/-! ## wr -/

@[simp] theorem State.wr_now (r : Reg) (i v : Nat) : (s.wr r i v).now = s.now := rfl
@[simp] theorem State.wr_ups (r : Reg) (i v : Nat) : (s.wr r i v).ups = s.ups := rfl
@[simp] theorem State.wr_evr (r : Reg) (i v : Nat) : (s.wr r i v).evr = s.evr := rfl
@[simp] theorem State.wr_cores (r : Reg) (i v : Nat) : (s.wr r i v).cores = s.cores := rfl
@[simp] theorem State.wr_mem (r : Reg) (i v : Nat) : (s.wr r i v).mem = s.mem := rfl
@[simp] theorem State.wr_inject (r : Reg) (i v : Nat) : (s.wr r i v).inject = s.inject := rfl
@[simp] theorem State.wr_slots (r : Reg) (i v : Nat) : (s.wr r i v).slots = s.slots := rfl
@[simp] theorem State.wr_mmuCache (r : Reg) (i v : Nat) : (s.wr r i v).mmuCache = s.mmuCache := rfl
@[simp] theorem State.wr_remotes (r : Reg) (i v : Nat) : (s.wr r i v).remotes = s.remotes := rfl
@[simp] theorem State.wr_moverNext (r : Reg) (i v : Nat) : (s.wr r i v).moverNext = s.moverNext := rfl
@[simp] theorem State.wr_ccRecord (r : Reg) (i v : Nat) : (s.wr r i v).ccRecord = s.ccRecord := rfl
@[simp] theorem State.wr_nextTable (r : Reg) (i v : Nat) : (s.wr r i v).nextTable = s.nextTable := rfl
@[simp] theorem State.wr_nextTag (r : Reg) (i v : Nat) : (s.wr r i v).nextTag = s.nextTag := rfl
@[simp] theorem State.wr_movers (r : Reg) (i v : Nat) : (s.wr r i v).movers = s.movers := rfl
@[simp] theorem State.wr_links (r : Reg) (i v : Nat) : (s.wr r i v).links = s.links := rfl
@[simp] theorem State.wr_lanes (r : Reg) (i v : Nat) : (s.wr r i v).lanes = s.lanes := rfl
@[simp] theorem State.wr_deck (r : Reg) (i v : Nat) : (s.wr r i v).deck = s.deck := rfl
@[simp] theorem State.wr_axes (r : Reg) (i v : Nat) : (s.wr r i v).axes = s.axes := rfl
@[simp] theorem State.wr_time (r : Reg) (i v : Nat) : (s.wr r i v).time = s.time := rfl
@[simp] theorem State.wr_power (r : Reg) (i v : Nat) : (s.wr r i v).power = s.power := rfl
@[simp] theorem State.wr_colOps (r : Reg) (i v : Nat) : (s.wr r i v).colOps = s.colOps := rfl
@[simp] theorem State.wr_rotLast (r : Reg) (i v : Nat) : (s.wr r i v).rotLast = s.rotLast := rfl
@[simp] theorem State.wr_rotStep (r : Reg) (i v : Nat) : (s.wr r i v).rotStep = s.rotStep := rfl
@[simp] theorem State.wr_fencedLinks (r : Reg) (i v : Nat) : (s.wr r i v).fencedLinks = s.fencedLinks := rfl
@[simp] theorem State.wr_flits (r : Reg) (i v : Nat) : (s.wr r i v).flits = s.flits := rfl
@[simp] theorem State.wr_staged (r : Reg) (i v : Nat) : (s.wr r i v).staged = s.staged := rfl
@[simp] theorem State.wr_epochTick (r : Reg) (i v : Nat) : (s.wr r i v).epochTick = s.epochTick := rfl
@[simp] theorem State.wr_epochDue (r : Reg) (i v : Nat) : (s.wr r i v).epochDue = s.epochDue := rfl
@[simp] theorem State.wr_votedHolders (r : Reg) (i v : Nat) : (s.wr r i v).votedHolders = s.votedHolders := rfl
@[simp] theorem State.wr_voteDelays (r : Reg) (i v : Nat) : (s.wr r i v).voteDelays = s.voteDelays := rfl
@[simp] theorem State.wr_nextDelays (r : Reg) (i v : Nat) : (s.wr r i v).nextDelays = s.nextDelays := rfl
@[simp] theorem State.wr_spares (r : Reg) (i v : Nat) : (s.wr r i v).spares = s.spares := rfl
@[simp] theorem State.wr_mgmtReq (r : Reg) (i v : Nat) : (s.wr r i v).mgmtReq = s.mgmtReq := rfl
@[simp] theorem State.wr_lineReads (r : Reg) (i v : Nat) : (s.wr r i v).lineReads = s.lineReads := rfl
@[simp] theorem State.wr_farFields (r : Reg) (i v : Nat) : (s.wr r i v).farFields = s.farFields := rfl
@[simp] theorem State.wr_farJobs (r : Reg) (i v : Nat) : (s.wr r i v).farJobs = s.farJobs := rfl
@[simp] theorem State.wr_shares (r : Reg) (i v : Nat) : (s.wr r i v).shares = s.shares := rfl
@[simp] theorem State.wr_positions (r : Reg) (i v : Nat) : (s.wr r i v).positions = s.positions := rfl
@[simp] theorem State.wr_integ (r : Reg) (i v : Nat) : (s.wr r i v).integ = s.integ := rfl
@[simp] theorem State.wr_cal (r : Reg) (i v : Nat) : (s.wr r i v).cal = s.cal := rfl
@[simp] theorem State.wr_meter (r : Reg) (i v : Nat) : (s.wr r i v).meter = s.meter := rfl
@[simp] theorem State.wr_cart (r : Reg) (i v : Nat) : (s.wr r i v).cart = s.cart := rfl
@[simp] theorem State.wr_flashA (r : Reg) (i v : Nat) : (s.wr r i v).flashA = s.flashA := rfl
@[simp] theorem State.wr_flashB (r : Reg) (i v : Nat) : (s.wr r i v).flashB = s.flashB := rfl
@[simp] theorem State.wr_savedAt (r : Reg) (i v : Nat) : (s.wr r i v).savedAt = s.savedAt := rfl
@[simp] theorem State.wr_fuses (r : Reg) (i v : Nat) : (s.wr r i v).fuses = s.fuses := rfl
@[simp] theorem State.wr_domains (r : Reg) (i v : Nat) : (s.wr r i v).domains = s.domains := rfl
@[simp] theorem State.wr_access (r : Reg) (i v : Nat) : (s.wr r i v).access = s.access := rfl
@[simp] theorem State.wr_saved (r : Reg) (i v : Nat) : (s.wr r i v).saved = s.saved := rfl
@[simp] theorem State.wr_areas (r : Reg) (i v : Nat) : (s.wr r i v).areas = s.areas := rfl
@[simp] theorem State.wr_conns (r : Reg) (i v : Nat) : (s.wr r i v).conns = s.conns := rfl
@[simp] theorem State.wr_jobs (r : Reg) (i v : Nat) : (s.wr r i v).jobs = s.jobs := rfl
@[simp] theorem State.wr_works (r : Reg) (i v : Nat) : (s.wr r i v).works = s.works := rfl
@[simp] theorem State.wr_nextJob (r : Reg) (i v : Nat) : (s.wr r i v).nextJob = s.nextJob := rfl
@[simp] theorem State.wr_nextOrder (r : Reg) (i v : Nat) : (s.wr r i v).nextOrder = s.nextOrder := rfl
@[simp] theorem State.wr_nextWork (r : Reg) (i v : Nat) : (s.wr r i v).nextWork = s.nextWork := rfl
@[simp] theorem State.wr_nextIdent (r : Reg) (i v : Nat) : (s.wr r i v).nextIdent = s.nextIdent := rfl
@[simp] theorem State.wr_out (r : Reg) (i v : Nat) : (s.wr r i v).out = s.out := rfl
@[simp] theorem State.wr_free (r : Reg) (i v : Nat) : (s.wr r i v).free = s.free := rfl
@[simp] theorem State.wr_pending (r : Reg) (i v : Nat) : (s.wr r i v).pending = s.pending := rfl

/-! ## setFld -/

@[simp] theorem State.setFld_now (f : Fld) (i v : Nat) : (s.setFld f i v).now = s.now := rfl
@[simp] theorem State.setFld_ups (f : Fld) (i v : Nat) : (s.setFld f i v).ups = s.ups := rfl
@[simp] theorem State.setFld_evr (f : Fld) (i v : Nat) : (s.setFld f i v).evr = s.evr := rfl
@[simp] theorem State.setFld_cores (f : Fld) (i v : Nat) : (s.setFld f i v).cores = s.cores := rfl
@[simp] theorem State.setFld_mem (f : Fld) (i v : Nat) : (s.setFld f i v).mem = s.mem := rfl
@[simp] theorem State.setFld_inject (f : Fld) (i v : Nat) : (s.setFld f i v).inject = s.inject := rfl
@[simp] theorem State.setFld_slots (f : Fld) (i v : Nat) : (s.setFld f i v).slots = s.slots := rfl
@[simp] theorem State.setFld_mmuCache (f : Fld) (i v : Nat) : (s.setFld f i v).mmuCache = s.mmuCache := rfl
@[simp] theorem State.setFld_remotes (f : Fld) (i v : Nat) : (s.setFld f i v).remotes = s.remotes := rfl
@[simp] theorem State.setFld_moverNext (f : Fld) (i v : Nat) : (s.setFld f i v).moverNext = s.moverNext := rfl
@[simp] theorem State.setFld_ccRecord (f : Fld) (i v : Nat) : (s.setFld f i v).ccRecord = s.ccRecord := rfl
@[simp] theorem State.setFld_nextTable (f : Fld) (i v : Nat) : (s.setFld f i v).nextTable = s.nextTable := rfl
@[simp] theorem State.setFld_nextTag (f : Fld) (i v : Nat) : (s.setFld f i v).nextTag = s.nextTag := rfl
@[simp] theorem State.setFld_movers (f : Fld) (i v : Nat) : (s.setFld f i v).movers = s.movers := rfl
@[simp] theorem State.setFld_links (f : Fld) (i v : Nat) : (s.setFld f i v).links = s.links := rfl
@[simp] theorem State.setFld_lanes (f : Fld) (i v : Nat) : (s.setFld f i v).lanes = s.lanes := rfl
@[simp] theorem State.setFld_deck (f : Fld) (i v : Nat) : (s.setFld f i v).deck = s.deck := rfl
@[simp] theorem State.setFld_axes (f : Fld) (i v : Nat) : (s.setFld f i v).axes = s.axes := rfl
@[simp] theorem State.setFld_time (f : Fld) (i v : Nat) : (s.setFld f i v).time = s.time := rfl
@[simp] theorem State.setFld_power (f : Fld) (i v : Nat) : (s.setFld f i v).power = s.power := rfl
@[simp] theorem State.setFld_colOps (f : Fld) (i v : Nat) : (s.setFld f i v).colOps = s.colOps := rfl
@[simp] theorem State.setFld_rotLast (f : Fld) (i v : Nat) : (s.setFld f i v).rotLast = s.rotLast := rfl
@[simp] theorem State.setFld_rotStep (f : Fld) (i v : Nat) : (s.setFld f i v).rotStep = s.rotStep := rfl
@[simp] theorem State.setFld_fencedLinks (f : Fld) (i v : Nat) : (s.setFld f i v).fencedLinks = s.fencedLinks := rfl
@[simp] theorem State.setFld_flits (f : Fld) (i v : Nat) : (s.setFld f i v).flits = s.flits := rfl
@[simp] theorem State.setFld_staged (f : Fld) (i v : Nat) : (s.setFld f i v).staged = s.staged := rfl
@[simp] theorem State.setFld_epochTick (f : Fld) (i v : Nat) : (s.setFld f i v).epochTick = s.epochTick := rfl
@[simp] theorem State.setFld_epochDue (f : Fld) (i v : Nat) : (s.setFld f i v).epochDue = s.epochDue := rfl
@[simp] theorem State.setFld_votedHolders (f : Fld) (i v : Nat) : (s.setFld f i v).votedHolders = s.votedHolders := rfl
@[simp] theorem State.setFld_voteDelays (f : Fld) (i v : Nat) : (s.setFld f i v).voteDelays = s.voteDelays := rfl
@[simp] theorem State.setFld_nextDelays (f : Fld) (i v : Nat) : (s.setFld f i v).nextDelays = s.nextDelays := rfl
@[simp] theorem State.setFld_spares (f : Fld) (i v : Nat) : (s.setFld f i v).spares = s.spares := rfl
@[simp] theorem State.setFld_mgmtReq (f : Fld) (i v : Nat) : (s.setFld f i v).mgmtReq = s.mgmtReq := rfl
@[simp] theorem State.setFld_lineReads (f : Fld) (i v : Nat) : (s.setFld f i v).lineReads = s.lineReads := rfl
@[simp] theorem State.setFld_farFields (f : Fld) (i v : Nat) : (s.setFld f i v).farFields = s.farFields := rfl
@[simp] theorem State.setFld_farJobs (f : Fld) (i v : Nat) : (s.setFld f i v).farJobs = s.farJobs := rfl
@[simp] theorem State.setFld_shares (f : Fld) (i v : Nat) : (s.setFld f i v).shares = s.shares := rfl
@[simp] theorem State.setFld_positions (f : Fld) (i v : Nat) : (s.setFld f i v).positions = s.positions := rfl
@[simp] theorem State.setFld_integ (f : Fld) (i v : Nat) : (s.setFld f i v).integ = s.integ := rfl
@[simp] theorem State.setFld_cal (f : Fld) (i v : Nat) : (s.setFld f i v).cal = s.cal := rfl
@[simp] theorem State.setFld_meter (f : Fld) (i v : Nat) : (s.setFld f i v).meter = s.meter := rfl
@[simp] theorem State.setFld_cart (f : Fld) (i v : Nat) : (s.setFld f i v).cart = s.cart := rfl
@[simp] theorem State.setFld_flashA (f : Fld) (i v : Nat) : (s.setFld f i v).flashA = s.flashA := rfl
@[simp] theorem State.setFld_flashB (f : Fld) (i v : Nat) : (s.setFld f i v).flashB = s.flashB := rfl
@[simp] theorem State.setFld_savedAt (f : Fld) (i v : Nat) : (s.setFld f i v).savedAt = s.savedAt := rfl
@[simp] theorem State.setFld_fuses (f : Fld) (i v : Nat) : (s.setFld f i v).fuses = s.fuses := rfl
@[simp] theorem State.setFld_domains (f : Fld) (i v : Nat) : (s.setFld f i v).domains = s.domains := rfl
@[simp] theorem State.setFld_access (f : Fld) (i v : Nat) : (s.setFld f i v).access = s.access := rfl
@[simp] theorem State.setFld_saved (f : Fld) (i v : Nat) : (s.setFld f i v).saved = s.saved := rfl
@[simp] theorem State.setFld_areas (f : Fld) (i v : Nat) : (s.setFld f i v).areas = s.areas := rfl
@[simp] theorem State.setFld_conns (f : Fld) (i v : Nat) : (s.setFld f i v).conns = s.conns := rfl
@[simp] theorem State.setFld_jobs (f : Fld) (i v : Nat) : (s.setFld f i v).jobs = s.jobs := rfl
@[simp] theorem State.setFld_works (f : Fld) (i v : Nat) : (s.setFld f i v).works = s.works := rfl
@[simp] theorem State.setFld_nextJob (f : Fld) (i v : Nat) : (s.setFld f i v).nextJob = s.nextJob := rfl
@[simp] theorem State.setFld_nextOrder (f : Fld) (i v : Nat) : (s.setFld f i v).nextOrder = s.nextOrder := rfl
@[simp] theorem State.setFld_nextWork (f : Fld) (i v : Nat) : (s.setFld f i v).nextWork = s.nextWork := rfl
@[simp] theorem State.setFld_nextIdent (f : Fld) (i v : Nat) : (s.setFld f i v).nextIdent = s.nextIdent := rfl
@[simp] theorem State.setFld_out (f : Fld) (i v : Nat) : (s.setFld f i v).out = s.out := rfl
@[simp] theorem State.setFld_free (f : Fld) (i v : Nat) : (s.setFld f i v).free = s.free := rfl
@[simp] theorem State.setFld_pending (f : Fld) (i v : Nat) : (s.setFld f i v).pending = s.pending := rfl

/-! ## resetReg -/

@[simp] theorem State.resetReg_now (r : Reg) (i : Nat) : (s.resetReg r i).now = s.now := rfl
@[simp] theorem State.resetReg_ups (r : Reg) (i : Nat) : (s.resetReg r i).ups = s.ups := rfl
@[simp] theorem State.resetReg_evr (r : Reg) (i : Nat) : (s.resetReg r i).evr = s.evr := rfl
@[simp] theorem State.resetReg_cores (r : Reg) (i : Nat) : (s.resetReg r i).cores = s.cores := rfl
@[simp] theorem State.resetReg_mem (r : Reg) (i : Nat) : (s.resetReg r i).mem = s.mem := rfl
@[simp] theorem State.resetReg_inject (r : Reg) (i : Nat) : (s.resetReg r i).inject = s.inject := rfl
@[simp] theorem State.resetReg_slots (r : Reg) (i : Nat) : (s.resetReg r i).slots = s.slots := rfl
@[simp] theorem State.resetReg_mmuCache (r : Reg) (i : Nat) : (s.resetReg r i).mmuCache = s.mmuCache := rfl
@[simp] theorem State.resetReg_remotes (r : Reg) (i : Nat) : (s.resetReg r i).remotes = s.remotes := rfl
@[simp] theorem State.resetReg_moverNext (r : Reg) (i : Nat) : (s.resetReg r i).moverNext = s.moverNext := rfl
@[simp] theorem State.resetReg_ccRecord (r : Reg) (i : Nat) : (s.resetReg r i).ccRecord = s.ccRecord := rfl
@[simp] theorem State.resetReg_nextTable (r : Reg) (i : Nat) : (s.resetReg r i).nextTable = s.nextTable := rfl
@[simp] theorem State.resetReg_nextTag (r : Reg) (i : Nat) : (s.resetReg r i).nextTag = s.nextTag := rfl
@[simp] theorem State.resetReg_movers (r : Reg) (i : Nat) : (s.resetReg r i).movers = s.movers := rfl
@[simp] theorem State.resetReg_links (r : Reg) (i : Nat) : (s.resetReg r i).links = s.links := rfl
@[simp] theorem State.resetReg_lanes (r : Reg) (i : Nat) : (s.resetReg r i).lanes = s.lanes := rfl
@[simp] theorem State.resetReg_deck (r : Reg) (i : Nat) : (s.resetReg r i).deck = s.deck := rfl
@[simp] theorem State.resetReg_axes (r : Reg) (i : Nat) : (s.resetReg r i).axes = s.axes := rfl
@[simp] theorem State.resetReg_time (r : Reg) (i : Nat) : (s.resetReg r i).time = s.time := rfl
@[simp] theorem State.resetReg_power (r : Reg) (i : Nat) : (s.resetReg r i).power = s.power := rfl
@[simp] theorem State.resetReg_colOps (r : Reg) (i : Nat) : (s.resetReg r i).colOps = s.colOps := rfl
@[simp] theorem State.resetReg_rotLast (r : Reg) (i : Nat) : (s.resetReg r i).rotLast = s.rotLast := rfl
@[simp] theorem State.resetReg_rotStep (r : Reg) (i : Nat) : (s.resetReg r i).rotStep = s.rotStep := rfl
@[simp] theorem State.resetReg_fencedLinks (r : Reg) (i : Nat) : (s.resetReg r i).fencedLinks = s.fencedLinks := rfl
@[simp] theorem State.resetReg_flits (r : Reg) (i : Nat) : (s.resetReg r i).flits = s.flits := rfl
@[simp] theorem State.resetReg_staged (r : Reg) (i : Nat) : (s.resetReg r i).staged = s.staged := rfl
@[simp] theorem State.resetReg_epochTick (r : Reg) (i : Nat) : (s.resetReg r i).epochTick = s.epochTick := rfl
@[simp] theorem State.resetReg_epochDue (r : Reg) (i : Nat) : (s.resetReg r i).epochDue = s.epochDue := rfl
@[simp] theorem State.resetReg_votedHolders (r : Reg) (i : Nat) : (s.resetReg r i).votedHolders = s.votedHolders := rfl
@[simp] theorem State.resetReg_voteDelays (r : Reg) (i : Nat) : (s.resetReg r i).voteDelays = s.voteDelays := rfl
@[simp] theorem State.resetReg_nextDelays (r : Reg) (i : Nat) : (s.resetReg r i).nextDelays = s.nextDelays := rfl
@[simp] theorem State.resetReg_spares (r : Reg) (i : Nat) : (s.resetReg r i).spares = s.spares := rfl
@[simp] theorem State.resetReg_mgmtReq (r : Reg) (i : Nat) : (s.resetReg r i).mgmtReq = s.mgmtReq := rfl
@[simp] theorem State.resetReg_lineReads (r : Reg) (i : Nat) : (s.resetReg r i).lineReads = s.lineReads := rfl
@[simp] theorem State.resetReg_farFields (r : Reg) (i : Nat) : (s.resetReg r i).farFields = s.farFields := rfl
@[simp] theorem State.resetReg_farJobs (r : Reg) (i : Nat) : (s.resetReg r i).farJobs = s.farJobs := rfl
@[simp] theorem State.resetReg_shares (r : Reg) (i : Nat) : (s.resetReg r i).shares = s.shares := rfl
@[simp] theorem State.resetReg_positions (r : Reg) (i : Nat) : (s.resetReg r i).positions = s.positions := rfl
@[simp] theorem State.resetReg_integ (r : Reg) (i : Nat) : (s.resetReg r i).integ = s.integ := rfl
@[simp] theorem State.resetReg_cal (r : Reg) (i : Nat) : (s.resetReg r i).cal = s.cal := rfl
@[simp] theorem State.resetReg_meter (r : Reg) (i : Nat) : (s.resetReg r i).meter = s.meter := rfl
@[simp] theorem State.resetReg_cart (r : Reg) (i : Nat) : (s.resetReg r i).cart = s.cart := rfl
@[simp] theorem State.resetReg_flashA (r : Reg) (i : Nat) : (s.resetReg r i).flashA = s.flashA := rfl
@[simp] theorem State.resetReg_flashB (r : Reg) (i : Nat) : (s.resetReg r i).flashB = s.flashB := rfl
@[simp] theorem State.resetReg_savedAt (r : Reg) (i : Nat) : (s.resetReg r i).savedAt = s.savedAt := rfl
@[simp] theorem State.resetReg_fuses (r : Reg) (i : Nat) : (s.resetReg r i).fuses = s.fuses := rfl
@[simp] theorem State.resetReg_domains (r : Reg) (i : Nat) : (s.resetReg r i).domains = s.domains := rfl
@[simp] theorem State.resetReg_access (r : Reg) (i : Nat) : (s.resetReg r i).access = s.access := rfl
@[simp] theorem State.resetReg_saved (r : Reg) (i : Nat) : (s.resetReg r i).saved = s.saved := rfl
@[simp] theorem State.resetReg_areas (r : Reg) (i : Nat) : (s.resetReg r i).areas = s.areas := rfl
@[simp] theorem State.resetReg_conns (r : Reg) (i : Nat) : (s.resetReg r i).conns = s.conns := rfl
@[simp] theorem State.resetReg_jobs (r : Reg) (i : Nat) : (s.resetReg r i).jobs = s.jobs := rfl
@[simp] theorem State.resetReg_works (r : Reg) (i : Nat) : (s.resetReg r i).works = s.works := rfl
@[simp] theorem State.resetReg_nextJob (r : Reg) (i : Nat) : (s.resetReg r i).nextJob = s.nextJob := rfl
@[simp] theorem State.resetReg_nextOrder (r : Reg) (i : Nat) : (s.resetReg r i).nextOrder = s.nextOrder := rfl
@[simp] theorem State.resetReg_nextWork (r : Reg) (i : Nat) : (s.resetReg r i).nextWork = s.nextWork := rfl
@[simp] theorem State.resetReg_nextIdent (r : Reg) (i : Nat) : (s.resetReg r i).nextIdent = s.nextIdent := rfl
@[simp] theorem State.resetReg_out (r : Reg) (i : Nat) : (s.resetReg r i).out = s.out := rfl
@[simp] theorem State.resetReg_free (r : Reg) (i : Nat) : (s.resetReg r i).free = s.free := rfl
@[simp] theorem State.resetReg_pending (r : Reg) (i : Nat) : (s.resetReg r i).pending = s.pending := rfl

/-! ## emit -/

@[simp] theorem State.emit_regs (o : Out) : (s.emit o).regs = s.regs := rfl
@[simp] theorem State.emit_now (o : Out) : (s.emit o).now = s.now := rfl
@[simp] theorem State.emit_ups (o : Out) : (s.emit o).ups = s.ups := rfl
@[simp] theorem State.emit_evr (o : Out) : (s.emit o).evr = s.evr := rfl
@[simp] theorem State.emit_cores (o : Out) : (s.emit o).cores = s.cores := rfl
@[simp] theorem State.emit_mem (o : Out) : (s.emit o).mem = s.mem := rfl
@[simp] theorem State.emit_inject (o : Out) : (s.emit o).inject = s.inject := rfl
@[simp] theorem State.emit_slots (o : Out) : (s.emit o).slots = s.slots := rfl
@[simp] theorem State.emit_mmuCache (o : Out) : (s.emit o).mmuCache = s.mmuCache := rfl
@[simp] theorem State.emit_remotes (o : Out) : (s.emit o).remotes = s.remotes := rfl
@[simp] theorem State.emit_moverNext (o : Out) : (s.emit o).moverNext = s.moverNext := rfl
@[simp] theorem State.emit_ccRecord (o : Out) : (s.emit o).ccRecord = s.ccRecord := rfl
@[simp] theorem State.emit_nextTable (o : Out) : (s.emit o).nextTable = s.nextTable := rfl
@[simp] theorem State.emit_nextTag (o : Out) : (s.emit o).nextTag = s.nextTag := rfl
@[simp] theorem State.emit_movers (o : Out) : (s.emit o).movers = s.movers := rfl
@[simp] theorem State.emit_links (o : Out) : (s.emit o).links = s.links := rfl
@[simp] theorem State.emit_lanes (o : Out) : (s.emit o).lanes = s.lanes := rfl
@[simp] theorem State.emit_deck (o : Out) : (s.emit o).deck = s.deck := rfl
@[simp] theorem State.emit_axes (o : Out) : (s.emit o).axes = s.axes := rfl
@[simp] theorem State.emit_time (o : Out) : (s.emit o).time = s.time := rfl
@[simp] theorem State.emit_power (o : Out) : (s.emit o).power = s.power := rfl
@[simp] theorem State.emit_colOps (o : Out) : (s.emit o).colOps = s.colOps := rfl
@[simp] theorem State.emit_rotLast (o : Out) : (s.emit o).rotLast = s.rotLast := rfl
@[simp] theorem State.emit_rotStep (o : Out) : (s.emit o).rotStep = s.rotStep := rfl
@[simp] theorem State.emit_fencedLinks (o : Out) : (s.emit o).fencedLinks = s.fencedLinks := rfl
@[simp] theorem State.emit_flits (o : Out) : (s.emit o).flits = s.flits := rfl
@[simp] theorem State.emit_staged (o : Out) : (s.emit o).staged = s.staged := rfl
@[simp] theorem State.emit_epochTick (o : Out) : (s.emit o).epochTick = s.epochTick := rfl
@[simp] theorem State.emit_epochDue (o : Out) : (s.emit o).epochDue = s.epochDue := rfl
@[simp] theorem State.emit_votedHolders (o : Out) : (s.emit o).votedHolders = s.votedHolders := rfl
@[simp] theorem State.emit_voteDelays (o : Out) : (s.emit o).voteDelays = s.voteDelays := rfl
@[simp] theorem State.emit_nextDelays (o : Out) : (s.emit o).nextDelays = s.nextDelays := rfl
@[simp] theorem State.emit_spares (o : Out) : (s.emit o).spares = s.spares := rfl
@[simp] theorem State.emit_mgmtReq (o : Out) : (s.emit o).mgmtReq = s.mgmtReq := rfl
@[simp] theorem State.emit_lineReads (o : Out) : (s.emit o).lineReads = s.lineReads := rfl
@[simp] theorem State.emit_farFields (o : Out) : (s.emit o).farFields = s.farFields := rfl
@[simp] theorem State.emit_farJobs (o : Out) : (s.emit o).farJobs = s.farJobs := rfl
@[simp] theorem State.emit_shares (o : Out) : (s.emit o).shares = s.shares := rfl
@[simp] theorem State.emit_positions (o : Out) : (s.emit o).positions = s.positions := rfl
@[simp] theorem State.emit_integ (o : Out) : (s.emit o).integ = s.integ := rfl
@[simp] theorem State.emit_cal (o : Out) : (s.emit o).cal = s.cal := rfl
@[simp] theorem State.emit_meter (o : Out) : (s.emit o).meter = s.meter := rfl
@[simp] theorem State.emit_cart (o : Out) : (s.emit o).cart = s.cart := rfl
@[simp] theorem State.emit_flashA (o : Out) : (s.emit o).flashA = s.flashA := rfl
@[simp] theorem State.emit_flashB (o : Out) : (s.emit o).flashB = s.flashB := rfl
@[simp] theorem State.emit_savedAt (o : Out) : (s.emit o).savedAt = s.savedAt := rfl
@[simp] theorem State.emit_fuses (o : Out) : (s.emit o).fuses = s.fuses := rfl
@[simp] theorem State.emit_domains (o : Out) : (s.emit o).domains = s.domains := rfl
@[simp] theorem State.emit_access (o : Out) : (s.emit o).access = s.access := rfl
@[simp] theorem State.emit_saved (o : Out) : (s.emit o).saved = s.saved := rfl
@[simp] theorem State.emit_areas (o : Out) : (s.emit o).areas = s.areas := rfl
@[simp] theorem State.emit_conns (o : Out) : (s.emit o).conns = s.conns := rfl
@[simp] theorem State.emit_jobs (o : Out) : (s.emit o).jobs = s.jobs := rfl
@[simp] theorem State.emit_works (o : Out) : (s.emit o).works = s.works := rfl
@[simp] theorem State.emit_nextJob (o : Out) : (s.emit o).nextJob = s.nextJob := rfl
@[simp] theorem State.emit_nextOrder (o : Out) : (s.emit o).nextOrder = s.nextOrder := rfl
@[simp] theorem State.emit_nextWork (o : Out) : (s.emit o).nextWork = s.nextWork := rfl
@[simp] theorem State.emit_nextIdent (o : Out) : (s.emit o).nextIdent = s.nextIdent := rfl
@[simp] theorem State.emit_free (o : Out) : (s.emit o).free = s.free := rfl
@[simp] theorem State.emit_pending (o : Out) : (s.emit o).pending = s.pending := rfl

/-! ## closeRec -/

@[simp] theorem State.closeRec_regs (src code loc : Nat) : (s.closeRec src code loc).regs = s.regs := rfl
@[simp] theorem State.closeRec_now (src code loc : Nat) : (s.closeRec src code loc).now = s.now := rfl
@[simp] theorem State.closeRec_ups (src code loc : Nat) : (s.closeRec src code loc).ups = s.ups := rfl
@[simp] theorem State.closeRec_cores (src code loc : Nat) : (s.closeRec src code loc).cores = s.cores := rfl
@[simp] theorem State.closeRec_mem (src code loc : Nat) : (s.closeRec src code loc).mem = s.mem := rfl
@[simp] theorem State.closeRec_inject (src code loc : Nat) : (s.closeRec src code loc).inject = s.inject := rfl
@[simp] theorem State.closeRec_slots (src code loc : Nat) : (s.closeRec src code loc).slots = s.slots := rfl
@[simp] theorem State.closeRec_mmuCache (src code loc : Nat) : (s.closeRec src code loc).mmuCache = s.mmuCache := rfl
@[simp] theorem State.closeRec_remotes (src code loc : Nat) : (s.closeRec src code loc).remotes = s.remotes := rfl
@[simp] theorem State.closeRec_moverNext (src code loc : Nat) : (s.closeRec src code loc).moverNext = s.moverNext := rfl
@[simp] theorem State.closeRec_ccRecord (src code loc : Nat) : (s.closeRec src code loc).ccRecord = s.ccRecord := rfl
@[simp] theorem State.closeRec_nextTable (src code loc : Nat) : (s.closeRec src code loc).nextTable = s.nextTable := rfl
@[simp] theorem State.closeRec_nextTag (src code loc : Nat) : (s.closeRec src code loc).nextTag = s.nextTag := rfl
@[simp] theorem State.closeRec_movers (src code loc : Nat) : (s.closeRec src code loc).movers = s.movers := rfl
@[simp] theorem State.closeRec_links (src code loc : Nat) : (s.closeRec src code loc).links = s.links := rfl
@[simp] theorem State.closeRec_lanes (src code loc : Nat) : (s.closeRec src code loc).lanes = s.lanes := rfl
@[simp] theorem State.closeRec_deck (src code loc : Nat) : (s.closeRec src code loc).deck = s.deck := rfl
@[simp] theorem State.closeRec_axes (src code loc : Nat) : (s.closeRec src code loc).axes = s.axes := rfl
@[simp] theorem State.closeRec_time (src code loc : Nat) : (s.closeRec src code loc).time = s.time := rfl
@[simp] theorem State.closeRec_power (src code loc : Nat) : (s.closeRec src code loc).power = s.power := rfl
@[simp] theorem State.closeRec_colOps (src code loc : Nat) : (s.closeRec src code loc).colOps = s.colOps := rfl
@[simp] theorem State.closeRec_rotLast (src code loc : Nat) : (s.closeRec src code loc).rotLast = s.rotLast := rfl
@[simp] theorem State.closeRec_rotStep (src code loc : Nat) : (s.closeRec src code loc).rotStep = s.rotStep := rfl
@[simp] theorem State.closeRec_fencedLinks (src code loc : Nat) : (s.closeRec src code loc).fencedLinks = s.fencedLinks := rfl
@[simp] theorem State.closeRec_flits (src code loc : Nat) : (s.closeRec src code loc).flits = s.flits := rfl
@[simp] theorem State.closeRec_staged (src code loc : Nat) : (s.closeRec src code loc).staged = s.staged := rfl
@[simp] theorem State.closeRec_epochTick (src code loc : Nat) : (s.closeRec src code loc).epochTick = s.epochTick := rfl
@[simp] theorem State.closeRec_epochDue (src code loc : Nat) : (s.closeRec src code loc).epochDue = s.epochDue := rfl
@[simp] theorem State.closeRec_votedHolders (src code loc : Nat) : (s.closeRec src code loc).votedHolders = s.votedHolders := rfl
@[simp] theorem State.closeRec_voteDelays (src code loc : Nat) : (s.closeRec src code loc).voteDelays = s.voteDelays := rfl
@[simp] theorem State.closeRec_nextDelays (src code loc : Nat) : (s.closeRec src code loc).nextDelays = s.nextDelays := rfl
@[simp] theorem State.closeRec_spares (src code loc : Nat) : (s.closeRec src code loc).spares = s.spares := rfl
@[simp] theorem State.closeRec_mgmtReq (src code loc : Nat) : (s.closeRec src code loc).mgmtReq = s.mgmtReq := rfl
@[simp] theorem State.closeRec_lineReads (src code loc : Nat) : (s.closeRec src code loc).lineReads = s.lineReads := rfl
@[simp] theorem State.closeRec_farFields (src code loc : Nat) : (s.closeRec src code loc).farFields = s.farFields := rfl
@[simp] theorem State.closeRec_farJobs (src code loc : Nat) : (s.closeRec src code loc).farJobs = s.farJobs := rfl
@[simp] theorem State.closeRec_shares (src code loc : Nat) : (s.closeRec src code loc).shares = s.shares := rfl
@[simp] theorem State.closeRec_positions (src code loc : Nat) : (s.closeRec src code loc).positions = s.positions := rfl
@[simp] theorem State.closeRec_integ (src code loc : Nat) : (s.closeRec src code loc).integ = s.integ := rfl
@[simp] theorem State.closeRec_cal (src code loc : Nat) : (s.closeRec src code loc).cal = s.cal := rfl
@[simp] theorem State.closeRec_meter (src code loc : Nat) : (s.closeRec src code loc).meter = s.meter := rfl
@[simp] theorem State.closeRec_cart (src code loc : Nat) : (s.closeRec src code loc).cart = s.cart := rfl
@[simp] theorem State.closeRec_flashA (src code loc : Nat) : (s.closeRec src code loc).flashA = s.flashA := rfl
@[simp] theorem State.closeRec_flashB (src code loc : Nat) : (s.closeRec src code loc).flashB = s.flashB := rfl
@[simp] theorem State.closeRec_savedAt (src code loc : Nat) : (s.closeRec src code loc).savedAt = s.savedAt := rfl
@[simp] theorem State.closeRec_fuses (src code loc : Nat) : (s.closeRec src code loc).fuses = s.fuses := rfl
@[simp] theorem State.closeRec_domains (src code loc : Nat) : (s.closeRec src code loc).domains = s.domains := rfl
@[simp] theorem State.closeRec_access (src code loc : Nat) : (s.closeRec src code loc).access = s.access := rfl
@[simp] theorem State.closeRec_saved (src code loc : Nat) : (s.closeRec src code loc).saved = s.saved := rfl
@[simp] theorem State.closeRec_areas (src code loc : Nat) : (s.closeRec src code loc).areas = s.areas := rfl
@[simp] theorem State.closeRec_conns (src code loc : Nat) : (s.closeRec src code loc).conns = s.conns := rfl
@[simp] theorem State.closeRec_jobs (src code loc : Nat) : (s.closeRec src code loc).jobs = s.jobs := rfl
@[simp] theorem State.closeRec_works (src code loc : Nat) : (s.closeRec src code loc).works = s.works := rfl
@[simp] theorem State.closeRec_nextJob (src code loc : Nat) : (s.closeRec src code loc).nextJob = s.nextJob := rfl
@[simp] theorem State.closeRec_nextOrder (src code loc : Nat) : (s.closeRec src code loc).nextOrder = s.nextOrder := rfl
@[simp] theorem State.closeRec_nextWork (src code loc : Nat) : (s.closeRec src code loc).nextWork = s.nextWork := rfl
@[simp] theorem State.closeRec_nextIdent (src code loc : Nat) : (s.closeRec src code loc).nextIdent = s.nextIdent := rfl
@[simp] theorem State.closeRec_out (src code loc : Nat) : (s.closeRec src code loc).out = s.out := rfl
@[simp] theorem State.closeRec_free (src code loc : Nat) : (s.closeRec src code loc).free = s.free := rfl
@[simp] theorem State.closeRec_pending (src code loc : Nat) : (s.closeRec src code loc).pending = s.pending := rfl

/-! ## setCore -/

@[simp] theorem State.setCore_regs (f c : Nat) (k : Core) : (s.setCore f c k).regs = s.regs := rfl
@[simp] theorem State.setCore_now (f c : Nat) (k : Core) : (s.setCore f c k).now = s.now := rfl
@[simp] theorem State.setCore_ups (f c : Nat) (k : Core) : (s.setCore f c k).ups = s.ups := rfl
@[simp] theorem State.setCore_evr (f c : Nat) (k : Core) : (s.setCore f c k).evr = s.evr := rfl
@[simp] theorem State.setCore_mem (f c : Nat) (k : Core) : (s.setCore f c k).mem = s.mem := rfl
@[simp] theorem State.setCore_inject (f c : Nat) (k : Core) : (s.setCore f c k).inject = s.inject := rfl
@[simp] theorem State.setCore_slots (f c : Nat) (k : Core) : (s.setCore f c k).slots = s.slots := rfl
@[simp] theorem State.setCore_mmuCache (f c : Nat) (k : Core) : (s.setCore f c k).mmuCache = s.mmuCache := rfl
@[simp] theorem State.setCore_remotes (f c : Nat) (k : Core) : (s.setCore f c k).remotes = s.remotes := rfl
@[simp] theorem State.setCore_moverNext (f c : Nat) (k : Core) : (s.setCore f c k).moverNext = s.moverNext := rfl
@[simp] theorem State.setCore_ccRecord (f c : Nat) (k : Core) : (s.setCore f c k).ccRecord = s.ccRecord := rfl
@[simp] theorem State.setCore_nextTable (f c : Nat) (k : Core) : (s.setCore f c k).nextTable = s.nextTable := rfl
@[simp] theorem State.setCore_nextTag (f c : Nat) (k : Core) : (s.setCore f c k).nextTag = s.nextTag := rfl
@[simp] theorem State.setCore_movers (f c : Nat) (k : Core) : (s.setCore f c k).movers = s.movers := rfl
@[simp] theorem State.setCore_links (f c : Nat) (k : Core) : (s.setCore f c k).links = s.links := rfl
@[simp] theorem State.setCore_lanes (f c : Nat) (k : Core) : (s.setCore f c k).lanes = s.lanes := rfl
@[simp] theorem State.setCore_deck (f c : Nat) (k : Core) : (s.setCore f c k).deck = s.deck := rfl
@[simp] theorem State.setCore_axes (f c : Nat) (k : Core) : (s.setCore f c k).axes = s.axes := rfl
@[simp] theorem State.setCore_time (f c : Nat) (k : Core) : (s.setCore f c k).time = s.time := rfl
@[simp] theorem State.setCore_power (f c : Nat) (k : Core) : (s.setCore f c k).power = s.power := rfl
@[simp] theorem State.setCore_colOps (f c : Nat) (k : Core) : (s.setCore f c k).colOps = s.colOps := rfl
@[simp] theorem State.setCore_rotLast (f c : Nat) (k : Core) : (s.setCore f c k).rotLast = s.rotLast := rfl
@[simp] theorem State.setCore_rotStep (f c : Nat) (k : Core) : (s.setCore f c k).rotStep = s.rotStep := rfl
@[simp] theorem State.setCore_fencedLinks (f c : Nat) (k : Core) : (s.setCore f c k).fencedLinks = s.fencedLinks := rfl
@[simp] theorem State.setCore_flits (f c : Nat) (k : Core) : (s.setCore f c k).flits = s.flits := rfl
@[simp] theorem State.setCore_staged (f c : Nat) (k : Core) : (s.setCore f c k).staged = s.staged := rfl
@[simp] theorem State.setCore_epochTick (f c : Nat) (k : Core) : (s.setCore f c k).epochTick = s.epochTick := rfl
@[simp] theorem State.setCore_epochDue (f c : Nat) (k : Core) : (s.setCore f c k).epochDue = s.epochDue := rfl
@[simp] theorem State.setCore_votedHolders (f c : Nat) (k : Core) : (s.setCore f c k).votedHolders = s.votedHolders := rfl
@[simp] theorem State.setCore_voteDelays (f c : Nat) (k : Core) : (s.setCore f c k).voteDelays = s.voteDelays := rfl
@[simp] theorem State.setCore_nextDelays (f c : Nat) (k : Core) : (s.setCore f c k).nextDelays = s.nextDelays := rfl
@[simp] theorem State.setCore_spares (f c : Nat) (k : Core) : (s.setCore f c k).spares = s.spares := rfl
@[simp] theorem State.setCore_mgmtReq (f c : Nat) (k : Core) : (s.setCore f c k).mgmtReq = s.mgmtReq := rfl
@[simp] theorem State.setCore_lineReads (f c : Nat) (k : Core) : (s.setCore f c k).lineReads = s.lineReads := rfl
@[simp] theorem State.setCore_farFields (f c : Nat) (k : Core) : (s.setCore f c k).farFields = s.farFields := rfl
@[simp] theorem State.setCore_farJobs (f c : Nat) (k : Core) : (s.setCore f c k).farJobs = s.farJobs := rfl
@[simp] theorem State.setCore_shares (f c : Nat) (k : Core) : (s.setCore f c k).shares = s.shares := rfl
@[simp] theorem State.setCore_positions (f c : Nat) (k : Core) : (s.setCore f c k).positions = s.positions := rfl
@[simp] theorem State.setCore_integ (f c : Nat) (k : Core) : (s.setCore f c k).integ = s.integ := rfl
@[simp] theorem State.setCore_cal (f c : Nat) (k : Core) : (s.setCore f c k).cal = s.cal := rfl
@[simp] theorem State.setCore_meter (f c : Nat) (k : Core) : (s.setCore f c k).meter = s.meter := rfl
@[simp] theorem State.setCore_cart (f c : Nat) (k : Core) : (s.setCore f c k).cart = s.cart := rfl
@[simp] theorem State.setCore_flashA (f c : Nat) (k : Core) : (s.setCore f c k).flashA = s.flashA := rfl
@[simp] theorem State.setCore_flashB (f c : Nat) (k : Core) : (s.setCore f c k).flashB = s.flashB := rfl
@[simp] theorem State.setCore_savedAt (f c : Nat) (k : Core) : (s.setCore f c k).savedAt = s.savedAt := rfl
@[simp] theorem State.setCore_fuses (f c : Nat) (k : Core) : (s.setCore f c k).fuses = s.fuses := rfl
@[simp] theorem State.setCore_domains (f c : Nat) (k : Core) : (s.setCore f c k).domains = s.domains := rfl
@[simp] theorem State.setCore_access (f c : Nat) (k : Core) : (s.setCore f c k).access = s.access := rfl
@[simp] theorem State.setCore_saved (f c : Nat) (k : Core) : (s.setCore f c k).saved = s.saved := rfl
@[simp] theorem State.setCore_areas (f c : Nat) (k : Core) : (s.setCore f c k).areas = s.areas := rfl
@[simp] theorem State.setCore_conns (f c : Nat) (k : Core) : (s.setCore f c k).conns = s.conns := rfl
@[simp] theorem State.setCore_jobs (f c : Nat) (k : Core) : (s.setCore f c k).jobs = s.jobs := rfl
@[simp] theorem State.setCore_works (f c : Nat) (k : Core) : (s.setCore f c k).works = s.works := rfl
@[simp] theorem State.setCore_nextJob (f c : Nat) (k : Core) : (s.setCore f c k).nextJob = s.nextJob := rfl
@[simp] theorem State.setCore_nextOrder (f c : Nat) (k : Core) : (s.setCore f c k).nextOrder = s.nextOrder := rfl
@[simp] theorem State.setCore_nextWork (f c : Nat) (k : Core) : (s.setCore f c k).nextWork = s.nextWork := rfl
@[simp] theorem State.setCore_nextIdent (f c : Nat) (k : Core) : (s.setCore f c k).nextIdent = s.nextIdent := rfl
@[simp] theorem State.setCore_out (f c : Nat) (k : Core) : (s.setCore f c k).out = s.out := rfl
@[simp] theorem State.setCore_free (f c : Nat) (k : Core) : (s.setCore f c k).free = s.free := rfl
@[simp] theorem State.setCore_pending (f c : Nat) (k : Core) : (s.setCore f c k).pending = s.pending := rfl

/-! ## updCore -/

@[simp] theorem State.updCore_regs (f c : Nat) (g : Core → Core) : (s.updCore f c g).regs = s.regs := rfl
@[simp] theorem State.updCore_now (f c : Nat) (g : Core → Core) : (s.updCore f c g).now = s.now := rfl
@[simp] theorem State.updCore_ups (f c : Nat) (g : Core → Core) : (s.updCore f c g).ups = s.ups := rfl
@[simp] theorem State.updCore_evr (f c : Nat) (g : Core → Core) : (s.updCore f c g).evr = s.evr := rfl
@[simp] theorem State.updCore_mem (f c : Nat) (g : Core → Core) : (s.updCore f c g).mem = s.mem := rfl
@[simp] theorem State.updCore_inject (f c : Nat) (g : Core → Core) : (s.updCore f c g).inject = s.inject := rfl
@[simp] theorem State.updCore_slots (f c : Nat) (g : Core → Core) : (s.updCore f c g).slots = s.slots := rfl
@[simp] theorem State.updCore_mmuCache (f c : Nat) (g : Core → Core) : (s.updCore f c g).mmuCache = s.mmuCache := rfl
@[simp] theorem State.updCore_remotes (f c : Nat) (g : Core → Core) : (s.updCore f c g).remotes = s.remotes := rfl
@[simp] theorem State.updCore_moverNext (f c : Nat) (g : Core → Core) : (s.updCore f c g).moverNext = s.moverNext := rfl
@[simp] theorem State.updCore_ccRecord (f c : Nat) (g : Core → Core) : (s.updCore f c g).ccRecord = s.ccRecord := rfl
@[simp] theorem State.updCore_nextTable (f c : Nat) (g : Core → Core) : (s.updCore f c g).nextTable = s.nextTable := rfl
@[simp] theorem State.updCore_nextTag (f c : Nat) (g : Core → Core) : (s.updCore f c g).nextTag = s.nextTag := rfl
@[simp] theorem State.updCore_movers (f c : Nat) (g : Core → Core) : (s.updCore f c g).movers = s.movers := rfl
@[simp] theorem State.updCore_links (f c : Nat) (g : Core → Core) : (s.updCore f c g).links = s.links := rfl
@[simp] theorem State.updCore_lanes (f c : Nat) (g : Core → Core) : (s.updCore f c g).lanes = s.lanes := rfl
@[simp] theorem State.updCore_deck (f c : Nat) (g : Core → Core) : (s.updCore f c g).deck = s.deck := rfl
@[simp] theorem State.updCore_axes (f c : Nat) (g : Core → Core) : (s.updCore f c g).axes = s.axes := rfl
@[simp] theorem State.updCore_time (f c : Nat) (g : Core → Core) : (s.updCore f c g).time = s.time := rfl
@[simp] theorem State.updCore_power (f c : Nat) (g : Core → Core) : (s.updCore f c g).power = s.power := rfl
@[simp] theorem State.updCore_colOps (f c : Nat) (g : Core → Core) : (s.updCore f c g).colOps = s.colOps := rfl
@[simp] theorem State.updCore_rotLast (f c : Nat) (g : Core → Core) : (s.updCore f c g).rotLast = s.rotLast := rfl
@[simp] theorem State.updCore_rotStep (f c : Nat) (g : Core → Core) : (s.updCore f c g).rotStep = s.rotStep := rfl
@[simp] theorem State.updCore_fencedLinks (f c : Nat) (g : Core → Core) : (s.updCore f c g).fencedLinks = s.fencedLinks := rfl
@[simp] theorem State.updCore_flits (f c : Nat) (g : Core → Core) : (s.updCore f c g).flits = s.flits := rfl
@[simp] theorem State.updCore_staged (f c : Nat) (g : Core → Core) : (s.updCore f c g).staged = s.staged := rfl
@[simp] theorem State.updCore_epochTick (f c : Nat) (g : Core → Core) : (s.updCore f c g).epochTick = s.epochTick := rfl
@[simp] theorem State.updCore_epochDue (f c : Nat) (g : Core → Core) : (s.updCore f c g).epochDue = s.epochDue := rfl
@[simp] theorem State.updCore_votedHolders (f c : Nat) (g : Core → Core) : (s.updCore f c g).votedHolders = s.votedHolders := rfl
@[simp] theorem State.updCore_voteDelays (f c : Nat) (g : Core → Core) : (s.updCore f c g).voteDelays = s.voteDelays := rfl
@[simp] theorem State.updCore_nextDelays (f c : Nat) (g : Core → Core) : (s.updCore f c g).nextDelays = s.nextDelays := rfl
@[simp] theorem State.updCore_spares (f c : Nat) (g : Core → Core) : (s.updCore f c g).spares = s.spares := rfl
@[simp] theorem State.updCore_mgmtReq (f c : Nat) (g : Core → Core) : (s.updCore f c g).mgmtReq = s.mgmtReq := rfl
@[simp] theorem State.updCore_lineReads (f c : Nat) (g : Core → Core) : (s.updCore f c g).lineReads = s.lineReads := rfl
@[simp] theorem State.updCore_farFields (f c : Nat) (g : Core → Core) : (s.updCore f c g).farFields = s.farFields := rfl
@[simp] theorem State.updCore_farJobs (f c : Nat) (g : Core → Core) : (s.updCore f c g).farJobs = s.farJobs := rfl
@[simp] theorem State.updCore_shares (f c : Nat) (g : Core → Core) : (s.updCore f c g).shares = s.shares := rfl
@[simp] theorem State.updCore_positions (f c : Nat) (g : Core → Core) : (s.updCore f c g).positions = s.positions := rfl
@[simp] theorem State.updCore_integ (f c : Nat) (g : Core → Core) : (s.updCore f c g).integ = s.integ := rfl
@[simp] theorem State.updCore_cal (f c : Nat) (g : Core → Core) : (s.updCore f c g).cal = s.cal := rfl
@[simp] theorem State.updCore_meter (f c : Nat) (g : Core → Core) : (s.updCore f c g).meter = s.meter := rfl
@[simp] theorem State.updCore_cart (f c : Nat) (g : Core → Core) : (s.updCore f c g).cart = s.cart := rfl
@[simp] theorem State.updCore_flashA (f c : Nat) (g : Core → Core) : (s.updCore f c g).flashA = s.flashA := rfl
@[simp] theorem State.updCore_flashB (f c : Nat) (g : Core → Core) : (s.updCore f c g).flashB = s.flashB := rfl
@[simp] theorem State.updCore_savedAt (f c : Nat) (g : Core → Core) : (s.updCore f c g).savedAt = s.savedAt := rfl
@[simp] theorem State.updCore_fuses (f c : Nat) (g : Core → Core) : (s.updCore f c g).fuses = s.fuses := rfl
@[simp] theorem State.updCore_domains (f c : Nat) (g : Core → Core) : (s.updCore f c g).domains = s.domains := rfl
@[simp] theorem State.updCore_access (f c : Nat) (g : Core → Core) : (s.updCore f c g).access = s.access := rfl
@[simp] theorem State.updCore_saved (f c : Nat) (g : Core → Core) : (s.updCore f c g).saved = s.saved := rfl
@[simp] theorem State.updCore_areas (f c : Nat) (g : Core → Core) : (s.updCore f c g).areas = s.areas := rfl
@[simp] theorem State.updCore_conns (f c : Nat) (g : Core → Core) : (s.updCore f c g).conns = s.conns := rfl
@[simp] theorem State.updCore_jobs (f c : Nat) (g : Core → Core) : (s.updCore f c g).jobs = s.jobs := rfl
@[simp] theorem State.updCore_works (f c : Nat) (g : Core → Core) : (s.updCore f c g).works = s.works := rfl
@[simp] theorem State.updCore_nextJob (f c : Nat) (g : Core → Core) : (s.updCore f c g).nextJob = s.nextJob := rfl
@[simp] theorem State.updCore_nextOrder (f c : Nat) (g : Core → Core) : (s.updCore f c g).nextOrder = s.nextOrder := rfl
@[simp] theorem State.updCore_nextWork (f c : Nat) (g : Core → Core) : (s.updCore f c g).nextWork = s.nextWork := rfl
@[simp] theorem State.updCore_nextIdent (f c : Nat) (g : Core → Core) : (s.updCore f c g).nextIdent = s.nextIdent := rfl
@[simp] theorem State.updCore_out (f c : Nat) (g : Core → Core) : (s.updCore f c g).out = s.out := rfl
@[simp] theorem State.updCore_free (f c : Nat) (g : Core → Core) : (s.updCore f c g).free = s.free := rfl
@[simp] theorem State.updCore_pending (f c : Nat) (g : Core → Core) : (s.updCore f c g).pending = s.pending := rfl

/-! ## setSlot -/

@[simp] theorem State.setSlot_regs (n : Nat) (v : Slot) : (s.setSlot n v).regs = s.regs := rfl
@[simp] theorem State.setSlot_now (n : Nat) (v : Slot) : (s.setSlot n v).now = s.now := rfl
@[simp] theorem State.setSlot_ups (n : Nat) (v : Slot) : (s.setSlot n v).ups = s.ups := rfl
@[simp] theorem State.setSlot_evr (n : Nat) (v : Slot) : (s.setSlot n v).evr = s.evr := rfl
@[simp] theorem State.setSlot_cores (n : Nat) (v : Slot) : (s.setSlot n v).cores = s.cores := rfl
@[simp] theorem State.setSlot_mem (n : Nat) (v : Slot) : (s.setSlot n v).mem = s.mem := rfl
@[simp] theorem State.setSlot_inject (n : Nat) (v : Slot) : (s.setSlot n v).inject = s.inject := rfl
@[simp] theorem State.setSlot_mmuCache (n : Nat) (v : Slot) : (s.setSlot n v).mmuCache = s.mmuCache := rfl
@[simp] theorem State.setSlot_remotes (n : Nat) (v : Slot) : (s.setSlot n v).remotes = s.remotes := rfl
@[simp] theorem State.setSlot_moverNext (n : Nat) (v : Slot) : (s.setSlot n v).moverNext = s.moverNext := rfl
@[simp] theorem State.setSlot_ccRecord (n : Nat) (v : Slot) : (s.setSlot n v).ccRecord = s.ccRecord := rfl
@[simp] theorem State.setSlot_nextTable (n : Nat) (v : Slot) : (s.setSlot n v).nextTable = s.nextTable := rfl
@[simp] theorem State.setSlot_nextTag (n : Nat) (v : Slot) : (s.setSlot n v).nextTag = s.nextTag := rfl
@[simp] theorem State.setSlot_movers (n : Nat) (v : Slot) : (s.setSlot n v).movers = s.movers := rfl
@[simp] theorem State.setSlot_links (n : Nat) (v : Slot) : (s.setSlot n v).links = s.links := rfl
@[simp] theorem State.setSlot_lanes (n : Nat) (v : Slot) : (s.setSlot n v).lanes = s.lanes := rfl
@[simp] theorem State.setSlot_deck (n : Nat) (v : Slot) : (s.setSlot n v).deck = s.deck := rfl
@[simp] theorem State.setSlot_axes (n : Nat) (v : Slot) : (s.setSlot n v).axes = s.axes := rfl
@[simp] theorem State.setSlot_time (n : Nat) (v : Slot) : (s.setSlot n v).time = s.time := rfl
@[simp] theorem State.setSlot_power (n : Nat) (v : Slot) : (s.setSlot n v).power = s.power := rfl
@[simp] theorem State.setSlot_colOps (n : Nat) (v : Slot) : (s.setSlot n v).colOps = s.colOps := rfl
@[simp] theorem State.setSlot_rotLast (n : Nat) (v : Slot) : (s.setSlot n v).rotLast = s.rotLast := rfl
@[simp] theorem State.setSlot_rotStep (n : Nat) (v : Slot) : (s.setSlot n v).rotStep = s.rotStep := rfl
@[simp] theorem State.setSlot_fencedLinks (n : Nat) (v : Slot) : (s.setSlot n v).fencedLinks = s.fencedLinks := rfl
@[simp] theorem State.setSlot_flits (n : Nat) (v : Slot) : (s.setSlot n v).flits = s.flits := rfl
@[simp] theorem State.setSlot_staged (n : Nat) (v : Slot) : (s.setSlot n v).staged = s.staged := rfl
@[simp] theorem State.setSlot_epochTick (n : Nat) (v : Slot) : (s.setSlot n v).epochTick = s.epochTick := rfl
@[simp] theorem State.setSlot_epochDue (n : Nat) (v : Slot) : (s.setSlot n v).epochDue = s.epochDue := rfl
@[simp] theorem State.setSlot_votedHolders (n : Nat) (v : Slot) : (s.setSlot n v).votedHolders = s.votedHolders := rfl
@[simp] theorem State.setSlot_voteDelays (n : Nat) (v : Slot) : (s.setSlot n v).voteDelays = s.voteDelays := rfl
@[simp] theorem State.setSlot_nextDelays (n : Nat) (v : Slot) : (s.setSlot n v).nextDelays = s.nextDelays := rfl
@[simp] theorem State.setSlot_spares (n : Nat) (v : Slot) : (s.setSlot n v).spares = s.spares := rfl
@[simp] theorem State.setSlot_mgmtReq (n : Nat) (v : Slot) : (s.setSlot n v).mgmtReq = s.mgmtReq := rfl
@[simp] theorem State.setSlot_lineReads (n : Nat) (v : Slot) : (s.setSlot n v).lineReads = s.lineReads := rfl
@[simp] theorem State.setSlot_farFields (n : Nat) (v : Slot) : (s.setSlot n v).farFields = s.farFields := rfl
@[simp] theorem State.setSlot_farJobs (n : Nat) (v : Slot) : (s.setSlot n v).farJobs = s.farJobs := rfl
@[simp] theorem State.setSlot_shares (n : Nat) (v : Slot) : (s.setSlot n v).shares = s.shares := rfl
@[simp] theorem State.setSlot_positions (n : Nat) (v : Slot) : (s.setSlot n v).positions = s.positions := rfl
@[simp] theorem State.setSlot_integ (n : Nat) (v : Slot) : (s.setSlot n v).integ = s.integ := rfl
@[simp] theorem State.setSlot_cal (n : Nat) (v : Slot) : (s.setSlot n v).cal = s.cal := rfl
@[simp] theorem State.setSlot_meter (n : Nat) (v : Slot) : (s.setSlot n v).meter = s.meter := rfl
@[simp] theorem State.setSlot_cart (n : Nat) (v : Slot) : (s.setSlot n v).cart = s.cart := rfl
@[simp] theorem State.setSlot_flashA (n : Nat) (v : Slot) : (s.setSlot n v).flashA = s.flashA := rfl
@[simp] theorem State.setSlot_flashB (n : Nat) (v : Slot) : (s.setSlot n v).flashB = s.flashB := rfl
@[simp] theorem State.setSlot_savedAt (n : Nat) (v : Slot) : (s.setSlot n v).savedAt = s.savedAt := rfl
@[simp] theorem State.setSlot_fuses (n : Nat) (v : Slot) : (s.setSlot n v).fuses = s.fuses := rfl
@[simp] theorem State.setSlot_domains (n : Nat) (v : Slot) : (s.setSlot n v).domains = s.domains := rfl
@[simp] theorem State.setSlot_access (n : Nat) (v : Slot) : (s.setSlot n v).access = s.access := rfl
@[simp] theorem State.setSlot_saved (n : Nat) (v : Slot) : (s.setSlot n v).saved = s.saved := rfl
@[simp] theorem State.setSlot_areas (n : Nat) (v : Slot) : (s.setSlot n v).areas = s.areas := rfl
@[simp] theorem State.setSlot_conns (n : Nat) (v : Slot) : (s.setSlot n v).conns = s.conns := rfl
@[simp] theorem State.setSlot_jobs (n : Nat) (v : Slot) : (s.setSlot n v).jobs = s.jobs := rfl
@[simp] theorem State.setSlot_works (n : Nat) (v : Slot) : (s.setSlot n v).works = s.works := rfl
@[simp] theorem State.setSlot_nextJob (n : Nat) (v : Slot) : (s.setSlot n v).nextJob = s.nextJob := rfl
@[simp] theorem State.setSlot_nextOrder (n : Nat) (v : Slot) : (s.setSlot n v).nextOrder = s.nextOrder := rfl
@[simp] theorem State.setSlot_nextWork (n : Nat) (v : Slot) : (s.setSlot n v).nextWork = s.nextWork := rfl
@[simp] theorem State.setSlot_nextIdent (n : Nat) (v : Slot) : (s.setSlot n v).nextIdent = s.nextIdent := rfl
@[simp] theorem State.setSlot_out (n : Nat) (v : Slot) : (s.setSlot n v).out = s.out := rfl
@[simp] theorem State.setSlot_free (n : Nat) (v : Slot) : (s.setSlot n v).free = s.free := rfl
@[simp] theorem State.setSlot_pending (n : Nat) (v : Slot) : (s.setSlot n v).pending = s.pending := rfl

/-! ## updSlot -/

@[simp] theorem State.updSlot_regs (n : Nat) (g : Slot → Slot) : (s.updSlot n g).regs = s.regs := rfl
@[simp] theorem State.updSlot_now (n : Nat) (g : Slot → Slot) : (s.updSlot n g).now = s.now := rfl
@[simp] theorem State.updSlot_ups (n : Nat) (g : Slot → Slot) : (s.updSlot n g).ups = s.ups := rfl
@[simp] theorem State.updSlot_evr (n : Nat) (g : Slot → Slot) : (s.updSlot n g).evr = s.evr := rfl
@[simp] theorem State.updSlot_cores (n : Nat) (g : Slot → Slot) : (s.updSlot n g).cores = s.cores := rfl
@[simp] theorem State.updSlot_mem (n : Nat) (g : Slot → Slot) : (s.updSlot n g).mem = s.mem := rfl
@[simp] theorem State.updSlot_inject (n : Nat) (g : Slot → Slot) : (s.updSlot n g).inject = s.inject := rfl
@[simp] theorem State.updSlot_mmuCache (n : Nat) (g : Slot → Slot) : (s.updSlot n g).mmuCache = s.mmuCache := rfl
@[simp] theorem State.updSlot_remotes (n : Nat) (g : Slot → Slot) : (s.updSlot n g).remotes = s.remotes := rfl
@[simp] theorem State.updSlot_moverNext (n : Nat) (g : Slot → Slot) : (s.updSlot n g).moverNext = s.moverNext := rfl
@[simp] theorem State.updSlot_ccRecord (n : Nat) (g : Slot → Slot) : (s.updSlot n g).ccRecord = s.ccRecord := rfl
@[simp] theorem State.updSlot_nextTable (n : Nat) (g : Slot → Slot) : (s.updSlot n g).nextTable = s.nextTable := rfl
@[simp] theorem State.updSlot_nextTag (n : Nat) (g : Slot → Slot) : (s.updSlot n g).nextTag = s.nextTag := rfl
@[simp] theorem State.updSlot_movers (n : Nat) (g : Slot → Slot) : (s.updSlot n g).movers = s.movers := rfl
@[simp] theorem State.updSlot_links (n : Nat) (g : Slot → Slot) : (s.updSlot n g).links = s.links := rfl
@[simp] theorem State.updSlot_lanes (n : Nat) (g : Slot → Slot) : (s.updSlot n g).lanes = s.lanes := rfl
@[simp] theorem State.updSlot_deck (n : Nat) (g : Slot → Slot) : (s.updSlot n g).deck = s.deck := rfl
@[simp] theorem State.updSlot_axes (n : Nat) (g : Slot → Slot) : (s.updSlot n g).axes = s.axes := rfl
@[simp] theorem State.updSlot_time (n : Nat) (g : Slot → Slot) : (s.updSlot n g).time = s.time := rfl
@[simp] theorem State.updSlot_power (n : Nat) (g : Slot → Slot) : (s.updSlot n g).power = s.power := rfl
@[simp] theorem State.updSlot_colOps (n : Nat) (g : Slot → Slot) : (s.updSlot n g).colOps = s.colOps := rfl
@[simp] theorem State.updSlot_rotLast (n : Nat) (g : Slot → Slot) : (s.updSlot n g).rotLast = s.rotLast := rfl
@[simp] theorem State.updSlot_rotStep (n : Nat) (g : Slot → Slot) : (s.updSlot n g).rotStep = s.rotStep := rfl
@[simp] theorem State.updSlot_fencedLinks (n : Nat) (g : Slot → Slot) : (s.updSlot n g).fencedLinks = s.fencedLinks := rfl
@[simp] theorem State.updSlot_flits (n : Nat) (g : Slot → Slot) : (s.updSlot n g).flits = s.flits := rfl
@[simp] theorem State.updSlot_staged (n : Nat) (g : Slot → Slot) : (s.updSlot n g).staged = s.staged := rfl
@[simp] theorem State.updSlot_epochTick (n : Nat) (g : Slot → Slot) : (s.updSlot n g).epochTick = s.epochTick := rfl
@[simp] theorem State.updSlot_epochDue (n : Nat) (g : Slot → Slot) : (s.updSlot n g).epochDue = s.epochDue := rfl
@[simp] theorem State.updSlot_votedHolders (n : Nat) (g : Slot → Slot) : (s.updSlot n g).votedHolders = s.votedHolders := rfl
@[simp] theorem State.updSlot_voteDelays (n : Nat) (g : Slot → Slot) : (s.updSlot n g).voteDelays = s.voteDelays := rfl
@[simp] theorem State.updSlot_nextDelays (n : Nat) (g : Slot → Slot) : (s.updSlot n g).nextDelays = s.nextDelays := rfl
@[simp] theorem State.updSlot_spares (n : Nat) (g : Slot → Slot) : (s.updSlot n g).spares = s.spares := rfl
@[simp] theorem State.updSlot_mgmtReq (n : Nat) (g : Slot → Slot) : (s.updSlot n g).mgmtReq = s.mgmtReq := rfl
@[simp] theorem State.updSlot_lineReads (n : Nat) (g : Slot → Slot) : (s.updSlot n g).lineReads = s.lineReads := rfl
@[simp] theorem State.updSlot_farFields (n : Nat) (g : Slot → Slot) : (s.updSlot n g).farFields = s.farFields := rfl
@[simp] theorem State.updSlot_farJobs (n : Nat) (g : Slot → Slot) : (s.updSlot n g).farJobs = s.farJobs := rfl
@[simp] theorem State.updSlot_shares (n : Nat) (g : Slot → Slot) : (s.updSlot n g).shares = s.shares := rfl
@[simp] theorem State.updSlot_positions (n : Nat) (g : Slot → Slot) : (s.updSlot n g).positions = s.positions := rfl
@[simp] theorem State.updSlot_integ (n : Nat) (g : Slot → Slot) : (s.updSlot n g).integ = s.integ := rfl
@[simp] theorem State.updSlot_cal (n : Nat) (g : Slot → Slot) : (s.updSlot n g).cal = s.cal := rfl
@[simp] theorem State.updSlot_meter (n : Nat) (g : Slot → Slot) : (s.updSlot n g).meter = s.meter := rfl
@[simp] theorem State.updSlot_cart (n : Nat) (g : Slot → Slot) : (s.updSlot n g).cart = s.cart := rfl
@[simp] theorem State.updSlot_flashA (n : Nat) (g : Slot → Slot) : (s.updSlot n g).flashA = s.flashA := rfl
@[simp] theorem State.updSlot_flashB (n : Nat) (g : Slot → Slot) : (s.updSlot n g).flashB = s.flashB := rfl
@[simp] theorem State.updSlot_savedAt (n : Nat) (g : Slot → Slot) : (s.updSlot n g).savedAt = s.savedAt := rfl
@[simp] theorem State.updSlot_fuses (n : Nat) (g : Slot → Slot) : (s.updSlot n g).fuses = s.fuses := rfl
@[simp] theorem State.updSlot_domains (n : Nat) (g : Slot → Slot) : (s.updSlot n g).domains = s.domains := rfl
@[simp] theorem State.updSlot_access (n : Nat) (g : Slot → Slot) : (s.updSlot n g).access = s.access := rfl
@[simp] theorem State.updSlot_saved (n : Nat) (g : Slot → Slot) : (s.updSlot n g).saved = s.saved := rfl
@[simp] theorem State.updSlot_areas (n : Nat) (g : Slot → Slot) : (s.updSlot n g).areas = s.areas := rfl
@[simp] theorem State.updSlot_conns (n : Nat) (g : Slot → Slot) : (s.updSlot n g).conns = s.conns := rfl
@[simp] theorem State.updSlot_jobs (n : Nat) (g : Slot → Slot) : (s.updSlot n g).jobs = s.jobs := rfl
@[simp] theorem State.updSlot_works (n : Nat) (g : Slot → Slot) : (s.updSlot n g).works = s.works := rfl
@[simp] theorem State.updSlot_nextJob (n : Nat) (g : Slot → Slot) : (s.updSlot n g).nextJob = s.nextJob := rfl
@[simp] theorem State.updSlot_nextOrder (n : Nat) (g : Slot → Slot) : (s.updSlot n g).nextOrder = s.nextOrder := rfl
@[simp] theorem State.updSlot_nextWork (n : Nat) (g : Slot → Slot) : (s.updSlot n g).nextWork = s.nextWork := rfl
@[simp] theorem State.updSlot_nextIdent (n : Nat) (g : Slot → Slot) : (s.updSlot n g).nextIdent = s.nextIdent := rfl
@[simp] theorem State.updSlot_out (n : Nat) (g : Slot → Slot) : (s.updSlot n g).out = s.out := rfl
@[simp] theorem State.updSlot_free (n : Nat) (g : Slot → Slot) : (s.updSlot n g).free = s.free := rfl
@[simp] theorem State.updSlot_pending (n : Nat) (g : Slot → Slot) : (s.updSlot n g).pending = s.pending := rfl

/-! ## setCache -/

@[simp] theorem State.setCache_regs (f : Nat) (c : List Leaf) : (s.setCache f c).regs = s.regs := rfl
@[simp] theorem State.setCache_now (f : Nat) (c : List Leaf) : (s.setCache f c).now = s.now := rfl
@[simp] theorem State.setCache_ups (f : Nat) (c : List Leaf) : (s.setCache f c).ups = s.ups := rfl
@[simp] theorem State.setCache_evr (f : Nat) (c : List Leaf) : (s.setCache f c).evr = s.evr := rfl
@[simp] theorem State.setCache_cores (f : Nat) (c : List Leaf) : (s.setCache f c).cores = s.cores := rfl
@[simp] theorem State.setCache_mem (f : Nat) (c : List Leaf) : (s.setCache f c).mem = s.mem := rfl
@[simp] theorem State.setCache_inject (f : Nat) (c : List Leaf) : (s.setCache f c).inject = s.inject := rfl
@[simp] theorem State.setCache_slots (f : Nat) (c : List Leaf) : (s.setCache f c).slots = s.slots := rfl
@[simp] theorem State.setCache_remotes (f : Nat) (c : List Leaf) : (s.setCache f c).remotes = s.remotes := rfl
@[simp] theorem State.setCache_moverNext (f : Nat) (c : List Leaf) : (s.setCache f c).moverNext = s.moverNext := rfl
@[simp] theorem State.setCache_ccRecord (f : Nat) (c : List Leaf) : (s.setCache f c).ccRecord = s.ccRecord := rfl
@[simp] theorem State.setCache_nextTable (f : Nat) (c : List Leaf) : (s.setCache f c).nextTable = s.nextTable := rfl
@[simp] theorem State.setCache_nextTag (f : Nat) (c : List Leaf) : (s.setCache f c).nextTag = s.nextTag := rfl
@[simp] theorem State.setCache_movers (f : Nat) (c : List Leaf) : (s.setCache f c).movers = s.movers := rfl
@[simp] theorem State.setCache_links (f : Nat) (c : List Leaf) : (s.setCache f c).links = s.links := rfl
@[simp] theorem State.setCache_lanes (f : Nat) (c : List Leaf) : (s.setCache f c).lanes = s.lanes := rfl
@[simp] theorem State.setCache_deck (f : Nat) (c : List Leaf) : (s.setCache f c).deck = s.deck := rfl
@[simp] theorem State.setCache_axes (f : Nat) (c : List Leaf) : (s.setCache f c).axes = s.axes := rfl
@[simp] theorem State.setCache_time (f : Nat) (c : List Leaf) : (s.setCache f c).time = s.time := rfl
@[simp] theorem State.setCache_power (f : Nat) (c : List Leaf) : (s.setCache f c).power = s.power := rfl
@[simp] theorem State.setCache_colOps (f : Nat) (c : List Leaf) : (s.setCache f c).colOps = s.colOps := rfl
@[simp] theorem State.setCache_rotLast (f : Nat) (c : List Leaf) : (s.setCache f c).rotLast = s.rotLast := rfl
@[simp] theorem State.setCache_rotStep (f : Nat) (c : List Leaf) : (s.setCache f c).rotStep = s.rotStep := rfl
@[simp] theorem State.setCache_fencedLinks (f : Nat) (c : List Leaf) : (s.setCache f c).fencedLinks = s.fencedLinks := rfl
@[simp] theorem State.setCache_flits (f : Nat) (c : List Leaf) : (s.setCache f c).flits = s.flits := rfl
@[simp] theorem State.setCache_staged (f : Nat) (c : List Leaf) : (s.setCache f c).staged = s.staged := rfl
@[simp] theorem State.setCache_epochTick (f : Nat) (c : List Leaf) : (s.setCache f c).epochTick = s.epochTick := rfl
@[simp] theorem State.setCache_epochDue (f : Nat) (c : List Leaf) : (s.setCache f c).epochDue = s.epochDue := rfl
@[simp] theorem State.setCache_votedHolders (f : Nat) (c : List Leaf) : (s.setCache f c).votedHolders = s.votedHolders := rfl
@[simp] theorem State.setCache_voteDelays (f : Nat) (c : List Leaf) : (s.setCache f c).voteDelays = s.voteDelays := rfl
@[simp] theorem State.setCache_nextDelays (f : Nat) (c : List Leaf) : (s.setCache f c).nextDelays = s.nextDelays := rfl
@[simp] theorem State.setCache_spares (f : Nat) (c : List Leaf) : (s.setCache f c).spares = s.spares := rfl
@[simp] theorem State.setCache_mgmtReq (f : Nat) (c : List Leaf) : (s.setCache f c).mgmtReq = s.mgmtReq := rfl
@[simp] theorem State.setCache_lineReads (f : Nat) (c : List Leaf) : (s.setCache f c).lineReads = s.lineReads := rfl
@[simp] theorem State.setCache_farFields (f : Nat) (c : List Leaf) : (s.setCache f c).farFields = s.farFields := rfl
@[simp] theorem State.setCache_farJobs (f : Nat) (c : List Leaf) : (s.setCache f c).farJobs = s.farJobs := rfl
@[simp] theorem State.setCache_shares (f : Nat) (c : List Leaf) : (s.setCache f c).shares = s.shares := rfl
@[simp] theorem State.setCache_positions (f : Nat) (c : List Leaf) : (s.setCache f c).positions = s.positions := rfl
@[simp] theorem State.setCache_integ (f : Nat) (c : List Leaf) : (s.setCache f c).integ = s.integ := rfl
@[simp] theorem State.setCache_cal (f : Nat) (c : List Leaf) : (s.setCache f c).cal = s.cal := rfl
@[simp] theorem State.setCache_meter (f : Nat) (c : List Leaf) : (s.setCache f c).meter = s.meter := rfl
@[simp] theorem State.setCache_cart (f : Nat) (c : List Leaf) : (s.setCache f c).cart = s.cart := rfl
@[simp] theorem State.setCache_flashA (f : Nat) (c : List Leaf) : (s.setCache f c).flashA = s.flashA := rfl
@[simp] theorem State.setCache_flashB (f : Nat) (c : List Leaf) : (s.setCache f c).flashB = s.flashB := rfl
@[simp] theorem State.setCache_savedAt (f : Nat) (c : List Leaf) : (s.setCache f c).savedAt = s.savedAt := rfl
@[simp] theorem State.setCache_fuses (f : Nat) (c : List Leaf) : (s.setCache f c).fuses = s.fuses := rfl
@[simp] theorem State.setCache_domains (f : Nat) (c : List Leaf) : (s.setCache f c).domains = s.domains := rfl
@[simp] theorem State.setCache_access (f : Nat) (c : List Leaf) : (s.setCache f c).access = s.access := rfl
@[simp] theorem State.setCache_saved (f : Nat) (c : List Leaf) : (s.setCache f c).saved = s.saved := rfl
@[simp] theorem State.setCache_areas (f : Nat) (c : List Leaf) : (s.setCache f c).areas = s.areas := rfl
@[simp] theorem State.setCache_conns (f : Nat) (c : List Leaf) : (s.setCache f c).conns = s.conns := rfl
@[simp] theorem State.setCache_jobs (f : Nat) (c : List Leaf) : (s.setCache f c).jobs = s.jobs := rfl
@[simp] theorem State.setCache_works (f : Nat) (c : List Leaf) : (s.setCache f c).works = s.works := rfl
@[simp] theorem State.setCache_nextJob (f : Nat) (c : List Leaf) : (s.setCache f c).nextJob = s.nextJob := rfl
@[simp] theorem State.setCache_nextOrder (f : Nat) (c : List Leaf) : (s.setCache f c).nextOrder = s.nextOrder := rfl
@[simp] theorem State.setCache_nextWork (f : Nat) (c : List Leaf) : (s.setCache f c).nextWork = s.nextWork := rfl
@[simp] theorem State.setCache_nextIdent (f : Nat) (c : List Leaf) : (s.setCache f c).nextIdent = s.nextIdent := rfl
@[simp] theorem State.setCache_out (f : Nat) (c : List Leaf) : (s.setCache f c).out = s.out := rfl
@[simp] theorem State.setCache_free (f : Nat) (c : List Leaf) : (s.setCache f c).free = s.free := rfl
@[simp] theorem State.setCache_pending (f : Nat) (c : List Leaf) : (s.setCache f c).pending = s.pending := rfl

/-! ## setMover -/

@[simp] theorem State.setMover_regs (f m : Nat) (v : Mover) : (s.setMover f m v).regs = s.regs := rfl
@[simp] theorem State.setMover_now (f m : Nat) (v : Mover) : (s.setMover f m v).now = s.now := rfl
@[simp] theorem State.setMover_ups (f m : Nat) (v : Mover) : (s.setMover f m v).ups = s.ups := rfl
@[simp] theorem State.setMover_evr (f m : Nat) (v : Mover) : (s.setMover f m v).evr = s.evr := rfl
@[simp] theorem State.setMover_cores (f m : Nat) (v : Mover) : (s.setMover f m v).cores = s.cores := rfl
@[simp] theorem State.setMover_mem (f m : Nat) (v : Mover) : (s.setMover f m v).mem = s.mem := rfl
@[simp] theorem State.setMover_inject (f m : Nat) (v : Mover) : (s.setMover f m v).inject = s.inject := rfl
@[simp] theorem State.setMover_slots (f m : Nat) (v : Mover) : (s.setMover f m v).slots = s.slots := rfl
@[simp] theorem State.setMover_mmuCache (f m : Nat) (v : Mover) : (s.setMover f m v).mmuCache = s.mmuCache := rfl
@[simp] theorem State.setMover_remotes (f m : Nat) (v : Mover) : (s.setMover f m v).remotes = s.remotes := rfl
@[simp] theorem State.setMover_moverNext (f m : Nat) (v : Mover) : (s.setMover f m v).moverNext = s.moverNext := rfl
@[simp] theorem State.setMover_ccRecord (f m : Nat) (v : Mover) : (s.setMover f m v).ccRecord = s.ccRecord := rfl
@[simp] theorem State.setMover_nextTable (f m : Nat) (v : Mover) : (s.setMover f m v).nextTable = s.nextTable := rfl
@[simp] theorem State.setMover_nextTag (f m : Nat) (v : Mover) : (s.setMover f m v).nextTag = s.nextTag := rfl
@[simp] theorem State.setMover_links (f m : Nat) (v : Mover) : (s.setMover f m v).links = s.links := rfl
@[simp] theorem State.setMover_lanes (f m : Nat) (v : Mover) : (s.setMover f m v).lanes = s.lanes := rfl
@[simp] theorem State.setMover_deck (f m : Nat) (v : Mover) : (s.setMover f m v).deck = s.deck := rfl
@[simp] theorem State.setMover_axes (f m : Nat) (v : Mover) : (s.setMover f m v).axes = s.axes := rfl
@[simp] theorem State.setMover_time (f m : Nat) (v : Mover) : (s.setMover f m v).time = s.time := rfl
@[simp] theorem State.setMover_power (f m : Nat) (v : Mover) : (s.setMover f m v).power = s.power := rfl
@[simp] theorem State.setMover_colOps (f m : Nat) (v : Mover) : (s.setMover f m v).colOps = s.colOps := rfl
@[simp] theorem State.setMover_rotLast (f m : Nat) (v : Mover) : (s.setMover f m v).rotLast = s.rotLast := rfl
@[simp] theorem State.setMover_rotStep (f m : Nat) (v : Mover) : (s.setMover f m v).rotStep = s.rotStep := rfl
@[simp] theorem State.setMover_fencedLinks (f m : Nat) (v : Mover) : (s.setMover f m v).fencedLinks = s.fencedLinks := rfl
@[simp] theorem State.setMover_flits (f m : Nat) (v : Mover) : (s.setMover f m v).flits = s.flits := rfl
@[simp] theorem State.setMover_staged (f m : Nat) (v : Mover) : (s.setMover f m v).staged = s.staged := rfl
@[simp] theorem State.setMover_epochTick (f m : Nat) (v : Mover) : (s.setMover f m v).epochTick = s.epochTick := rfl
@[simp] theorem State.setMover_epochDue (f m : Nat) (v : Mover) : (s.setMover f m v).epochDue = s.epochDue := rfl
@[simp] theorem State.setMover_votedHolders (f m : Nat) (v : Mover) : (s.setMover f m v).votedHolders = s.votedHolders := rfl
@[simp] theorem State.setMover_voteDelays (f m : Nat) (v : Mover) : (s.setMover f m v).voteDelays = s.voteDelays := rfl
@[simp] theorem State.setMover_nextDelays (f m : Nat) (v : Mover) : (s.setMover f m v).nextDelays = s.nextDelays := rfl
@[simp] theorem State.setMover_spares (f m : Nat) (v : Mover) : (s.setMover f m v).spares = s.spares := rfl
@[simp] theorem State.setMover_mgmtReq (f m : Nat) (v : Mover) : (s.setMover f m v).mgmtReq = s.mgmtReq := rfl
@[simp] theorem State.setMover_lineReads (f m : Nat) (v : Mover) : (s.setMover f m v).lineReads = s.lineReads := rfl
@[simp] theorem State.setMover_farFields (f m : Nat) (v : Mover) : (s.setMover f m v).farFields = s.farFields := rfl
@[simp] theorem State.setMover_farJobs (f m : Nat) (v : Mover) : (s.setMover f m v).farJobs = s.farJobs := rfl
@[simp] theorem State.setMover_shares (f m : Nat) (v : Mover) : (s.setMover f m v).shares = s.shares := rfl
@[simp] theorem State.setMover_positions (f m : Nat) (v : Mover) : (s.setMover f m v).positions = s.positions := rfl
@[simp] theorem State.setMover_integ (f m : Nat) (v : Mover) : (s.setMover f m v).integ = s.integ := rfl
@[simp] theorem State.setMover_cal (f m : Nat) (v : Mover) : (s.setMover f m v).cal = s.cal := rfl
@[simp] theorem State.setMover_meter (f m : Nat) (v : Mover) : (s.setMover f m v).meter = s.meter := rfl
@[simp] theorem State.setMover_cart (f m : Nat) (v : Mover) : (s.setMover f m v).cart = s.cart := rfl
@[simp] theorem State.setMover_flashA (f m : Nat) (v : Mover) : (s.setMover f m v).flashA = s.flashA := rfl
@[simp] theorem State.setMover_flashB (f m : Nat) (v : Mover) : (s.setMover f m v).flashB = s.flashB := rfl
@[simp] theorem State.setMover_savedAt (f m : Nat) (v : Mover) : (s.setMover f m v).savedAt = s.savedAt := rfl
@[simp] theorem State.setMover_fuses (f m : Nat) (v : Mover) : (s.setMover f m v).fuses = s.fuses := rfl
@[simp] theorem State.setMover_domains (f m : Nat) (v : Mover) : (s.setMover f m v).domains = s.domains := rfl
@[simp] theorem State.setMover_access (f m : Nat) (v : Mover) : (s.setMover f m v).access = s.access := rfl
@[simp] theorem State.setMover_saved (f m : Nat) (v : Mover) : (s.setMover f m v).saved = s.saved := rfl
@[simp] theorem State.setMover_areas (f m : Nat) (v : Mover) : (s.setMover f m v).areas = s.areas := rfl
@[simp] theorem State.setMover_conns (f m : Nat) (v : Mover) : (s.setMover f m v).conns = s.conns := rfl
@[simp] theorem State.setMover_jobs (f m : Nat) (v : Mover) : (s.setMover f m v).jobs = s.jobs := rfl
@[simp] theorem State.setMover_works (f m : Nat) (v : Mover) : (s.setMover f m v).works = s.works := rfl
@[simp] theorem State.setMover_nextJob (f m : Nat) (v : Mover) : (s.setMover f m v).nextJob = s.nextJob := rfl
@[simp] theorem State.setMover_nextOrder (f m : Nat) (v : Mover) : (s.setMover f m v).nextOrder = s.nextOrder := rfl
@[simp] theorem State.setMover_nextWork (f m : Nat) (v : Mover) : (s.setMover f m v).nextWork = s.nextWork := rfl
@[simp] theorem State.setMover_nextIdent (f m : Nat) (v : Mover) : (s.setMover f m v).nextIdent = s.nextIdent := rfl
@[simp] theorem State.setMover_out (f m : Nat) (v : Mover) : (s.setMover f m v).out = s.out := rfl
@[simp] theorem State.setMover_free (f m : Nat) (v : Mover) : (s.setMover f m v).free = s.free := rfl
@[simp] theorem State.setMover_pending (f m : Nat) (v : Mover) : (s.setMover f m v).pending = s.pending := rfl

/-! ## updMover -/

@[simp] theorem State.updMover_regs (f m : Nat) (g : Mover → Mover) : (s.updMover f m g).regs = s.regs := rfl
@[simp] theorem State.updMover_now (f m : Nat) (g : Mover → Mover) : (s.updMover f m g).now = s.now := rfl
@[simp] theorem State.updMover_ups (f m : Nat) (g : Mover → Mover) : (s.updMover f m g).ups = s.ups := rfl
@[simp] theorem State.updMover_evr (f m : Nat) (g : Mover → Mover) : (s.updMover f m g).evr = s.evr := rfl
@[simp] theorem State.updMover_cores (f m : Nat) (g : Mover → Mover) : (s.updMover f m g).cores = s.cores := rfl
@[simp] theorem State.updMover_mem (f m : Nat) (g : Mover → Mover) : (s.updMover f m g).mem = s.mem := rfl
@[simp] theorem State.updMover_inject (f m : Nat) (g : Mover → Mover) : (s.updMover f m g).inject = s.inject := rfl
@[simp] theorem State.updMover_slots (f m : Nat) (g : Mover → Mover) : (s.updMover f m g).slots = s.slots := rfl
@[simp] theorem State.updMover_mmuCache (f m : Nat) (g : Mover → Mover) : (s.updMover f m g).mmuCache = s.mmuCache := rfl
@[simp] theorem State.updMover_remotes (f m : Nat) (g : Mover → Mover) : (s.updMover f m g).remotes = s.remotes := rfl
@[simp] theorem State.updMover_moverNext (f m : Nat) (g : Mover → Mover) : (s.updMover f m g).moverNext = s.moverNext := rfl
@[simp] theorem State.updMover_ccRecord (f m : Nat) (g : Mover → Mover) : (s.updMover f m g).ccRecord = s.ccRecord := rfl
@[simp] theorem State.updMover_nextTable (f m : Nat) (g : Mover → Mover) : (s.updMover f m g).nextTable = s.nextTable := rfl
@[simp] theorem State.updMover_nextTag (f m : Nat) (g : Mover → Mover) : (s.updMover f m g).nextTag = s.nextTag := rfl
@[simp] theorem State.updMover_links (f m : Nat) (g : Mover → Mover) : (s.updMover f m g).links = s.links := rfl
@[simp] theorem State.updMover_lanes (f m : Nat) (g : Mover → Mover) : (s.updMover f m g).lanes = s.lanes := rfl
@[simp] theorem State.updMover_deck (f m : Nat) (g : Mover → Mover) : (s.updMover f m g).deck = s.deck := rfl
@[simp] theorem State.updMover_axes (f m : Nat) (g : Mover → Mover) : (s.updMover f m g).axes = s.axes := rfl
@[simp] theorem State.updMover_time (f m : Nat) (g : Mover → Mover) : (s.updMover f m g).time = s.time := rfl
@[simp] theorem State.updMover_power (f m : Nat) (g : Mover → Mover) : (s.updMover f m g).power = s.power := rfl
@[simp] theorem State.updMover_colOps (f m : Nat) (g : Mover → Mover) : (s.updMover f m g).colOps = s.colOps := rfl
@[simp] theorem State.updMover_rotLast (f m : Nat) (g : Mover → Mover) : (s.updMover f m g).rotLast = s.rotLast := rfl
@[simp] theorem State.updMover_rotStep (f m : Nat) (g : Mover → Mover) : (s.updMover f m g).rotStep = s.rotStep := rfl
@[simp] theorem State.updMover_fencedLinks (f m : Nat) (g : Mover → Mover) : (s.updMover f m g).fencedLinks = s.fencedLinks := rfl
@[simp] theorem State.updMover_flits (f m : Nat) (g : Mover → Mover) : (s.updMover f m g).flits = s.flits := rfl
@[simp] theorem State.updMover_staged (f m : Nat) (g : Mover → Mover) : (s.updMover f m g).staged = s.staged := rfl
@[simp] theorem State.updMover_epochTick (f m : Nat) (g : Mover → Mover) : (s.updMover f m g).epochTick = s.epochTick := rfl
@[simp] theorem State.updMover_epochDue (f m : Nat) (g : Mover → Mover) : (s.updMover f m g).epochDue = s.epochDue := rfl
@[simp] theorem State.updMover_votedHolders (f m : Nat) (g : Mover → Mover) : (s.updMover f m g).votedHolders = s.votedHolders := rfl
@[simp] theorem State.updMover_voteDelays (f m : Nat) (g : Mover → Mover) : (s.updMover f m g).voteDelays = s.voteDelays := rfl
@[simp] theorem State.updMover_nextDelays (f m : Nat) (g : Mover → Mover) : (s.updMover f m g).nextDelays = s.nextDelays := rfl
@[simp] theorem State.updMover_spares (f m : Nat) (g : Mover → Mover) : (s.updMover f m g).spares = s.spares := rfl
@[simp] theorem State.updMover_mgmtReq (f m : Nat) (g : Mover → Mover) : (s.updMover f m g).mgmtReq = s.mgmtReq := rfl
@[simp] theorem State.updMover_lineReads (f m : Nat) (g : Mover → Mover) : (s.updMover f m g).lineReads = s.lineReads := rfl
@[simp] theorem State.updMover_farFields (f m : Nat) (g : Mover → Mover) : (s.updMover f m g).farFields = s.farFields := rfl
@[simp] theorem State.updMover_farJobs (f m : Nat) (g : Mover → Mover) : (s.updMover f m g).farJobs = s.farJobs := rfl
@[simp] theorem State.updMover_shares (f m : Nat) (g : Mover → Mover) : (s.updMover f m g).shares = s.shares := rfl
@[simp] theorem State.updMover_positions (f m : Nat) (g : Mover → Mover) : (s.updMover f m g).positions = s.positions := rfl
@[simp] theorem State.updMover_integ (f m : Nat) (g : Mover → Mover) : (s.updMover f m g).integ = s.integ := rfl
@[simp] theorem State.updMover_cal (f m : Nat) (g : Mover → Mover) : (s.updMover f m g).cal = s.cal := rfl
@[simp] theorem State.updMover_meter (f m : Nat) (g : Mover → Mover) : (s.updMover f m g).meter = s.meter := rfl
@[simp] theorem State.updMover_cart (f m : Nat) (g : Mover → Mover) : (s.updMover f m g).cart = s.cart := rfl
@[simp] theorem State.updMover_flashA (f m : Nat) (g : Mover → Mover) : (s.updMover f m g).flashA = s.flashA := rfl
@[simp] theorem State.updMover_flashB (f m : Nat) (g : Mover → Mover) : (s.updMover f m g).flashB = s.flashB := rfl
@[simp] theorem State.updMover_savedAt (f m : Nat) (g : Mover → Mover) : (s.updMover f m g).savedAt = s.savedAt := rfl
@[simp] theorem State.updMover_fuses (f m : Nat) (g : Mover → Mover) : (s.updMover f m g).fuses = s.fuses := rfl
@[simp] theorem State.updMover_domains (f m : Nat) (g : Mover → Mover) : (s.updMover f m g).domains = s.domains := rfl
@[simp] theorem State.updMover_access (f m : Nat) (g : Mover → Mover) : (s.updMover f m g).access = s.access := rfl
@[simp] theorem State.updMover_saved (f m : Nat) (g : Mover → Mover) : (s.updMover f m g).saved = s.saved := rfl
@[simp] theorem State.updMover_areas (f m : Nat) (g : Mover → Mover) : (s.updMover f m g).areas = s.areas := rfl
@[simp] theorem State.updMover_conns (f m : Nat) (g : Mover → Mover) : (s.updMover f m g).conns = s.conns := rfl
@[simp] theorem State.updMover_jobs (f m : Nat) (g : Mover → Mover) : (s.updMover f m g).jobs = s.jobs := rfl
@[simp] theorem State.updMover_works (f m : Nat) (g : Mover → Mover) : (s.updMover f m g).works = s.works := rfl
@[simp] theorem State.updMover_nextJob (f m : Nat) (g : Mover → Mover) : (s.updMover f m g).nextJob = s.nextJob := rfl
@[simp] theorem State.updMover_nextOrder (f m : Nat) (g : Mover → Mover) : (s.updMover f m g).nextOrder = s.nextOrder := rfl
@[simp] theorem State.updMover_nextWork (f m : Nat) (g : Mover → Mover) : (s.updMover f m g).nextWork = s.nextWork := rfl
@[simp] theorem State.updMover_nextIdent (f m : Nat) (g : Mover → Mover) : (s.updMover f m g).nextIdent = s.nextIdent := rfl
@[simp] theorem State.updMover_out (f m : Nat) (g : Mover → Mover) : (s.updMover f m g).out = s.out := rfl
@[simp] theorem State.updMover_free (f m : Nat) (g : Mover → Mover) : (s.updMover f m g).free = s.free := rfl
@[simp] theorem State.updMover_pending (f m : Nat) (g : Mover → Mover) : (s.updMover f m g).pending = s.pending := rfl

/-! ## updLink -/

@[simp] theorem State.updLink_regs (n : Nat) (g : Link → Link) : (s.updLink n g).regs = s.regs := rfl
@[simp] theorem State.updLink_now (n : Nat) (g : Link → Link) : (s.updLink n g).now = s.now := rfl
@[simp] theorem State.updLink_ups (n : Nat) (g : Link → Link) : (s.updLink n g).ups = s.ups := rfl
@[simp] theorem State.updLink_evr (n : Nat) (g : Link → Link) : (s.updLink n g).evr = s.evr := rfl
@[simp] theorem State.updLink_cores (n : Nat) (g : Link → Link) : (s.updLink n g).cores = s.cores := rfl
@[simp] theorem State.updLink_mem (n : Nat) (g : Link → Link) : (s.updLink n g).mem = s.mem := rfl
@[simp] theorem State.updLink_inject (n : Nat) (g : Link → Link) : (s.updLink n g).inject = s.inject := rfl
@[simp] theorem State.updLink_slots (n : Nat) (g : Link → Link) : (s.updLink n g).slots = s.slots := rfl
@[simp] theorem State.updLink_mmuCache (n : Nat) (g : Link → Link) : (s.updLink n g).mmuCache = s.mmuCache := rfl
@[simp] theorem State.updLink_remotes (n : Nat) (g : Link → Link) : (s.updLink n g).remotes = s.remotes := rfl
@[simp] theorem State.updLink_moverNext (n : Nat) (g : Link → Link) : (s.updLink n g).moverNext = s.moverNext := rfl
@[simp] theorem State.updLink_ccRecord (n : Nat) (g : Link → Link) : (s.updLink n g).ccRecord = s.ccRecord := rfl
@[simp] theorem State.updLink_nextTable (n : Nat) (g : Link → Link) : (s.updLink n g).nextTable = s.nextTable := rfl
@[simp] theorem State.updLink_nextTag (n : Nat) (g : Link → Link) : (s.updLink n g).nextTag = s.nextTag := rfl
@[simp] theorem State.updLink_movers (n : Nat) (g : Link → Link) : (s.updLink n g).movers = s.movers := rfl
@[simp] theorem State.updLink_lanes (n : Nat) (g : Link → Link) : (s.updLink n g).lanes = s.lanes := rfl
@[simp] theorem State.updLink_deck (n : Nat) (g : Link → Link) : (s.updLink n g).deck = s.deck := rfl
@[simp] theorem State.updLink_axes (n : Nat) (g : Link → Link) : (s.updLink n g).axes = s.axes := rfl
@[simp] theorem State.updLink_time (n : Nat) (g : Link → Link) : (s.updLink n g).time = s.time := rfl
@[simp] theorem State.updLink_power (n : Nat) (g : Link → Link) : (s.updLink n g).power = s.power := rfl
@[simp] theorem State.updLink_colOps (n : Nat) (g : Link → Link) : (s.updLink n g).colOps = s.colOps := rfl
@[simp] theorem State.updLink_rotLast (n : Nat) (g : Link → Link) : (s.updLink n g).rotLast = s.rotLast := rfl
@[simp] theorem State.updLink_rotStep (n : Nat) (g : Link → Link) : (s.updLink n g).rotStep = s.rotStep := rfl
@[simp] theorem State.updLink_fencedLinks (n : Nat) (g : Link → Link) : (s.updLink n g).fencedLinks = s.fencedLinks := rfl
@[simp] theorem State.updLink_flits (n : Nat) (g : Link → Link) : (s.updLink n g).flits = s.flits := rfl
@[simp] theorem State.updLink_staged (n : Nat) (g : Link → Link) : (s.updLink n g).staged = s.staged := rfl
@[simp] theorem State.updLink_epochTick (n : Nat) (g : Link → Link) : (s.updLink n g).epochTick = s.epochTick := rfl
@[simp] theorem State.updLink_epochDue (n : Nat) (g : Link → Link) : (s.updLink n g).epochDue = s.epochDue := rfl
@[simp] theorem State.updLink_votedHolders (n : Nat) (g : Link → Link) : (s.updLink n g).votedHolders = s.votedHolders := rfl
@[simp] theorem State.updLink_voteDelays (n : Nat) (g : Link → Link) : (s.updLink n g).voteDelays = s.voteDelays := rfl
@[simp] theorem State.updLink_nextDelays (n : Nat) (g : Link → Link) : (s.updLink n g).nextDelays = s.nextDelays := rfl
@[simp] theorem State.updLink_spares (n : Nat) (g : Link → Link) : (s.updLink n g).spares = s.spares := rfl
@[simp] theorem State.updLink_mgmtReq (n : Nat) (g : Link → Link) : (s.updLink n g).mgmtReq = s.mgmtReq := rfl
@[simp] theorem State.updLink_lineReads (n : Nat) (g : Link → Link) : (s.updLink n g).lineReads = s.lineReads := rfl
@[simp] theorem State.updLink_farFields (n : Nat) (g : Link → Link) : (s.updLink n g).farFields = s.farFields := rfl
@[simp] theorem State.updLink_farJobs (n : Nat) (g : Link → Link) : (s.updLink n g).farJobs = s.farJobs := rfl
@[simp] theorem State.updLink_shares (n : Nat) (g : Link → Link) : (s.updLink n g).shares = s.shares := rfl
@[simp] theorem State.updLink_positions (n : Nat) (g : Link → Link) : (s.updLink n g).positions = s.positions := rfl
@[simp] theorem State.updLink_integ (n : Nat) (g : Link → Link) : (s.updLink n g).integ = s.integ := rfl
@[simp] theorem State.updLink_cal (n : Nat) (g : Link → Link) : (s.updLink n g).cal = s.cal := rfl
@[simp] theorem State.updLink_meter (n : Nat) (g : Link → Link) : (s.updLink n g).meter = s.meter := rfl
@[simp] theorem State.updLink_cart (n : Nat) (g : Link → Link) : (s.updLink n g).cart = s.cart := rfl
@[simp] theorem State.updLink_flashA (n : Nat) (g : Link → Link) : (s.updLink n g).flashA = s.flashA := rfl
@[simp] theorem State.updLink_flashB (n : Nat) (g : Link → Link) : (s.updLink n g).flashB = s.flashB := rfl
@[simp] theorem State.updLink_savedAt (n : Nat) (g : Link → Link) : (s.updLink n g).savedAt = s.savedAt := rfl
@[simp] theorem State.updLink_fuses (n : Nat) (g : Link → Link) : (s.updLink n g).fuses = s.fuses := rfl
@[simp] theorem State.updLink_domains (n : Nat) (g : Link → Link) : (s.updLink n g).domains = s.domains := rfl
@[simp] theorem State.updLink_access (n : Nat) (g : Link → Link) : (s.updLink n g).access = s.access := rfl
@[simp] theorem State.updLink_saved (n : Nat) (g : Link → Link) : (s.updLink n g).saved = s.saved := rfl
@[simp] theorem State.updLink_areas (n : Nat) (g : Link → Link) : (s.updLink n g).areas = s.areas := rfl
@[simp] theorem State.updLink_conns (n : Nat) (g : Link → Link) : (s.updLink n g).conns = s.conns := rfl
@[simp] theorem State.updLink_jobs (n : Nat) (g : Link → Link) : (s.updLink n g).jobs = s.jobs := rfl
@[simp] theorem State.updLink_works (n : Nat) (g : Link → Link) : (s.updLink n g).works = s.works := rfl
@[simp] theorem State.updLink_nextJob (n : Nat) (g : Link → Link) : (s.updLink n g).nextJob = s.nextJob := rfl
@[simp] theorem State.updLink_nextOrder (n : Nat) (g : Link → Link) : (s.updLink n g).nextOrder = s.nextOrder := rfl
@[simp] theorem State.updLink_nextWork (n : Nat) (g : Link → Link) : (s.updLink n g).nextWork = s.nextWork := rfl
@[simp] theorem State.updLink_nextIdent (n : Nat) (g : Link → Link) : (s.updLink n g).nextIdent = s.nextIdent := rfl
@[simp] theorem State.updLink_out (n : Nat) (g : Link → Link) : (s.updLink n g).out = s.out := rfl
@[simp] theorem State.updLink_free (n : Nat) (g : Link → Link) : (s.updLink n g).free = s.free := rfl
@[simp] theorem State.updLink_pending (n : Nat) (g : Link → Link) : (s.updLink n g).pending = s.pending := rfl

/-! ## updLane -/

@[simp] theorem State.updLane_regs (l : Nat) (g : Lane → Lane) : (s.updLane l g).regs = s.regs := rfl
@[simp] theorem State.updLane_now (l : Nat) (g : Lane → Lane) : (s.updLane l g).now = s.now := rfl
@[simp] theorem State.updLane_ups (l : Nat) (g : Lane → Lane) : (s.updLane l g).ups = s.ups := rfl
@[simp] theorem State.updLane_evr (l : Nat) (g : Lane → Lane) : (s.updLane l g).evr = s.evr := rfl
@[simp] theorem State.updLane_cores (l : Nat) (g : Lane → Lane) : (s.updLane l g).cores = s.cores := rfl
@[simp] theorem State.updLane_mem (l : Nat) (g : Lane → Lane) : (s.updLane l g).mem = s.mem := rfl
@[simp] theorem State.updLane_inject (l : Nat) (g : Lane → Lane) : (s.updLane l g).inject = s.inject := rfl
@[simp] theorem State.updLane_slots (l : Nat) (g : Lane → Lane) : (s.updLane l g).slots = s.slots := rfl
@[simp] theorem State.updLane_mmuCache (l : Nat) (g : Lane → Lane) : (s.updLane l g).mmuCache = s.mmuCache := rfl
@[simp] theorem State.updLane_remotes (l : Nat) (g : Lane → Lane) : (s.updLane l g).remotes = s.remotes := rfl
@[simp] theorem State.updLane_moverNext (l : Nat) (g : Lane → Lane) : (s.updLane l g).moverNext = s.moverNext := rfl
@[simp] theorem State.updLane_ccRecord (l : Nat) (g : Lane → Lane) : (s.updLane l g).ccRecord = s.ccRecord := rfl
@[simp] theorem State.updLane_nextTable (l : Nat) (g : Lane → Lane) : (s.updLane l g).nextTable = s.nextTable := rfl
@[simp] theorem State.updLane_nextTag (l : Nat) (g : Lane → Lane) : (s.updLane l g).nextTag = s.nextTag := rfl
@[simp] theorem State.updLane_movers (l : Nat) (g : Lane → Lane) : (s.updLane l g).movers = s.movers := rfl
@[simp] theorem State.updLane_links (l : Nat) (g : Lane → Lane) : (s.updLane l g).links = s.links := rfl
@[simp] theorem State.updLane_deck (l : Nat) (g : Lane → Lane) : (s.updLane l g).deck = s.deck := rfl
@[simp] theorem State.updLane_axes (l : Nat) (g : Lane → Lane) : (s.updLane l g).axes = s.axes := rfl
@[simp] theorem State.updLane_time (l : Nat) (g : Lane → Lane) : (s.updLane l g).time = s.time := rfl
@[simp] theorem State.updLane_power (l : Nat) (g : Lane → Lane) : (s.updLane l g).power = s.power := rfl
@[simp] theorem State.updLane_colOps (l : Nat) (g : Lane → Lane) : (s.updLane l g).colOps = s.colOps := rfl
@[simp] theorem State.updLane_rotLast (l : Nat) (g : Lane → Lane) : (s.updLane l g).rotLast = s.rotLast := rfl
@[simp] theorem State.updLane_rotStep (l : Nat) (g : Lane → Lane) : (s.updLane l g).rotStep = s.rotStep := rfl
@[simp] theorem State.updLane_fencedLinks (l : Nat) (g : Lane → Lane) : (s.updLane l g).fencedLinks = s.fencedLinks := rfl
@[simp] theorem State.updLane_flits (l : Nat) (g : Lane → Lane) : (s.updLane l g).flits = s.flits := rfl
@[simp] theorem State.updLane_staged (l : Nat) (g : Lane → Lane) : (s.updLane l g).staged = s.staged := rfl
@[simp] theorem State.updLane_epochTick (l : Nat) (g : Lane → Lane) : (s.updLane l g).epochTick = s.epochTick := rfl
@[simp] theorem State.updLane_epochDue (l : Nat) (g : Lane → Lane) : (s.updLane l g).epochDue = s.epochDue := rfl
@[simp] theorem State.updLane_votedHolders (l : Nat) (g : Lane → Lane) : (s.updLane l g).votedHolders = s.votedHolders := rfl
@[simp] theorem State.updLane_voteDelays (l : Nat) (g : Lane → Lane) : (s.updLane l g).voteDelays = s.voteDelays := rfl
@[simp] theorem State.updLane_nextDelays (l : Nat) (g : Lane → Lane) : (s.updLane l g).nextDelays = s.nextDelays := rfl
@[simp] theorem State.updLane_spares (l : Nat) (g : Lane → Lane) : (s.updLane l g).spares = s.spares := rfl
@[simp] theorem State.updLane_mgmtReq (l : Nat) (g : Lane → Lane) : (s.updLane l g).mgmtReq = s.mgmtReq := rfl
@[simp] theorem State.updLane_lineReads (l : Nat) (g : Lane → Lane) : (s.updLane l g).lineReads = s.lineReads := rfl
@[simp] theorem State.updLane_farFields (l : Nat) (g : Lane → Lane) : (s.updLane l g).farFields = s.farFields := rfl
@[simp] theorem State.updLane_farJobs (l : Nat) (g : Lane → Lane) : (s.updLane l g).farJobs = s.farJobs := rfl
@[simp] theorem State.updLane_shares (l : Nat) (g : Lane → Lane) : (s.updLane l g).shares = s.shares := rfl
@[simp] theorem State.updLane_positions (l : Nat) (g : Lane → Lane) : (s.updLane l g).positions = s.positions := rfl
@[simp] theorem State.updLane_integ (l : Nat) (g : Lane → Lane) : (s.updLane l g).integ = s.integ := rfl
@[simp] theorem State.updLane_cal (l : Nat) (g : Lane → Lane) : (s.updLane l g).cal = s.cal := rfl
@[simp] theorem State.updLane_meter (l : Nat) (g : Lane → Lane) : (s.updLane l g).meter = s.meter := rfl
@[simp] theorem State.updLane_cart (l : Nat) (g : Lane → Lane) : (s.updLane l g).cart = s.cart := rfl
@[simp] theorem State.updLane_flashA (l : Nat) (g : Lane → Lane) : (s.updLane l g).flashA = s.flashA := rfl
@[simp] theorem State.updLane_flashB (l : Nat) (g : Lane → Lane) : (s.updLane l g).flashB = s.flashB := rfl
@[simp] theorem State.updLane_savedAt (l : Nat) (g : Lane → Lane) : (s.updLane l g).savedAt = s.savedAt := rfl
@[simp] theorem State.updLane_fuses (l : Nat) (g : Lane → Lane) : (s.updLane l g).fuses = s.fuses := rfl
@[simp] theorem State.updLane_domains (l : Nat) (g : Lane → Lane) : (s.updLane l g).domains = s.domains := rfl
@[simp] theorem State.updLane_access (l : Nat) (g : Lane → Lane) : (s.updLane l g).access = s.access := rfl
@[simp] theorem State.updLane_saved (l : Nat) (g : Lane → Lane) : (s.updLane l g).saved = s.saved := rfl
@[simp] theorem State.updLane_areas (l : Nat) (g : Lane → Lane) : (s.updLane l g).areas = s.areas := rfl
@[simp] theorem State.updLane_conns (l : Nat) (g : Lane → Lane) : (s.updLane l g).conns = s.conns := rfl
@[simp] theorem State.updLane_jobs (l : Nat) (g : Lane → Lane) : (s.updLane l g).jobs = s.jobs := rfl
@[simp] theorem State.updLane_works (l : Nat) (g : Lane → Lane) : (s.updLane l g).works = s.works := rfl
@[simp] theorem State.updLane_nextJob (l : Nat) (g : Lane → Lane) : (s.updLane l g).nextJob = s.nextJob := rfl
@[simp] theorem State.updLane_nextOrder (l : Nat) (g : Lane → Lane) : (s.updLane l g).nextOrder = s.nextOrder := rfl
@[simp] theorem State.updLane_nextWork (l : Nat) (g : Lane → Lane) : (s.updLane l g).nextWork = s.nextWork := rfl
@[simp] theorem State.updLane_nextIdent (l : Nat) (g : Lane → Lane) : (s.updLane l g).nextIdent = s.nextIdent := rfl
@[simp] theorem State.updLane_out (l : Nat) (g : Lane → Lane) : (s.updLane l g).out = s.out := rfl
@[simp] theorem State.updLane_free (l : Nat) (g : Lane → Lane) : (s.updLane l g).free = s.free := rfl
@[simp] theorem State.updLane_pending (l : Nat) (g : Lane → Lane) : (s.updLane l g).pending = s.pending := rfl

/-! ## updAxis -/

@[simp] theorem State.updAxis_regs (a : Nat) (g : Axis → Axis) : (s.updAxis a g).regs = s.regs := rfl
@[simp] theorem State.updAxis_now (a : Nat) (g : Axis → Axis) : (s.updAxis a g).now = s.now := rfl
@[simp] theorem State.updAxis_ups (a : Nat) (g : Axis → Axis) : (s.updAxis a g).ups = s.ups := rfl
@[simp] theorem State.updAxis_evr (a : Nat) (g : Axis → Axis) : (s.updAxis a g).evr = s.evr := rfl
@[simp] theorem State.updAxis_cores (a : Nat) (g : Axis → Axis) : (s.updAxis a g).cores = s.cores := rfl
@[simp] theorem State.updAxis_mem (a : Nat) (g : Axis → Axis) : (s.updAxis a g).mem = s.mem := rfl
@[simp] theorem State.updAxis_inject (a : Nat) (g : Axis → Axis) : (s.updAxis a g).inject = s.inject := rfl
@[simp] theorem State.updAxis_slots (a : Nat) (g : Axis → Axis) : (s.updAxis a g).slots = s.slots := rfl
@[simp] theorem State.updAxis_mmuCache (a : Nat) (g : Axis → Axis) : (s.updAxis a g).mmuCache = s.mmuCache := rfl
@[simp] theorem State.updAxis_remotes (a : Nat) (g : Axis → Axis) : (s.updAxis a g).remotes = s.remotes := rfl
@[simp] theorem State.updAxis_moverNext (a : Nat) (g : Axis → Axis) : (s.updAxis a g).moverNext = s.moverNext := rfl
@[simp] theorem State.updAxis_ccRecord (a : Nat) (g : Axis → Axis) : (s.updAxis a g).ccRecord = s.ccRecord := rfl
@[simp] theorem State.updAxis_nextTable (a : Nat) (g : Axis → Axis) : (s.updAxis a g).nextTable = s.nextTable := rfl
@[simp] theorem State.updAxis_nextTag (a : Nat) (g : Axis → Axis) : (s.updAxis a g).nextTag = s.nextTag := rfl
@[simp] theorem State.updAxis_movers (a : Nat) (g : Axis → Axis) : (s.updAxis a g).movers = s.movers := rfl
@[simp] theorem State.updAxis_links (a : Nat) (g : Axis → Axis) : (s.updAxis a g).links = s.links := rfl
@[simp] theorem State.updAxis_lanes (a : Nat) (g : Axis → Axis) : (s.updAxis a g).lanes = s.lanes := rfl
@[simp] theorem State.updAxis_deck (a : Nat) (g : Axis → Axis) : (s.updAxis a g).deck = s.deck := rfl
@[simp] theorem State.updAxis_time (a : Nat) (g : Axis → Axis) : (s.updAxis a g).time = s.time := rfl
@[simp] theorem State.updAxis_power (a : Nat) (g : Axis → Axis) : (s.updAxis a g).power = s.power := rfl
@[simp] theorem State.updAxis_colOps (a : Nat) (g : Axis → Axis) : (s.updAxis a g).colOps = s.colOps := rfl
@[simp] theorem State.updAxis_rotLast (a : Nat) (g : Axis → Axis) : (s.updAxis a g).rotLast = s.rotLast := rfl
@[simp] theorem State.updAxis_rotStep (a : Nat) (g : Axis → Axis) : (s.updAxis a g).rotStep = s.rotStep := rfl
@[simp] theorem State.updAxis_fencedLinks (a : Nat) (g : Axis → Axis) : (s.updAxis a g).fencedLinks = s.fencedLinks := rfl
@[simp] theorem State.updAxis_flits (a : Nat) (g : Axis → Axis) : (s.updAxis a g).flits = s.flits := rfl
@[simp] theorem State.updAxis_staged (a : Nat) (g : Axis → Axis) : (s.updAxis a g).staged = s.staged := rfl
@[simp] theorem State.updAxis_epochTick (a : Nat) (g : Axis → Axis) : (s.updAxis a g).epochTick = s.epochTick := rfl
@[simp] theorem State.updAxis_epochDue (a : Nat) (g : Axis → Axis) : (s.updAxis a g).epochDue = s.epochDue := rfl
@[simp] theorem State.updAxis_votedHolders (a : Nat) (g : Axis → Axis) : (s.updAxis a g).votedHolders = s.votedHolders := rfl
@[simp] theorem State.updAxis_voteDelays (a : Nat) (g : Axis → Axis) : (s.updAxis a g).voteDelays = s.voteDelays := rfl
@[simp] theorem State.updAxis_nextDelays (a : Nat) (g : Axis → Axis) : (s.updAxis a g).nextDelays = s.nextDelays := rfl
@[simp] theorem State.updAxis_spares (a : Nat) (g : Axis → Axis) : (s.updAxis a g).spares = s.spares := rfl
@[simp] theorem State.updAxis_mgmtReq (a : Nat) (g : Axis → Axis) : (s.updAxis a g).mgmtReq = s.mgmtReq := rfl
@[simp] theorem State.updAxis_lineReads (a : Nat) (g : Axis → Axis) : (s.updAxis a g).lineReads = s.lineReads := rfl
@[simp] theorem State.updAxis_farFields (a : Nat) (g : Axis → Axis) : (s.updAxis a g).farFields = s.farFields := rfl
@[simp] theorem State.updAxis_farJobs (a : Nat) (g : Axis → Axis) : (s.updAxis a g).farJobs = s.farJobs := rfl
@[simp] theorem State.updAxis_shares (a : Nat) (g : Axis → Axis) : (s.updAxis a g).shares = s.shares := rfl
@[simp] theorem State.updAxis_positions (a : Nat) (g : Axis → Axis) : (s.updAxis a g).positions = s.positions := rfl
@[simp] theorem State.updAxis_integ (a : Nat) (g : Axis → Axis) : (s.updAxis a g).integ = s.integ := rfl
@[simp] theorem State.updAxis_cal (a : Nat) (g : Axis → Axis) : (s.updAxis a g).cal = s.cal := rfl
@[simp] theorem State.updAxis_meter (a : Nat) (g : Axis → Axis) : (s.updAxis a g).meter = s.meter := rfl
@[simp] theorem State.updAxis_cart (a : Nat) (g : Axis → Axis) : (s.updAxis a g).cart = s.cart := rfl
@[simp] theorem State.updAxis_flashA (a : Nat) (g : Axis → Axis) : (s.updAxis a g).flashA = s.flashA := rfl
@[simp] theorem State.updAxis_flashB (a : Nat) (g : Axis → Axis) : (s.updAxis a g).flashB = s.flashB := rfl
@[simp] theorem State.updAxis_savedAt (a : Nat) (g : Axis → Axis) : (s.updAxis a g).savedAt = s.savedAt := rfl
@[simp] theorem State.updAxis_fuses (a : Nat) (g : Axis → Axis) : (s.updAxis a g).fuses = s.fuses := rfl
@[simp] theorem State.updAxis_domains (a : Nat) (g : Axis → Axis) : (s.updAxis a g).domains = s.domains := rfl
@[simp] theorem State.updAxis_access (a : Nat) (g : Axis → Axis) : (s.updAxis a g).access = s.access := rfl
@[simp] theorem State.updAxis_saved (a : Nat) (g : Axis → Axis) : (s.updAxis a g).saved = s.saved := rfl
@[simp] theorem State.updAxis_areas (a : Nat) (g : Axis → Axis) : (s.updAxis a g).areas = s.areas := rfl
@[simp] theorem State.updAxis_conns (a : Nat) (g : Axis → Axis) : (s.updAxis a g).conns = s.conns := rfl
@[simp] theorem State.updAxis_jobs (a : Nat) (g : Axis → Axis) : (s.updAxis a g).jobs = s.jobs := rfl
@[simp] theorem State.updAxis_works (a : Nat) (g : Axis → Axis) : (s.updAxis a g).works = s.works := rfl
@[simp] theorem State.updAxis_nextJob (a : Nat) (g : Axis → Axis) : (s.updAxis a g).nextJob = s.nextJob := rfl
@[simp] theorem State.updAxis_nextOrder (a : Nat) (g : Axis → Axis) : (s.updAxis a g).nextOrder = s.nextOrder := rfl
@[simp] theorem State.updAxis_nextWork (a : Nat) (g : Axis → Axis) : (s.updAxis a g).nextWork = s.nextWork := rfl
@[simp] theorem State.updAxis_nextIdent (a : Nat) (g : Axis → Axis) : (s.updAxis a g).nextIdent = s.nextIdent := rfl
@[simp] theorem State.updAxis_out (a : Nat) (g : Axis → Axis) : (s.updAxis a g).out = s.out := rfl
@[simp] theorem State.updAxis_free (a : Nat) (g : Axis → Axis) : (s.updAxis a g).free = s.free := rfl
@[simp] theorem State.updAxis_pending (a : Nat) (g : Axis → Axis) : (s.updAxis a g).pending = s.pending := rfl

/-! ## updDeck -/

@[simp] theorem State.updDeck_regs (g : Deck → Deck) : (s.updDeck g).regs = s.regs := rfl
@[simp] theorem State.updDeck_now (g : Deck → Deck) : (s.updDeck g).now = s.now := rfl
@[simp] theorem State.updDeck_ups (g : Deck → Deck) : (s.updDeck g).ups = s.ups := rfl
@[simp] theorem State.updDeck_evr (g : Deck → Deck) : (s.updDeck g).evr = s.evr := rfl
@[simp] theorem State.updDeck_cores (g : Deck → Deck) : (s.updDeck g).cores = s.cores := rfl
@[simp] theorem State.updDeck_mem (g : Deck → Deck) : (s.updDeck g).mem = s.mem := rfl
@[simp] theorem State.updDeck_inject (g : Deck → Deck) : (s.updDeck g).inject = s.inject := rfl
@[simp] theorem State.updDeck_slots (g : Deck → Deck) : (s.updDeck g).slots = s.slots := rfl
@[simp] theorem State.updDeck_mmuCache (g : Deck → Deck) : (s.updDeck g).mmuCache = s.mmuCache := rfl
@[simp] theorem State.updDeck_remotes (g : Deck → Deck) : (s.updDeck g).remotes = s.remotes := rfl
@[simp] theorem State.updDeck_moverNext (g : Deck → Deck) : (s.updDeck g).moverNext = s.moverNext := rfl
@[simp] theorem State.updDeck_ccRecord (g : Deck → Deck) : (s.updDeck g).ccRecord = s.ccRecord := rfl
@[simp] theorem State.updDeck_nextTable (g : Deck → Deck) : (s.updDeck g).nextTable = s.nextTable := rfl
@[simp] theorem State.updDeck_nextTag (g : Deck → Deck) : (s.updDeck g).nextTag = s.nextTag := rfl
@[simp] theorem State.updDeck_movers (g : Deck → Deck) : (s.updDeck g).movers = s.movers := rfl
@[simp] theorem State.updDeck_links (g : Deck → Deck) : (s.updDeck g).links = s.links := rfl
@[simp] theorem State.updDeck_lanes (g : Deck → Deck) : (s.updDeck g).lanes = s.lanes := rfl
@[simp] theorem State.updDeck_axes (g : Deck → Deck) : (s.updDeck g).axes = s.axes := rfl
@[simp] theorem State.updDeck_time (g : Deck → Deck) : (s.updDeck g).time = s.time := rfl
@[simp] theorem State.updDeck_power (g : Deck → Deck) : (s.updDeck g).power = s.power := rfl
@[simp] theorem State.updDeck_colOps (g : Deck → Deck) : (s.updDeck g).colOps = s.colOps := rfl
@[simp] theorem State.updDeck_rotLast (g : Deck → Deck) : (s.updDeck g).rotLast = s.rotLast := rfl
@[simp] theorem State.updDeck_rotStep (g : Deck → Deck) : (s.updDeck g).rotStep = s.rotStep := rfl
@[simp] theorem State.updDeck_fencedLinks (g : Deck → Deck) : (s.updDeck g).fencedLinks = s.fencedLinks := rfl
@[simp] theorem State.updDeck_flits (g : Deck → Deck) : (s.updDeck g).flits = s.flits := rfl
@[simp] theorem State.updDeck_staged (g : Deck → Deck) : (s.updDeck g).staged = s.staged := rfl
@[simp] theorem State.updDeck_epochTick (g : Deck → Deck) : (s.updDeck g).epochTick = s.epochTick := rfl
@[simp] theorem State.updDeck_epochDue (g : Deck → Deck) : (s.updDeck g).epochDue = s.epochDue := rfl
@[simp] theorem State.updDeck_votedHolders (g : Deck → Deck) : (s.updDeck g).votedHolders = s.votedHolders := rfl
@[simp] theorem State.updDeck_voteDelays (g : Deck → Deck) : (s.updDeck g).voteDelays = s.voteDelays := rfl
@[simp] theorem State.updDeck_nextDelays (g : Deck → Deck) : (s.updDeck g).nextDelays = s.nextDelays := rfl
@[simp] theorem State.updDeck_spares (g : Deck → Deck) : (s.updDeck g).spares = s.spares := rfl
@[simp] theorem State.updDeck_mgmtReq (g : Deck → Deck) : (s.updDeck g).mgmtReq = s.mgmtReq := rfl
@[simp] theorem State.updDeck_lineReads (g : Deck → Deck) : (s.updDeck g).lineReads = s.lineReads := rfl
@[simp] theorem State.updDeck_farFields (g : Deck → Deck) : (s.updDeck g).farFields = s.farFields := rfl
@[simp] theorem State.updDeck_farJobs (g : Deck → Deck) : (s.updDeck g).farJobs = s.farJobs := rfl
@[simp] theorem State.updDeck_shares (g : Deck → Deck) : (s.updDeck g).shares = s.shares := rfl
@[simp] theorem State.updDeck_positions (g : Deck → Deck) : (s.updDeck g).positions = s.positions := rfl
@[simp] theorem State.updDeck_integ (g : Deck → Deck) : (s.updDeck g).integ = s.integ := rfl
@[simp] theorem State.updDeck_cal (g : Deck → Deck) : (s.updDeck g).cal = s.cal := rfl
@[simp] theorem State.updDeck_meter (g : Deck → Deck) : (s.updDeck g).meter = s.meter := rfl
@[simp] theorem State.updDeck_cart (g : Deck → Deck) : (s.updDeck g).cart = s.cart := rfl
@[simp] theorem State.updDeck_flashA (g : Deck → Deck) : (s.updDeck g).flashA = s.flashA := rfl
@[simp] theorem State.updDeck_flashB (g : Deck → Deck) : (s.updDeck g).flashB = s.flashB := rfl
@[simp] theorem State.updDeck_savedAt (g : Deck → Deck) : (s.updDeck g).savedAt = s.savedAt := rfl
@[simp] theorem State.updDeck_fuses (g : Deck → Deck) : (s.updDeck g).fuses = s.fuses := rfl
@[simp] theorem State.updDeck_domains (g : Deck → Deck) : (s.updDeck g).domains = s.domains := rfl
@[simp] theorem State.updDeck_access (g : Deck → Deck) : (s.updDeck g).access = s.access := rfl
@[simp] theorem State.updDeck_saved (g : Deck → Deck) : (s.updDeck g).saved = s.saved := rfl
@[simp] theorem State.updDeck_areas (g : Deck → Deck) : (s.updDeck g).areas = s.areas := rfl
@[simp] theorem State.updDeck_conns (g : Deck → Deck) : (s.updDeck g).conns = s.conns := rfl
@[simp] theorem State.updDeck_jobs (g : Deck → Deck) : (s.updDeck g).jobs = s.jobs := rfl
@[simp] theorem State.updDeck_works (g : Deck → Deck) : (s.updDeck g).works = s.works := rfl
@[simp] theorem State.updDeck_nextJob (g : Deck → Deck) : (s.updDeck g).nextJob = s.nextJob := rfl
@[simp] theorem State.updDeck_nextOrder (g : Deck → Deck) : (s.updDeck g).nextOrder = s.nextOrder := rfl
@[simp] theorem State.updDeck_nextWork (g : Deck → Deck) : (s.updDeck g).nextWork = s.nextWork := rfl
@[simp] theorem State.updDeck_nextIdent (g : Deck → Deck) : (s.updDeck g).nextIdent = s.nextIdent := rfl
@[simp] theorem State.updDeck_out (g : Deck → Deck) : (s.updDeck g).out = s.out := rfl
@[simp] theorem State.updDeck_free (g : Deck → Deck) : (s.updDeck g).free = s.free := rfl
@[simp] theorem State.updDeck_pending (g : Deck → Deck) : (s.updDeck g).pending = s.pending := rfl

/-! ## updTime -/

@[simp] theorem State.updTime_regs (g : TimeBlock → TimeBlock) : (s.updTime g).regs = s.regs := rfl
@[simp] theorem State.updTime_now (g : TimeBlock → TimeBlock) : (s.updTime g).now = s.now := rfl
@[simp] theorem State.updTime_ups (g : TimeBlock → TimeBlock) : (s.updTime g).ups = s.ups := rfl
@[simp] theorem State.updTime_evr (g : TimeBlock → TimeBlock) : (s.updTime g).evr = s.evr := rfl
@[simp] theorem State.updTime_cores (g : TimeBlock → TimeBlock) : (s.updTime g).cores = s.cores := rfl
@[simp] theorem State.updTime_mem (g : TimeBlock → TimeBlock) : (s.updTime g).mem = s.mem := rfl
@[simp] theorem State.updTime_inject (g : TimeBlock → TimeBlock) : (s.updTime g).inject = s.inject := rfl
@[simp] theorem State.updTime_slots (g : TimeBlock → TimeBlock) : (s.updTime g).slots = s.slots := rfl
@[simp] theorem State.updTime_mmuCache (g : TimeBlock → TimeBlock) : (s.updTime g).mmuCache = s.mmuCache := rfl
@[simp] theorem State.updTime_remotes (g : TimeBlock → TimeBlock) : (s.updTime g).remotes = s.remotes := rfl
@[simp] theorem State.updTime_moverNext (g : TimeBlock → TimeBlock) : (s.updTime g).moverNext = s.moverNext := rfl
@[simp] theorem State.updTime_ccRecord (g : TimeBlock → TimeBlock) : (s.updTime g).ccRecord = s.ccRecord := rfl
@[simp] theorem State.updTime_nextTable (g : TimeBlock → TimeBlock) : (s.updTime g).nextTable = s.nextTable := rfl
@[simp] theorem State.updTime_nextTag (g : TimeBlock → TimeBlock) : (s.updTime g).nextTag = s.nextTag := rfl
@[simp] theorem State.updTime_movers (g : TimeBlock → TimeBlock) : (s.updTime g).movers = s.movers := rfl
@[simp] theorem State.updTime_links (g : TimeBlock → TimeBlock) : (s.updTime g).links = s.links := rfl
@[simp] theorem State.updTime_lanes (g : TimeBlock → TimeBlock) : (s.updTime g).lanes = s.lanes := rfl
@[simp] theorem State.updTime_deck (g : TimeBlock → TimeBlock) : (s.updTime g).deck = s.deck := rfl
@[simp] theorem State.updTime_axes (g : TimeBlock → TimeBlock) : (s.updTime g).axes = s.axes := rfl
@[simp] theorem State.updTime_power (g : TimeBlock → TimeBlock) : (s.updTime g).power = s.power := rfl
@[simp] theorem State.updTime_colOps (g : TimeBlock → TimeBlock) : (s.updTime g).colOps = s.colOps := rfl
@[simp] theorem State.updTime_rotLast (g : TimeBlock → TimeBlock) : (s.updTime g).rotLast = s.rotLast := rfl
@[simp] theorem State.updTime_rotStep (g : TimeBlock → TimeBlock) : (s.updTime g).rotStep = s.rotStep := rfl
@[simp] theorem State.updTime_fencedLinks (g : TimeBlock → TimeBlock) : (s.updTime g).fencedLinks = s.fencedLinks := rfl
@[simp] theorem State.updTime_flits (g : TimeBlock → TimeBlock) : (s.updTime g).flits = s.flits := rfl
@[simp] theorem State.updTime_staged (g : TimeBlock → TimeBlock) : (s.updTime g).staged = s.staged := rfl
@[simp] theorem State.updTime_epochTick (g : TimeBlock → TimeBlock) : (s.updTime g).epochTick = s.epochTick := rfl
@[simp] theorem State.updTime_epochDue (g : TimeBlock → TimeBlock) : (s.updTime g).epochDue = s.epochDue := rfl
@[simp] theorem State.updTime_votedHolders (g : TimeBlock → TimeBlock) : (s.updTime g).votedHolders = s.votedHolders := rfl
@[simp] theorem State.updTime_voteDelays (g : TimeBlock → TimeBlock) : (s.updTime g).voteDelays = s.voteDelays := rfl
@[simp] theorem State.updTime_nextDelays (g : TimeBlock → TimeBlock) : (s.updTime g).nextDelays = s.nextDelays := rfl
@[simp] theorem State.updTime_spares (g : TimeBlock → TimeBlock) : (s.updTime g).spares = s.spares := rfl
@[simp] theorem State.updTime_mgmtReq (g : TimeBlock → TimeBlock) : (s.updTime g).mgmtReq = s.mgmtReq := rfl
@[simp] theorem State.updTime_lineReads (g : TimeBlock → TimeBlock) : (s.updTime g).lineReads = s.lineReads := rfl
@[simp] theorem State.updTime_farFields (g : TimeBlock → TimeBlock) : (s.updTime g).farFields = s.farFields := rfl
@[simp] theorem State.updTime_farJobs (g : TimeBlock → TimeBlock) : (s.updTime g).farJobs = s.farJobs := rfl
@[simp] theorem State.updTime_shares (g : TimeBlock → TimeBlock) : (s.updTime g).shares = s.shares := rfl
@[simp] theorem State.updTime_positions (g : TimeBlock → TimeBlock) : (s.updTime g).positions = s.positions := rfl
@[simp] theorem State.updTime_integ (g : TimeBlock → TimeBlock) : (s.updTime g).integ = s.integ := rfl
@[simp] theorem State.updTime_cal (g : TimeBlock → TimeBlock) : (s.updTime g).cal = s.cal := rfl
@[simp] theorem State.updTime_meter (g : TimeBlock → TimeBlock) : (s.updTime g).meter = s.meter := rfl
@[simp] theorem State.updTime_cart (g : TimeBlock → TimeBlock) : (s.updTime g).cart = s.cart := rfl
@[simp] theorem State.updTime_flashA (g : TimeBlock → TimeBlock) : (s.updTime g).flashA = s.flashA := rfl
@[simp] theorem State.updTime_flashB (g : TimeBlock → TimeBlock) : (s.updTime g).flashB = s.flashB := rfl
@[simp] theorem State.updTime_savedAt (g : TimeBlock → TimeBlock) : (s.updTime g).savedAt = s.savedAt := rfl
@[simp] theorem State.updTime_fuses (g : TimeBlock → TimeBlock) : (s.updTime g).fuses = s.fuses := rfl
@[simp] theorem State.updTime_domains (g : TimeBlock → TimeBlock) : (s.updTime g).domains = s.domains := rfl
@[simp] theorem State.updTime_access (g : TimeBlock → TimeBlock) : (s.updTime g).access = s.access := rfl
@[simp] theorem State.updTime_saved (g : TimeBlock → TimeBlock) : (s.updTime g).saved = s.saved := rfl
@[simp] theorem State.updTime_areas (g : TimeBlock → TimeBlock) : (s.updTime g).areas = s.areas := rfl
@[simp] theorem State.updTime_conns (g : TimeBlock → TimeBlock) : (s.updTime g).conns = s.conns := rfl
@[simp] theorem State.updTime_jobs (g : TimeBlock → TimeBlock) : (s.updTime g).jobs = s.jobs := rfl
@[simp] theorem State.updTime_works (g : TimeBlock → TimeBlock) : (s.updTime g).works = s.works := rfl
@[simp] theorem State.updTime_nextJob (g : TimeBlock → TimeBlock) : (s.updTime g).nextJob = s.nextJob := rfl
@[simp] theorem State.updTime_nextOrder (g : TimeBlock → TimeBlock) : (s.updTime g).nextOrder = s.nextOrder := rfl
@[simp] theorem State.updTime_nextWork (g : TimeBlock → TimeBlock) : (s.updTime g).nextWork = s.nextWork := rfl
@[simp] theorem State.updTime_nextIdent (g : TimeBlock → TimeBlock) : (s.updTime g).nextIdent = s.nextIdent := rfl
@[simp] theorem State.updTime_out (g : TimeBlock → TimeBlock) : (s.updTime g).out = s.out := rfl
@[simp] theorem State.updTime_free (g : TimeBlock → TimeBlock) : (s.updTime g).free = s.free := rfl
@[simp] theorem State.updTime_pending (g : TimeBlock → TimeBlock) : (s.updTime g).pending = s.pending := rfl

/-! ## updPower -/

@[simp] theorem State.updPower_regs (g : Power → Power) : (s.updPower g).regs = s.regs := rfl
@[simp] theorem State.updPower_now (g : Power → Power) : (s.updPower g).now = s.now := rfl
@[simp] theorem State.updPower_ups (g : Power → Power) : (s.updPower g).ups = s.ups := rfl
@[simp] theorem State.updPower_evr (g : Power → Power) : (s.updPower g).evr = s.evr := rfl
@[simp] theorem State.updPower_cores (g : Power → Power) : (s.updPower g).cores = s.cores := rfl
@[simp] theorem State.updPower_mem (g : Power → Power) : (s.updPower g).mem = s.mem := rfl
@[simp] theorem State.updPower_inject (g : Power → Power) : (s.updPower g).inject = s.inject := rfl
@[simp] theorem State.updPower_slots (g : Power → Power) : (s.updPower g).slots = s.slots := rfl
@[simp] theorem State.updPower_mmuCache (g : Power → Power) : (s.updPower g).mmuCache = s.mmuCache := rfl
@[simp] theorem State.updPower_remotes (g : Power → Power) : (s.updPower g).remotes = s.remotes := rfl
@[simp] theorem State.updPower_moverNext (g : Power → Power) : (s.updPower g).moverNext = s.moverNext := rfl
@[simp] theorem State.updPower_ccRecord (g : Power → Power) : (s.updPower g).ccRecord = s.ccRecord := rfl
@[simp] theorem State.updPower_nextTable (g : Power → Power) : (s.updPower g).nextTable = s.nextTable := rfl
@[simp] theorem State.updPower_nextTag (g : Power → Power) : (s.updPower g).nextTag = s.nextTag := rfl
@[simp] theorem State.updPower_movers (g : Power → Power) : (s.updPower g).movers = s.movers := rfl
@[simp] theorem State.updPower_links (g : Power → Power) : (s.updPower g).links = s.links := rfl
@[simp] theorem State.updPower_lanes (g : Power → Power) : (s.updPower g).lanes = s.lanes := rfl
@[simp] theorem State.updPower_deck (g : Power → Power) : (s.updPower g).deck = s.deck := rfl
@[simp] theorem State.updPower_axes (g : Power → Power) : (s.updPower g).axes = s.axes := rfl
@[simp] theorem State.updPower_time (g : Power → Power) : (s.updPower g).time = s.time := rfl
@[simp] theorem State.updPower_colOps (g : Power → Power) : (s.updPower g).colOps = s.colOps := rfl
@[simp] theorem State.updPower_rotLast (g : Power → Power) : (s.updPower g).rotLast = s.rotLast := rfl
@[simp] theorem State.updPower_rotStep (g : Power → Power) : (s.updPower g).rotStep = s.rotStep := rfl
@[simp] theorem State.updPower_fencedLinks (g : Power → Power) : (s.updPower g).fencedLinks = s.fencedLinks := rfl
@[simp] theorem State.updPower_flits (g : Power → Power) : (s.updPower g).flits = s.flits := rfl
@[simp] theorem State.updPower_staged (g : Power → Power) : (s.updPower g).staged = s.staged := rfl
@[simp] theorem State.updPower_epochTick (g : Power → Power) : (s.updPower g).epochTick = s.epochTick := rfl
@[simp] theorem State.updPower_epochDue (g : Power → Power) : (s.updPower g).epochDue = s.epochDue := rfl
@[simp] theorem State.updPower_votedHolders (g : Power → Power) : (s.updPower g).votedHolders = s.votedHolders := rfl
@[simp] theorem State.updPower_voteDelays (g : Power → Power) : (s.updPower g).voteDelays = s.voteDelays := rfl
@[simp] theorem State.updPower_nextDelays (g : Power → Power) : (s.updPower g).nextDelays = s.nextDelays := rfl
@[simp] theorem State.updPower_spares (g : Power → Power) : (s.updPower g).spares = s.spares := rfl
@[simp] theorem State.updPower_mgmtReq (g : Power → Power) : (s.updPower g).mgmtReq = s.mgmtReq := rfl
@[simp] theorem State.updPower_lineReads (g : Power → Power) : (s.updPower g).lineReads = s.lineReads := rfl
@[simp] theorem State.updPower_farFields (g : Power → Power) : (s.updPower g).farFields = s.farFields := rfl
@[simp] theorem State.updPower_farJobs (g : Power → Power) : (s.updPower g).farJobs = s.farJobs := rfl
@[simp] theorem State.updPower_shares (g : Power → Power) : (s.updPower g).shares = s.shares := rfl
@[simp] theorem State.updPower_positions (g : Power → Power) : (s.updPower g).positions = s.positions := rfl
@[simp] theorem State.updPower_integ (g : Power → Power) : (s.updPower g).integ = s.integ := rfl
@[simp] theorem State.updPower_cal (g : Power → Power) : (s.updPower g).cal = s.cal := rfl
@[simp] theorem State.updPower_meter (g : Power → Power) : (s.updPower g).meter = s.meter := rfl
@[simp] theorem State.updPower_cart (g : Power → Power) : (s.updPower g).cart = s.cart := rfl
@[simp] theorem State.updPower_flashA (g : Power → Power) : (s.updPower g).flashA = s.flashA := rfl
@[simp] theorem State.updPower_flashB (g : Power → Power) : (s.updPower g).flashB = s.flashB := rfl
@[simp] theorem State.updPower_savedAt (g : Power → Power) : (s.updPower g).savedAt = s.savedAt := rfl
@[simp] theorem State.updPower_fuses (g : Power → Power) : (s.updPower g).fuses = s.fuses := rfl
@[simp] theorem State.updPower_domains (g : Power → Power) : (s.updPower g).domains = s.domains := rfl
@[simp] theorem State.updPower_access (g : Power → Power) : (s.updPower g).access = s.access := rfl
@[simp] theorem State.updPower_saved (g : Power → Power) : (s.updPower g).saved = s.saved := rfl
@[simp] theorem State.updPower_areas (g : Power → Power) : (s.updPower g).areas = s.areas := rfl
@[simp] theorem State.updPower_conns (g : Power → Power) : (s.updPower g).conns = s.conns := rfl
@[simp] theorem State.updPower_jobs (g : Power → Power) : (s.updPower g).jobs = s.jobs := rfl
@[simp] theorem State.updPower_works (g : Power → Power) : (s.updPower g).works = s.works := rfl
@[simp] theorem State.updPower_nextJob (g : Power → Power) : (s.updPower g).nextJob = s.nextJob := rfl
@[simp] theorem State.updPower_nextOrder (g : Power → Power) : (s.updPower g).nextOrder = s.nextOrder := rfl
@[simp] theorem State.updPower_nextWork (g : Power → Power) : (s.updPower g).nextWork = s.nextWork := rfl
@[simp] theorem State.updPower_nextIdent (g : Power → Power) : (s.updPower g).nextIdent = s.nextIdent := rfl
@[simp] theorem State.updPower_out (g : Power → Power) : (s.updPower g).out = s.out := rfl
@[simp] theorem State.updPower_free (g : Power → Power) : (s.updPower g).free = s.free := rfl
@[simp] theorem State.updPower_pending (g : Power → Power) : (s.updPower g).pending = s.pending := rfl

/-! ## updPosition -/

@[simp] theorem State.updPosition_regs (f c p : Nat) (g : Position → Position) : (s.updPosition f c p g).regs = s.regs := rfl
@[simp] theorem State.updPosition_now (f c p : Nat) (g : Position → Position) : (s.updPosition f c p g).now = s.now := rfl
@[simp] theorem State.updPosition_ups (f c p : Nat) (g : Position → Position) : (s.updPosition f c p g).ups = s.ups := rfl
@[simp] theorem State.updPosition_evr (f c p : Nat) (g : Position → Position) : (s.updPosition f c p g).evr = s.evr := rfl
@[simp] theorem State.updPosition_cores (f c p : Nat) (g : Position → Position) : (s.updPosition f c p g).cores = s.cores := rfl
@[simp] theorem State.updPosition_mem (f c p : Nat) (g : Position → Position) : (s.updPosition f c p g).mem = s.mem := rfl
@[simp] theorem State.updPosition_inject (f c p : Nat) (g : Position → Position) : (s.updPosition f c p g).inject = s.inject := rfl
@[simp] theorem State.updPosition_slots (f c p : Nat) (g : Position → Position) : (s.updPosition f c p g).slots = s.slots := rfl
@[simp] theorem State.updPosition_mmuCache (f c p : Nat) (g : Position → Position) : (s.updPosition f c p g).mmuCache = s.mmuCache := rfl
@[simp] theorem State.updPosition_remotes (f c p : Nat) (g : Position → Position) : (s.updPosition f c p g).remotes = s.remotes := rfl
@[simp] theorem State.updPosition_moverNext (f c p : Nat) (g : Position → Position) : (s.updPosition f c p g).moverNext = s.moverNext := rfl
@[simp] theorem State.updPosition_ccRecord (f c p : Nat) (g : Position → Position) : (s.updPosition f c p g).ccRecord = s.ccRecord := rfl
@[simp] theorem State.updPosition_nextTable (f c p : Nat) (g : Position → Position) : (s.updPosition f c p g).nextTable = s.nextTable := rfl
@[simp] theorem State.updPosition_nextTag (f c p : Nat) (g : Position → Position) : (s.updPosition f c p g).nextTag = s.nextTag := rfl
@[simp] theorem State.updPosition_movers (f c p : Nat) (g : Position → Position) : (s.updPosition f c p g).movers = s.movers := rfl
@[simp] theorem State.updPosition_links (f c p : Nat) (g : Position → Position) : (s.updPosition f c p g).links = s.links := rfl
@[simp] theorem State.updPosition_lanes (f c p : Nat) (g : Position → Position) : (s.updPosition f c p g).lanes = s.lanes := rfl
@[simp] theorem State.updPosition_deck (f c p : Nat) (g : Position → Position) : (s.updPosition f c p g).deck = s.deck := rfl
@[simp] theorem State.updPosition_axes (f c p : Nat) (g : Position → Position) : (s.updPosition f c p g).axes = s.axes := rfl
@[simp] theorem State.updPosition_time (f c p : Nat) (g : Position → Position) : (s.updPosition f c p g).time = s.time := rfl
@[simp] theorem State.updPosition_power (f c p : Nat) (g : Position → Position) : (s.updPosition f c p g).power = s.power := rfl
@[simp] theorem State.updPosition_colOps (f c p : Nat) (g : Position → Position) : (s.updPosition f c p g).colOps = s.colOps := rfl
@[simp] theorem State.updPosition_rotLast (f c p : Nat) (g : Position → Position) : (s.updPosition f c p g).rotLast = s.rotLast := rfl
@[simp] theorem State.updPosition_rotStep (f c p : Nat) (g : Position → Position) : (s.updPosition f c p g).rotStep = s.rotStep := rfl
@[simp] theorem State.updPosition_fencedLinks (f c p : Nat) (g : Position → Position) : (s.updPosition f c p g).fencedLinks = s.fencedLinks := rfl
@[simp] theorem State.updPosition_flits (f c p : Nat) (g : Position → Position) : (s.updPosition f c p g).flits = s.flits := rfl
@[simp] theorem State.updPosition_staged (f c p : Nat) (g : Position → Position) : (s.updPosition f c p g).staged = s.staged := rfl
@[simp] theorem State.updPosition_epochTick (f c p : Nat) (g : Position → Position) : (s.updPosition f c p g).epochTick = s.epochTick := rfl
@[simp] theorem State.updPosition_epochDue (f c p : Nat) (g : Position → Position) : (s.updPosition f c p g).epochDue = s.epochDue := rfl
@[simp] theorem State.updPosition_votedHolders (f c p : Nat) (g : Position → Position) : (s.updPosition f c p g).votedHolders = s.votedHolders := rfl
@[simp] theorem State.updPosition_voteDelays (f c p : Nat) (g : Position → Position) : (s.updPosition f c p g).voteDelays = s.voteDelays := rfl
@[simp] theorem State.updPosition_nextDelays (f c p : Nat) (g : Position → Position) : (s.updPosition f c p g).nextDelays = s.nextDelays := rfl
@[simp] theorem State.updPosition_spares (f c p : Nat) (g : Position → Position) : (s.updPosition f c p g).spares = s.spares := rfl
@[simp] theorem State.updPosition_mgmtReq (f c p : Nat) (g : Position → Position) : (s.updPosition f c p g).mgmtReq = s.mgmtReq := rfl
@[simp] theorem State.updPosition_lineReads (f c p : Nat) (g : Position → Position) : (s.updPosition f c p g).lineReads = s.lineReads := rfl
@[simp] theorem State.updPosition_farFields (f c p : Nat) (g : Position → Position) : (s.updPosition f c p g).farFields = s.farFields := rfl
@[simp] theorem State.updPosition_farJobs (f c p : Nat) (g : Position → Position) : (s.updPosition f c p g).farJobs = s.farJobs := rfl
@[simp] theorem State.updPosition_shares (f c p : Nat) (g : Position → Position) : (s.updPosition f c p g).shares = s.shares := rfl
@[simp] theorem State.updPosition_integ (f c p : Nat) (g : Position → Position) : (s.updPosition f c p g).integ = s.integ := rfl
@[simp] theorem State.updPosition_cal (f c p : Nat) (g : Position → Position) : (s.updPosition f c p g).cal = s.cal := rfl
@[simp] theorem State.updPosition_meter (f c p : Nat) (g : Position → Position) : (s.updPosition f c p g).meter = s.meter := rfl
@[simp] theorem State.updPosition_cart (f c p : Nat) (g : Position → Position) : (s.updPosition f c p g).cart = s.cart := rfl
@[simp] theorem State.updPosition_flashA (f c p : Nat) (g : Position → Position) : (s.updPosition f c p g).flashA = s.flashA := rfl
@[simp] theorem State.updPosition_flashB (f c p : Nat) (g : Position → Position) : (s.updPosition f c p g).flashB = s.flashB := rfl
@[simp] theorem State.updPosition_savedAt (f c p : Nat) (g : Position → Position) : (s.updPosition f c p g).savedAt = s.savedAt := rfl
@[simp] theorem State.updPosition_fuses (f c p : Nat) (g : Position → Position) : (s.updPosition f c p g).fuses = s.fuses := rfl
@[simp] theorem State.updPosition_domains (f c p : Nat) (g : Position → Position) : (s.updPosition f c p g).domains = s.domains := rfl
@[simp] theorem State.updPosition_access (f c p : Nat) (g : Position → Position) : (s.updPosition f c p g).access = s.access := rfl
@[simp] theorem State.updPosition_saved (f c p : Nat) (g : Position → Position) : (s.updPosition f c p g).saved = s.saved := rfl
@[simp] theorem State.updPosition_areas (f c p : Nat) (g : Position → Position) : (s.updPosition f c p g).areas = s.areas := rfl
@[simp] theorem State.updPosition_conns (f c p : Nat) (g : Position → Position) : (s.updPosition f c p g).conns = s.conns := rfl
@[simp] theorem State.updPosition_jobs (f c p : Nat) (g : Position → Position) : (s.updPosition f c p g).jobs = s.jobs := rfl
@[simp] theorem State.updPosition_works (f c p : Nat) (g : Position → Position) : (s.updPosition f c p g).works = s.works := rfl
@[simp] theorem State.updPosition_nextJob (f c p : Nat) (g : Position → Position) : (s.updPosition f c p g).nextJob = s.nextJob := rfl
@[simp] theorem State.updPosition_nextOrder (f c p : Nat) (g : Position → Position) : (s.updPosition f c p g).nextOrder = s.nextOrder := rfl
@[simp] theorem State.updPosition_nextWork (f c p : Nat) (g : Position → Position) : (s.updPosition f c p g).nextWork = s.nextWork := rfl
@[simp] theorem State.updPosition_nextIdent (f c p : Nat) (g : Position → Position) : (s.updPosition f c p g).nextIdent = s.nextIdent := rfl
@[simp] theorem State.updPosition_out (f c p : Nat) (g : Position → Position) : (s.updPosition f c p g).out = s.out := rfl
@[simp] theorem State.updPosition_free (f c p : Nat) (g : Position → Position) : (s.updPosition f c p g).free = s.free := rfl
@[simp] theorem State.updPosition_pending (f c p : Nat) (g : Position → Position) : (s.updPosition f c p g).pending = s.pending := rfl

/-! ## updConn -/

@[simp] theorem State.updConn_regs (n : Nat) (g : Conn → Conn) : (s.updConn n g).regs = s.regs := rfl
@[simp] theorem State.updConn_now (n : Nat) (g : Conn → Conn) : (s.updConn n g).now = s.now := rfl
@[simp] theorem State.updConn_ups (n : Nat) (g : Conn → Conn) : (s.updConn n g).ups = s.ups := rfl
@[simp] theorem State.updConn_evr (n : Nat) (g : Conn → Conn) : (s.updConn n g).evr = s.evr := rfl
@[simp] theorem State.updConn_cores (n : Nat) (g : Conn → Conn) : (s.updConn n g).cores = s.cores := rfl
@[simp] theorem State.updConn_mem (n : Nat) (g : Conn → Conn) : (s.updConn n g).mem = s.mem := rfl
@[simp] theorem State.updConn_inject (n : Nat) (g : Conn → Conn) : (s.updConn n g).inject = s.inject := rfl
@[simp] theorem State.updConn_slots (n : Nat) (g : Conn → Conn) : (s.updConn n g).slots = s.slots := rfl
@[simp] theorem State.updConn_mmuCache (n : Nat) (g : Conn → Conn) : (s.updConn n g).mmuCache = s.mmuCache := rfl
@[simp] theorem State.updConn_remotes (n : Nat) (g : Conn → Conn) : (s.updConn n g).remotes = s.remotes := rfl
@[simp] theorem State.updConn_moverNext (n : Nat) (g : Conn → Conn) : (s.updConn n g).moverNext = s.moverNext := rfl
@[simp] theorem State.updConn_ccRecord (n : Nat) (g : Conn → Conn) : (s.updConn n g).ccRecord = s.ccRecord := rfl
@[simp] theorem State.updConn_nextTable (n : Nat) (g : Conn → Conn) : (s.updConn n g).nextTable = s.nextTable := rfl
@[simp] theorem State.updConn_nextTag (n : Nat) (g : Conn → Conn) : (s.updConn n g).nextTag = s.nextTag := rfl
@[simp] theorem State.updConn_movers (n : Nat) (g : Conn → Conn) : (s.updConn n g).movers = s.movers := rfl
@[simp] theorem State.updConn_links (n : Nat) (g : Conn → Conn) : (s.updConn n g).links = s.links := rfl
@[simp] theorem State.updConn_lanes (n : Nat) (g : Conn → Conn) : (s.updConn n g).lanes = s.lanes := rfl
@[simp] theorem State.updConn_deck (n : Nat) (g : Conn → Conn) : (s.updConn n g).deck = s.deck := rfl
@[simp] theorem State.updConn_axes (n : Nat) (g : Conn → Conn) : (s.updConn n g).axes = s.axes := rfl
@[simp] theorem State.updConn_time (n : Nat) (g : Conn → Conn) : (s.updConn n g).time = s.time := rfl
@[simp] theorem State.updConn_power (n : Nat) (g : Conn → Conn) : (s.updConn n g).power = s.power := rfl
@[simp] theorem State.updConn_colOps (n : Nat) (g : Conn → Conn) : (s.updConn n g).colOps = s.colOps := rfl
@[simp] theorem State.updConn_rotLast (n : Nat) (g : Conn → Conn) : (s.updConn n g).rotLast = s.rotLast := rfl
@[simp] theorem State.updConn_rotStep (n : Nat) (g : Conn → Conn) : (s.updConn n g).rotStep = s.rotStep := rfl
@[simp] theorem State.updConn_fencedLinks (n : Nat) (g : Conn → Conn) : (s.updConn n g).fencedLinks = s.fencedLinks := rfl
@[simp] theorem State.updConn_flits (n : Nat) (g : Conn → Conn) : (s.updConn n g).flits = s.flits := rfl
@[simp] theorem State.updConn_staged (n : Nat) (g : Conn → Conn) : (s.updConn n g).staged = s.staged := rfl
@[simp] theorem State.updConn_epochTick (n : Nat) (g : Conn → Conn) : (s.updConn n g).epochTick = s.epochTick := rfl
@[simp] theorem State.updConn_epochDue (n : Nat) (g : Conn → Conn) : (s.updConn n g).epochDue = s.epochDue := rfl
@[simp] theorem State.updConn_votedHolders (n : Nat) (g : Conn → Conn) : (s.updConn n g).votedHolders = s.votedHolders := rfl
@[simp] theorem State.updConn_voteDelays (n : Nat) (g : Conn → Conn) : (s.updConn n g).voteDelays = s.voteDelays := rfl
@[simp] theorem State.updConn_nextDelays (n : Nat) (g : Conn → Conn) : (s.updConn n g).nextDelays = s.nextDelays := rfl
@[simp] theorem State.updConn_spares (n : Nat) (g : Conn → Conn) : (s.updConn n g).spares = s.spares := rfl
@[simp] theorem State.updConn_mgmtReq (n : Nat) (g : Conn → Conn) : (s.updConn n g).mgmtReq = s.mgmtReq := rfl
@[simp] theorem State.updConn_lineReads (n : Nat) (g : Conn → Conn) : (s.updConn n g).lineReads = s.lineReads := rfl
@[simp] theorem State.updConn_farFields (n : Nat) (g : Conn → Conn) : (s.updConn n g).farFields = s.farFields := rfl
@[simp] theorem State.updConn_farJobs (n : Nat) (g : Conn → Conn) : (s.updConn n g).farJobs = s.farJobs := rfl
@[simp] theorem State.updConn_shares (n : Nat) (g : Conn → Conn) : (s.updConn n g).shares = s.shares := rfl
@[simp] theorem State.updConn_positions (n : Nat) (g : Conn → Conn) : (s.updConn n g).positions = s.positions := rfl
@[simp] theorem State.updConn_integ (n : Nat) (g : Conn → Conn) : (s.updConn n g).integ = s.integ := rfl
@[simp] theorem State.updConn_cal (n : Nat) (g : Conn → Conn) : (s.updConn n g).cal = s.cal := rfl
@[simp] theorem State.updConn_meter (n : Nat) (g : Conn → Conn) : (s.updConn n g).meter = s.meter := rfl
@[simp] theorem State.updConn_cart (n : Nat) (g : Conn → Conn) : (s.updConn n g).cart = s.cart := rfl
@[simp] theorem State.updConn_flashA (n : Nat) (g : Conn → Conn) : (s.updConn n g).flashA = s.flashA := rfl
@[simp] theorem State.updConn_flashB (n : Nat) (g : Conn → Conn) : (s.updConn n g).flashB = s.flashB := rfl
@[simp] theorem State.updConn_savedAt (n : Nat) (g : Conn → Conn) : (s.updConn n g).savedAt = s.savedAt := rfl
@[simp] theorem State.updConn_fuses (n : Nat) (g : Conn → Conn) : (s.updConn n g).fuses = s.fuses := rfl
@[simp] theorem State.updConn_domains (n : Nat) (g : Conn → Conn) : (s.updConn n g).domains = s.domains := rfl
@[simp] theorem State.updConn_access (n : Nat) (g : Conn → Conn) : (s.updConn n g).access = s.access := rfl
@[simp] theorem State.updConn_saved (n : Nat) (g : Conn → Conn) : (s.updConn n g).saved = s.saved := rfl
@[simp] theorem State.updConn_areas (n : Nat) (g : Conn → Conn) : (s.updConn n g).areas = s.areas := rfl
@[simp] theorem State.updConn_jobs (n : Nat) (g : Conn → Conn) : (s.updConn n g).jobs = s.jobs := rfl
@[simp] theorem State.updConn_works (n : Nat) (g : Conn → Conn) : (s.updConn n g).works = s.works := rfl
@[simp] theorem State.updConn_nextJob (n : Nat) (g : Conn → Conn) : (s.updConn n g).nextJob = s.nextJob := rfl
@[simp] theorem State.updConn_nextOrder (n : Nat) (g : Conn → Conn) : (s.updConn n g).nextOrder = s.nextOrder := rfl
@[simp] theorem State.updConn_nextWork (n : Nat) (g : Conn → Conn) : (s.updConn n g).nextWork = s.nextWork := rfl
@[simp] theorem State.updConn_nextIdent (n : Nat) (g : Conn → Conn) : (s.updConn n g).nextIdent = s.nextIdent := rfl
@[simp] theorem State.updConn_out (n : Nat) (g : Conn → Conn) : (s.updConn n g).out = s.out := rfl
@[simp] theorem State.updConn_free (n : Nat) (g : Conn → Conn) : (s.updConn n g).free = s.free := rfl
@[simp] theorem State.updConn_pending (n : Nat) (g : Conn → Conn) : (s.updConn n g).pending = s.pending := rfl

/-! ## updCart -/

@[simp] theorem State.updCart_regs (g : Cart → Cart) : (s.updCart g).regs = s.regs := rfl
@[simp] theorem State.updCart_now (g : Cart → Cart) : (s.updCart g).now = s.now := rfl
@[simp] theorem State.updCart_ups (g : Cart → Cart) : (s.updCart g).ups = s.ups := rfl
@[simp] theorem State.updCart_evr (g : Cart → Cart) : (s.updCart g).evr = s.evr := rfl
@[simp] theorem State.updCart_cores (g : Cart → Cart) : (s.updCart g).cores = s.cores := rfl
@[simp] theorem State.updCart_mem (g : Cart → Cart) : (s.updCart g).mem = s.mem := rfl
@[simp] theorem State.updCart_inject (g : Cart → Cart) : (s.updCart g).inject = s.inject := rfl
@[simp] theorem State.updCart_slots (g : Cart → Cart) : (s.updCart g).slots = s.slots := rfl
@[simp] theorem State.updCart_mmuCache (g : Cart → Cart) : (s.updCart g).mmuCache = s.mmuCache := rfl
@[simp] theorem State.updCart_remotes (g : Cart → Cart) : (s.updCart g).remotes = s.remotes := rfl
@[simp] theorem State.updCart_moverNext (g : Cart → Cart) : (s.updCart g).moverNext = s.moverNext := rfl
@[simp] theorem State.updCart_ccRecord (g : Cart → Cart) : (s.updCart g).ccRecord = s.ccRecord := rfl
@[simp] theorem State.updCart_nextTable (g : Cart → Cart) : (s.updCart g).nextTable = s.nextTable := rfl
@[simp] theorem State.updCart_nextTag (g : Cart → Cart) : (s.updCart g).nextTag = s.nextTag := rfl
@[simp] theorem State.updCart_movers (g : Cart → Cart) : (s.updCart g).movers = s.movers := rfl
@[simp] theorem State.updCart_links (g : Cart → Cart) : (s.updCart g).links = s.links := rfl
@[simp] theorem State.updCart_lanes (g : Cart → Cart) : (s.updCart g).lanes = s.lanes := rfl
@[simp] theorem State.updCart_deck (g : Cart → Cart) : (s.updCart g).deck = s.deck := rfl
@[simp] theorem State.updCart_axes (g : Cart → Cart) : (s.updCart g).axes = s.axes := rfl
@[simp] theorem State.updCart_time (g : Cart → Cart) : (s.updCart g).time = s.time := rfl
@[simp] theorem State.updCart_power (g : Cart → Cart) : (s.updCart g).power = s.power := rfl
@[simp] theorem State.updCart_colOps (g : Cart → Cart) : (s.updCart g).colOps = s.colOps := rfl
@[simp] theorem State.updCart_rotLast (g : Cart → Cart) : (s.updCart g).rotLast = s.rotLast := rfl
@[simp] theorem State.updCart_rotStep (g : Cart → Cart) : (s.updCart g).rotStep = s.rotStep := rfl
@[simp] theorem State.updCart_fencedLinks (g : Cart → Cart) : (s.updCart g).fencedLinks = s.fencedLinks := rfl
@[simp] theorem State.updCart_flits (g : Cart → Cart) : (s.updCart g).flits = s.flits := rfl
@[simp] theorem State.updCart_staged (g : Cart → Cart) : (s.updCart g).staged = s.staged := rfl
@[simp] theorem State.updCart_epochTick (g : Cart → Cart) : (s.updCart g).epochTick = s.epochTick := rfl
@[simp] theorem State.updCart_epochDue (g : Cart → Cart) : (s.updCart g).epochDue = s.epochDue := rfl
@[simp] theorem State.updCart_votedHolders (g : Cart → Cart) : (s.updCart g).votedHolders = s.votedHolders := rfl
@[simp] theorem State.updCart_voteDelays (g : Cart → Cart) : (s.updCart g).voteDelays = s.voteDelays := rfl
@[simp] theorem State.updCart_nextDelays (g : Cart → Cart) : (s.updCart g).nextDelays = s.nextDelays := rfl
@[simp] theorem State.updCart_spares (g : Cart → Cart) : (s.updCart g).spares = s.spares := rfl
@[simp] theorem State.updCart_mgmtReq (g : Cart → Cart) : (s.updCart g).mgmtReq = s.mgmtReq := rfl
@[simp] theorem State.updCart_lineReads (g : Cart → Cart) : (s.updCart g).lineReads = s.lineReads := rfl
@[simp] theorem State.updCart_farFields (g : Cart → Cart) : (s.updCart g).farFields = s.farFields := rfl
@[simp] theorem State.updCart_farJobs (g : Cart → Cart) : (s.updCart g).farJobs = s.farJobs := rfl
@[simp] theorem State.updCart_shares (g : Cart → Cart) : (s.updCart g).shares = s.shares := rfl
@[simp] theorem State.updCart_positions (g : Cart → Cart) : (s.updCart g).positions = s.positions := rfl
@[simp] theorem State.updCart_integ (g : Cart → Cart) : (s.updCart g).integ = s.integ := rfl
@[simp] theorem State.updCart_cal (g : Cart → Cart) : (s.updCart g).cal = s.cal := rfl
@[simp] theorem State.updCart_meter (g : Cart → Cart) : (s.updCart g).meter = s.meter := rfl
@[simp] theorem State.updCart_flashA (g : Cart → Cart) : (s.updCart g).flashA = s.flashA := rfl
@[simp] theorem State.updCart_flashB (g : Cart → Cart) : (s.updCart g).flashB = s.flashB := rfl
@[simp] theorem State.updCart_savedAt (g : Cart → Cart) : (s.updCart g).savedAt = s.savedAt := rfl
@[simp] theorem State.updCart_fuses (g : Cart → Cart) : (s.updCart g).fuses = s.fuses := rfl
@[simp] theorem State.updCart_domains (g : Cart → Cart) : (s.updCart g).domains = s.domains := rfl
@[simp] theorem State.updCart_access (g : Cart → Cart) : (s.updCart g).access = s.access := rfl
@[simp] theorem State.updCart_saved (g : Cart → Cart) : (s.updCart g).saved = s.saved := rfl
@[simp] theorem State.updCart_areas (g : Cart → Cart) : (s.updCart g).areas = s.areas := rfl
@[simp] theorem State.updCart_conns (g : Cart → Cart) : (s.updCart g).conns = s.conns := rfl
@[simp] theorem State.updCart_jobs (g : Cart → Cart) : (s.updCart g).jobs = s.jobs := rfl
@[simp] theorem State.updCart_works (g : Cart → Cart) : (s.updCart g).works = s.works := rfl
@[simp] theorem State.updCart_nextJob (g : Cart → Cart) : (s.updCart g).nextJob = s.nextJob := rfl
@[simp] theorem State.updCart_nextOrder (g : Cart → Cart) : (s.updCart g).nextOrder = s.nextOrder := rfl
@[simp] theorem State.updCart_nextWork (g : Cart → Cart) : (s.updCart g).nextWork = s.nextWork := rfl
@[simp] theorem State.updCart_nextIdent (g : Cart → Cart) : (s.updCart g).nextIdent = s.nextIdent := rfl
@[simp] theorem State.updCart_out (g : Cart → Cart) : (s.updCart g).out = s.out := rfl
@[simp] theorem State.updCart_free (g : Cart → Cart) : (s.updCart g).free = s.free := rfl
@[simp] theorem State.updCart_pending (g : Cart → Cart) : (s.updCart g).pending = s.pending := rfl

/-! ## updMeter -/

@[simp] theorem State.updMeter_regs (g : Meter → Meter) : (s.updMeter g).regs = s.regs := rfl
@[simp] theorem State.updMeter_now (g : Meter → Meter) : (s.updMeter g).now = s.now := rfl
@[simp] theorem State.updMeter_ups (g : Meter → Meter) : (s.updMeter g).ups = s.ups := rfl
@[simp] theorem State.updMeter_evr (g : Meter → Meter) : (s.updMeter g).evr = s.evr := rfl
@[simp] theorem State.updMeter_cores (g : Meter → Meter) : (s.updMeter g).cores = s.cores := rfl
@[simp] theorem State.updMeter_mem (g : Meter → Meter) : (s.updMeter g).mem = s.mem := rfl
@[simp] theorem State.updMeter_inject (g : Meter → Meter) : (s.updMeter g).inject = s.inject := rfl
@[simp] theorem State.updMeter_slots (g : Meter → Meter) : (s.updMeter g).slots = s.slots := rfl
@[simp] theorem State.updMeter_mmuCache (g : Meter → Meter) : (s.updMeter g).mmuCache = s.mmuCache := rfl
@[simp] theorem State.updMeter_remotes (g : Meter → Meter) : (s.updMeter g).remotes = s.remotes := rfl
@[simp] theorem State.updMeter_moverNext (g : Meter → Meter) : (s.updMeter g).moverNext = s.moverNext := rfl
@[simp] theorem State.updMeter_ccRecord (g : Meter → Meter) : (s.updMeter g).ccRecord = s.ccRecord := rfl
@[simp] theorem State.updMeter_nextTable (g : Meter → Meter) : (s.updMeter g).nextTable = s.nextTable := rfl
@[simp] theorem State.updMeter_nextTag (g : Meter → Meter) : (s.updMeter g).nextTag = s.nextTag := rfl
@[simp] theorem State.updMeter_movers (g : Meter → Meter) : (s.updMeter g).movers = s.movers := rfl
@[simp] theorem State.updMeter_links (g : Meter → Meter) : (s.updMeter g).links = s.links := rfl
@[simp] theorem State.updMeter_lanes (g : Meter → Meter) : (s.updMeter g).lanes = s.lanes := rfl
@[simp] theorem State.updMeter_deck (g : Meter → Meter) : (s.updMeter g).deck = s.deck := rfl
@[simp] theorem State.updMeter_axes (g : Meter → Meter) : (s.updMeter g).axes = s.axes := rfl
@[simp] theorem State.updMeter_time (g : Meter → Meter) : (s.updMeter g).time = s.time := rfl
@[simp] theorem State.updMeter_power (g : Meter → Meter) : (s.updMeter g).power = s.power := rfl
@[simp] theorem State.updMeter_colOps (g : Meter → Meter) : (s.updMeter g).colOps = s.colOps := rfl
@[simp] theorem State.updMeter_rotLast (g : Meter → Meter) : (s.updMeter g).rotLast = s.rotLast := rfl
@[simp] theorem State.updMeter_rotStep (g : Meter → Meter) : (s.updMeter g).rotStep = s.rotStep := rfl
@[simp] theorem State.updMeter_fencedLinks (g : Meter → Meter) : (s.updMeter g).fencedLinks = s.fencedLinks := rfl
@[simp] theorem State.updMeter_flits (g : Meter → Meter) : (s.updMeter g).flits = s.flits := rfl
@[simp] theorem State.updMeter_staged (g : Meter → Meter) : (s.updMeter g).staged = s.staged := rfl
@[simp] theorem State.updMeter_epochTick (g : Meter → Meter) : (s.updMeter g).epochTick = s.epochTick := rfl
@[simp] theorem State.updMeter_epochDue (g : Meter → Meter) : (s.updMeter g).epochDue = s.epochDue := rfl
@[simp] theorem State.updMeter_votedHolders (g : Meter → Meter) : (s.updMeter g).votedHolders = s.votedHolders := rfl
@[simp] theorem State.updMeter_voteDelays (g : Meter → Meter) : (s.updMeter g).voteDelays = s.voteDelays := rfl
@[simp] theorem State.updMeter_nextDelays (g : Meter → Meter) : (s.updMeter g).nextDelays = s.nextDelays := rfl
@[simp] theorem State.updMeter_spares (g : Meter → Meter) : (s.updMeter g).spares = s.spares := rfl
@[simp] theorem State.updMeter_mgmtReq (g : Meter → Meter) : (s.updMeter g).mgmtReq = s.mgmtReq := rfl
@[simp] theorem State.updMeter_lineReads (g : Meter → Meter) : (s.updMeter g).lineReads = s.lineReads := rfl
@[simp] theorem State.updMeter_farFields (g : Meter → Meter) : (s.updMeter g).farFields = s.farFields := rfl
@[simp] theorem State.updMeter_farJobs (g : Meter → Meter) : (s.updMeter g).farJobs = s.farJobs := rfl
@[simp] theorem State.updMeter_shares (g : Meter → Meter) : (s.updMeter g).shares = s.shares := rfl
@[simp] theorem State.updMeter_positions (g : Meter → Meter) : (s.updMeter g).positions = s.positions := rfl
@[simp] theorem State.updMeter_integ (g : Meter → Meter) : (s.updMeter g).integ = s.integ := rfl
@[simp] theorem State.updMeter_cal (g : Meter → Meter) : (s.updMeter g).cal = s.cal := rfl
@[simp] theorem State.updMeter_cart (g : Meter → Meter) : (s.updMeter g).cart = s.cart := rfl
@[simp] theorem State.updMeter_flashA (g : Meter → Meter) : (s.updMeter g).flashA = s.flashA := rfl
@[simp] theorem State.updMeter_flashB (g : Meter → Meter) : (s.updMeter g).flashB = s.flashB := rfl
@[simp] theorem State.updMeter_savedAt (g : Meter → Meter) : (s.updMeter g).savedAt = s.savedAt := rfl
@[simp] theorem State.updMeter_fuses (g : Meter → Meter) : (s.updMeter g).fuses = s.fuses := rfl
@[simp] theorem State.updMeter_domains (g : Meter → Meter) : (s.updMeter g).domains = s.domains := rfl
@[simp] theorem State.updMeter_access (g : Meter → Meter) : (s.updMeter g).access = s.access := rfl
@[simp] theorem State.updMeter_saved (g : Meter → Meter) : (s.updMeter g).saved = s.saved := rfl
@[simp] theorem State.updMeter_areas (g : Meter → Meter) : (s.updMeter g).areas = s.areas := rfl
@[simp] theorem State.updMeter_conns (g : Meter → Meter) : (s.updMeter g).conns = s.conns := rfl
@[simp] theorem State.updMeter_jobs (g : Meter → Meter) : (s.updMeter g).jobs = s.jobs := rfl
@[simp] theorem State.updMeter_works (g : Meter → Meter) : (s.updMeter g).works = s.works := rfl
@[simp] theorem State.updMeter_nextJob (g : Meter → Meter) : (s.updMeter g).nextJob = s.nextJob := rfl
@[simp] theorem State.updMeter_nextOrder (g : Meter → Meter) : (s.updMeter g).nextOrder = s.nextOrder := rfl
@[simp] theorem State.updMeter_nextWork (g : Meter → Meter) : (s.updMeter g).nextWork = s.nextWork := rfl
@[simp] theorem State.updMeter_nextIdent (g : Meter → Meter) : (s.updMeter g).nextIdent = s.nextIdent := rfl
@[simp] theorem State.updMeter_out (g : Meter → Meter) : (s.updMeter g).out = s.out := rfl
@[simp] theorem State.updMeter_free (g : Meter → Meter) : (s.updMeter g).free = s.free := rfl
@[simp] theorem State.updMeter_pending (g : Meter → Meter) : (s.updMeter g).pending = s.pending := rfl

/-! ## updDomains -/

@[simp] theorem State.updDomains_regs (g : Domains → Domains) : (s.updDomains g).regs = s.regs := rfl
@[simp] theorem State.updDomains_now (g : Domains → Domains) : (s.updDomains g).now = s.now := rfl
@[simp] theorem State.updDomains_ups (g : Domains → Domains) : (s.updDomains g).ups = s.ups := rfl
@[simp] theorem State.updDomains_evr (g : Domains → Domains) : (s.updDomains g).evr = s.evr := rfl
@[simp] theorem State.updDomains_cores (g : Domains → Domains) : (s.updDomains g).cores = s.cores := rfl
@[simp] theorem State.updDomains_mem (g : Domains → Domains) : (s.updDomains g).mem = s.mem := rfl
@[simp] theorem State.updDomains_inject (g : Domains → Domains) : (s.updDomains g).inject = s.inject := rfl
@[simp] theorem State.updDomains_slots (g : Domains → Domains) : (s.updDomains g).slots = s.slots := rfl
@[simp] theorem State.updDomains_mmuCache (g : Domains → Domains) : (s.updDomains g).mmuCache = s.mmuCache := rfl
@[simp] theorem State.updDomains_remotes (g : Domains → Domains) : (s.updDomains g).remotes = s.remotes := rfl
@[simp] theorem State.updDomains_moverNext (g : Domains → Domains) : (s.updDomains g).moverNext = s.moverNext := rfl
@[simp] theorem State.updDomains_ccRecord (g : Domains → Domains) : (s.updDomains g).ccRecord = s.ccRecord := rfl
@[simp] theorem State.updDomains_nextTable (g : Domains → Domains) : (s.updDomains g).nextTable = s.nextTable := rfl
@[simp] theorem State.updDomains_nextTag (g : Domains → Domains) : (s.updDomains g).nextTag = s.nextTag := rfl
@[simp] theorem State.updDomains_movers (g : Domains → Domains) : (s.updDomains g).movers = s.movers := rfl
@[simp] theorem State.updDomains_links (g : Domains → Domains) : (s.updDomains g).links = s.links := rfl
@[simp] theorem State.updDomains_lanes (g : Domains → Domains) : (s.updDomains g).lanes = s.lanes := rfl
@[simp] theorem State.updDomains_deck (g : Domains → Domains) : (s.updDomains g).deck = s.deck := rfl
@[simp] theorem State.updDomains_axes (g : Domains → Domains) : (s.updDomains g).axes = s.axes := rfl
@[simp] theorem State.updDomains_time (g : Domains → Domains) : (s.updDomains g).time = s.time := rfl
@[simp] theorem State.updDomains_power (g : Domains → Domains) : (s.updDomains g).power = s.power := rfl
@[simp] theorem State.updDomains_colOps (g : Domains → Domains) : (s.updDomains g).colOps = s.colOps := rfl
@[simp] theorem State.updDomains_rotLast (g : Domains → Domains) : (s.updDomains g).rotLast = s.rotLast := rfl
@[simp] theorem State.updDomains_rotStep (g : Domains → Domains) : (s.updDomains g).rotStep = s.rotStep := rfl
@[simp] theorem State.updDomains_fencedLinks (g : Domains → Domains) : (s.updDomains g).fencedLinks = s.fencedLinks := rfl
@[simp] theorem State.updDomains_flits (g : Domains → Domains) : (s.updDomains g).flits = s.flits := rfl
@[simp] theorem State.updDomains_staged (g : Domains → Domains) : (s.updDomains g).staged = s.staged := rfl
@[simp] theorem State.updDomains_epochTick (g : Domains → Domains) : (s.updDomains g).epochTick = s.epochTick := rfl
@[simp] theorem State.updDomains_epochDue (g : Domains → Domains) : (s.updDomains g).epochDue = s.epochDue := rfl
@[simp] theorem State.updDomains_votedHolders (g : Domains → Domains) : (s.updDomains g).votedHolders = s.votedHolders := rfl
@[simp] theorem State.updDomains_voteDelays (g : Domains → Domains) : (s.updDomains g).voteDelays = s.voteDelays := rfl
@[simp] theorem State.updDomains_nextDelays (g : Domains → Domains) : (s.updDomains g).nextDelays = s.nextDelays := rfl
@[simp] theorem State.updDomains_spares (g : Domains → Domains) : (s.updDomains g).spares = s.spares := rfl
@[simp] theorem State.updDomains_mgmtReq (g : Domains → Domains) : (s.updDomains g).mgmtReq = s.mgmtReq := rfl
@[simp] theorem State.updDomains_lineReads (g : Domains → Domains) : (s.updDomains g).lineReads = s.lineReads := rfl
@[simp] theorem State.updDomains_farFields (g : Domains → Domains) : (s.updDomains g).farFields = s.farFields := rfl
@[simp] theorem State.updDomains_farJobs (g : Domains → Domains) : (s.updDomains g).farJobs = s.farJobs := rfl
@[simp] theorem State.updDomains_shares (g : Domains → Domains) : (s.updDomains g).shares = s.shares := rfl
@[simp] theorem State.updDomains_positions (g : Domains → Domains) : (s.updDomains g).positions = s.positions := rfl
@[simp] theorem State.updDomains_integ (g : Domains → Domains) : (s.updDomains g).integ = s.integ := rfl
@[simp] theorem State.updDomains_cal (g : Domains → Domains) : (s.updDomains g).cal = s.cal := rfl
@[simp] theorem State.updDomains_meter (g : Domains → Domains) : (s.updDomains g).meter = s.meter := rfl
@[simp] theorem State.updDomains_cart (g : Domains → Domains) : (s.updDomains g).cart = s.cart := rfl
@[simp] theorem State.updDomains_flashA (g : Domains → Domains) : (s.updDomains g).flashA = s.flashA := rfl
@[simp] theorem State.updDomains_flashB (g : Domains → Domains) : (s.updDomains g).flashB = s.flashB := rfl
@[simp] theorem State.updDomains_savedAt (g : Domains → Domains) : (s.updDomains g).savedAt = s.savedAt := rfl
@[simp] theorem State.updDomains_fuses (g : Domains → Domains) : (s.updDomains g).fuses = s.fuses := rfl
@[simp] theorem State.updDomains_access (g : Domains → Domains) : (s.updDomains g).access = s.access := rfl
@[simp] theorem State.updDomains_saved (g : Domains → Domains) : (s.updDomains g).saved = s.saved := rfl
@[simp] theorem State.updDomains_areas (g : Domains → Domains) : (s.updDomains g).areas = s.areas := rfl
@[simp] theorem State.updDomains_conns (g : Domains → Domains) : (s.updDomains g).conns = s.conns := rfl
@[simp] theorem State.updDomains_jobs (g : Domains → Domains) : (s.updDomains g).jobs = s.jobs := rfl
@[simp] theorem State.updDomains_works (g : Domains → Domains) : (s.updDomains g).works = s.works := rfl
@[simp] theorem State.updDomains_nextJob (g : Domains → Domains) : (s.updDomains g).nextJob = s.nextJob := rfl
@[simp] theorem State.updDomains_nextOrder (g : Domains → Domains) : (s.updDomains g).nextOrder = s.nextOrder := rfl
@[simp] theorem State.updDomains_nextWork (g : Domains → Domains) : (s.updDomains g).nextWork = s.nextWork := rfl
@[simp] theorem State.updDomains_nextIdent (g : Domains → Domains) : (s.updDomains g).nextIdent = s.nextIdent := rfl
@[simp] theorem State.updDomains_out (g : Domains → Domains) : (s.updDomains g).out = s.out := rfl
@[simp] theorem State.updDomains_free (g : Domains → Domains) : (s.updDomains g).free = s.free := rfl
@[simp] theorem State.updDomains_pending (g : Domains → Domains) : (s.updDomains g).pending = s.pending := rfl

/-! ## updAccess -/

@[simp] theorem State.updAccess_regs (g : SetupSide → SetupSide) : (s.updAccess g).regs = s.regs := rfl
@[simp] theorem State.updAccess_now (g : SetupSide → SetupSide) : (s.updAccess g).now = s.now := rfl
@[simp] theorem State.updAccess_ups (g : SetupSide → SetupSide) : (s.updAccess g).ups = s.ups := rfl
@[simp] theorem State.updAccess_evr (g : SetupSide → SetupSide) : (s.updAccess g).evr = s.evr := rfl
@[simp] theorem State.updAccess_cores (g : SetupSide → SetupSide) : (s.updAccess g).cores = s.cores := rfl
@[simp] theorem State.updAccess_mem (g : SetupSide → SetupSide) : (s.updAccess g).mem = s.mem := rfl
@[simp] theorem State.updAccess_inject (g : SetupSide → SetupSide) : (s.updAccess g).inject = s.inject := rfl
@[simp] theorem State.updAccess_slots (g : SetupSide → SetupSide) : (s.updAccess g).slots = s.slots := rfl
@[simp] theorem State.updAccess_mmuCache (g : SetupSide → SetupSide) : (s.updAccess g).mmuCache = s.mmuCache := rfl
@[simp] theorem State.updAccess_remotes (g : SetupSide → SetupSide) : (s.updAccess g).remotes = s.remotes := rfl
@[simp] theorem State.updAccess_moverNext (g : SetupSide → SetupSide) : (s.updAccess g).moverNext = s.moverNext := rfl
@[simp] theorem State.updAccess_ccRecord (g : SetupSide → SetupSide) : (s.updAccess g).ccRecord = s.ccRecord := rfl
@[simp] theorem State.updAccess_nextTable (g : SetupSide → SetupSide) : (s.updAccess g).nextTable = s.nextTable := rfl
@[simp] theorem State.updAccess_nextTag (g : SetupSide → SetupSide) : (s.updAccess g).nextTag = s.nextTag := rfl
@[simp] theorem State.updAccess_movers (g : SetupSide → SetupSide) : (s.updAccess g).movers = s.movers := rfl
@[simp] theorem State.updAccess_links (g : SetupSide → SetupSide) : (s.updAccess g).links = s.links := rfl
@[simp] theorem State.updAccess_lanes (g : SetupSide → SetupSide) : (s.updAccess g).lanes = s.lanes := rfl
@[simp] theorem State.updAccess_deck (g : SetupSide → SetupSide) : (s.updAccess g).deck = s.deck := rfl
@[simp] theorem State.updAccess_axes (g : SetupSide → SetupSide) : (s.updAccess g).axes = s.axes := rfl
@[simp] theorem State.updAccess_time (g : SetupSide → SetupSide) : (s.updAccess g).time = s.time := rfl
@[simp] theorem State.updAccess_power (g : SetupSide → SetupSide) : (s.updAccess g).power = s.power := rfl
@[simp] theorem State.updAccess_colOps (g : SetupSide → SetupSide) : (s.updAccess g).colOps = s.colOps := rfl
@[simp] theorem State.updAccess_rotLast (g : SetupSide → SetupSide) : (s.updAccess g).rotLast = s.rotLast := rfl
@[simp] theorem State.updAccess_rotStep (g : SetupSide → SetupSide) : (s.updAccess g).rotStep = s.rotStep := rfl
@[simp] theorem State.updAccess_fencedLinks (g : SetupSide → SetupSide) : (s.updAccess g).fencedLinks = s.fencedLinks := rfl
@[simp] theorem State.updAccess_flits (g : SetupSide → SetupSide) : (s.updAccess g).flits = s.flits := rfl
@[simp] theorem State.updAccess_staged (g : SetupSide → SetupSide) : (s.updAccess g).staged = s.staged := rfl
@[simp] theorem State.updAccess_epochTick (g : SetupSide → SetupSide) : (s.updAccess g).epochTick = s.epochTick := rfl
@[simp] theorem State.updAccess_epochDue (g : SetupSide → SetupSide) : (s.updAccess g).epochDue = s.epochDue := rfl
@[simp] theorem State.updAccess_votedHolders (g : SetupSide → SetupSide) : (s.updAccess g).votedHolders = s.votedHolders := rfl
@[simp] theorem State.updAccess_voteDelays (g : SetupSide → SetupSide) : (s.updAccess g).voteDelays = s.voteDelays := rfl
@[simp] theorem State.updAccess_nextDelays (g : SetupSide → SetupSide) : (s.updAccess g).nextDelays = s.nextDelays := rfl
@[simp] theorem State.updAccess_spares (g : SetupSide → SetupSide) : (s.updAccess g).spares = s.spares := rfl
@[simp] theorem State.updAccess_mgmtReq (g : SetupSide → SetupSide) : (s.updAccess g).mgmtReq = s.mgmtReq := rfl
@[simp] theorem State.updAccess_lineReads (g : SetupSide → SetupSide) : (s.updAccess g).lineReads = s.lineReads := rfl
@[simp] theorem State.updAccess_farFields (g : SetupSide → SetupSide) : (s.updAccess g).farFields = s.farFields := rfl
@[simp] theorem State.updAccess_farJobs (g : SetupSide → SetupSide) : (s.updAccess g).farJobs = s.farJobs := rfl
@[simp] theorem State.updAccess_shares (g : SetupSide → SetupSide) : (s.updAccess g).shares = s.shares := rfl
@[simp] theorem State.updAccess_positions (g : SetupSide → SetupSide) : (s.updAccess g).positions = s.positions := rfl
@[simp] theorem State.updAccess_integ (g : SetupSide → SetupSide) : (s.updAccess g).integ = s.integ := rfl
@[simp] theorem State.updAccess_cal (g : SetupSide → SetupSide) : (s.updAccess g).cal = s.cal := rfl
@[simp] theorem State.updAccess_meter (g : SetupSide → SetupSide) : (s.updAccess g).meter = s.meter := rfl
@[simp] theorem State.updAccess_cart (g : SetupSide → SetupSide) : (s.updAccess g).cart = s.cart := rfl
@[simp] theorem State.updAccess_flashA (g : SetupSide → SetupSide) : (s.updAccess g).flashA = s.flashA := rfl
@[simp] theorem State.updAccess_flashB (g : SetupSide → SetupSide) : (s.updAccess g).flashB = s.flashB := rfl
@[simp] theorem State.updAccess_savedAt (g : SetupSide → SetupSide) : (s.updAccess g).savedAt = s.savedAt := rfl
@[simp] theorem State.updAccess_fuses (g : SetupSide → SetupSide) : (s.updAccess g).fuses = s.fuses := rfl
@[simp] theorem State.updAccess_domains (g : SetupSide → SetupSide) : (s.updAccess g).domains = s.domains := rfl
@[simp] theorem State.updAccess_saved (g : SetupSide → SetupSide) : (s.updAccess g).saved = s.saved := rfl
@[simp] theorem State.updAccess_areas (g : SetupSide → SetupSide) : (s.updAccess g).areas = s.areas := rfl
@[simp] theorem State.updAccess_conns (g : SetupSide → SetupSide) : (s.updAccess g).conns = s.conns := rfl
@[simp] theorem State.updAccess_jobs (g : SetupSide → SetupSide) : (s.updAccess g).jobs = s.jobs := rfl
@[simp] theorem State.updAccess_works (g : SetupSide → SetupSide) : (s.updAccess g).works = s.works := rfl
@[simp] theorem State.updAccess_nextJob (g : SetupSide → SetupSide) : (s.updAccess g).nextJob = s.nextJob := rfl
@[simp] theorem State.updAccess_nextOrder (g : SetupSide → SetupSide) : (s.updAccess g).nextOrder = s.nextOrder := rfl
@[simp] theorem State.updAccess_nextWork (g : SetupSide → SetupSide) : (s.updAccess g).nextWork = s.nextWork := rfl
@[simp] theorem State.updAccess_nextIdent (g : SetupSide → SetupSide) : (s.updAccess g).nextIdent = s.nextIdent := rfl
@[simp] theorem State.updAccess_out (g : SetupSide → SetupSide) : (s.updAccess g).out = s.out := rfl
@[simp] theorem State.updAccess_free (g : SetupSide → SetupSide) : (s.updAccess g).free = s.free := rfl
@[simp] theorem State.updAccess_pending (g : SetupSide → SetupSide) : (s.updAccess g).pending = s.pending := rfl

end Sys2Proof.Machine
end

