-- ==== Sys2Proof/Laws/Ops.lean ====
section
/-!
SUPPORT. Sys2Proof/Laws/Ops.lean: everything that the shared operations over the recorder and the counters can do: they touch
only the recorder and, of the registers, the counter itself and EVR_AUDIT.
-/
namespace Sys2Proof.Machine

/-! ## Handing an occurrence to the recorder -/

/-- The recorder moves on, and otherwise at most EVR_AUDIT changes. -/
theorem State.recorder_cases (s : State) (x : Recorder) :
    (∃ r, s.recorder x = { s with evr := r }) ∨ (∃ r v, s.recorder x = { s.wr .EVR_AUDIT 0 v with evr := r }) := by
  unfold State.recorder
  split
  · exact .inl ⟨_, rfl⟩
  · exact .inr ⟨_, _, rfl⟩

/-- An occurrence changes the recorder, and otherwise at most EVR_AUDIT. -/
theorem State.log_cases (s : State) (src code loc data : Nat) :
    (∃ r, s.log src code loc data = { s with evr := r }) ∨
    (∃ r v, s.log src code loc data = { s.wr .EVR_AUDIT 0 v with evr := r }) :=
  s.recorder_cases _

theorem State.log_rd (s : State) (src code loc data : Nat) (r : Reg) (i : Nat) (h : r ≠ .EVR_AUDIT) :
    (s.log src code loc data).rd r i = s.rd r i := by
  rcases s.log_cases src code loc data with ⟨e, h1⟩ | ⟨e, v, h1⟩
  · rw [h1]; rfl
  · rw [h1]; exact State.rd_wr_reg s v h

theorem State.log_fld (s : State) (src code loc data : Nat) (f : Fld) (i : Nat) (h : f.reg ≠ .EVR_AUDIT) :
    (s.log src code loc data).fld f i = s.fld f i := by
  unfold State.fld; rw [State.log_rd _ _ _ _ _ _ _ h]

theorem State.log_regs_wf (s : State) (src code loc data : Nat) (h : mapWf regDflt s.regs = true) :
    mapWf regDflt (s.log src code loc data).regs = true := by
  rcases s.log_cases src code loc data with ⟨e, h1⟩ | ⟨e, v, h1⟩
  · rw [h1]; exact h
  · rw [h1]; exact s.wr_regs_wf _ _ _ h

@[simp] theorem State.log_now (s : State) (src code loc data : Nat) : (s.log src code loc data).now = s.now := by
  rcases s.log_cases src code loc data with ⟨_, h⟩ | ⟨_, _, h⟩ <;> exact (congrArg State.now h).trans rfl
@[simp] theorem State.log_ups (s : State) (src code loc data : Nat) : (s.log src code loc data).ups = s.ups := by
  rcases s.log_cases src code loc data with ⟨_, h⟩ | ⟨_, _, h⟩ <;> exact (congrArg State.ups h).trans rfl
@[simp] theorem State.log_cores (s : State) (src code loc data : Nat) : (s.log src code loc data).cores = s.cores := by
  rcases s.log_cases src code loc data with ⟨_, h⟩ | ⟨_, _, h⟩ <;> exact (congrArg State.cores h).trans rfl
@[simp] theorem State.log_mem (s : State) (src code loc data : Nat) : (s.log src code loc data).mem = s.mem := by
  rcases s.log_cases src code loc data with ⟨_, h⟩ | ⟨_, _, h⟩ <;> exact (congrArg State.mem h).trans rfl
@[simp] theorem State.log_inject (s : State) (src code loc data : Nat) : (s.log src code loc data).inject = s.inject := by
  rcases s.log_cases src code loc data with ⟨_, h⟩ | ⟨_, _, h⟩ <;> exact (congrArg State.inject h).trans rfl
@[simp] theorem State.log_slots (s : State) (src code loc data : Nat) : (s.log src code loc data).slots = s.slots := by
  rcases s.log_cases src code loc data with ⟨_, h⟩ | ⟨_, _, h⟩ <;> exact (congrArg State.slots h).trans rfl
@[simp] theorem State.log_mmuCache (s : State) (src code loc data : Nat) : (s.log src code loc data).mmuCache = s.mmuCache := by
  rcases s.log_cases src code loc data with ⟨_, h⟩ | ⟨_, _, h⟩ <;> exact (congrArg State.mmuCache h).trans rfl
@[simp] theorem State.log_remotes (s : State) (src code loc data : Nat) : (s.log src code loc data).remotes = s.remotes := by
  rcases s.log_cases src code loc data with ⟨_, h⟩ | ⟨_, _, h⟩ <;> exact (congrArg State.remotes h).trans rfl
@[simp] theorem State.log_ccRecord (s : State) (src code loc data : Nat) : (s.log src code loc data).ccRecord = s.ccRecord := by
  rcases s.log_cases src code loc data with ⟨_, h⟩ | ⟨_, _, h⟩ <;> exact (congrArg State.ccRecord h).trans rfl
@[simp] theorem State.log_nextTable (s : State) (src code loc data : Nat) : (s.log src code loc data).nextTable = s.nextTable := by
  rcases s.log_cases src code loc data with ⟨_, h⟩ | ⟨_, _, h⟩ <;> exact (congrArg State.nextTable h).trans rfl
@[simp] theorem State.log_nextTag (s : State) (src code loc data : Nat) : (s.log src code loc data).nextTag = s.nextTag := by
  rcases s.log_cases src code loc data with ⟨_, h⟩ | ⟨_, _, h⟩ <;> exact (congrArg State.nextTag h).trans rfl
@[simp] theorem State.log_movers (s : State) (src code loc data : Nat) : (s.log src code loc data).movers = s.movers := by
  rcases s.log_cases src code loc data with ⟨_, h⟩ | ⟨_, _, h⟩ <;> exact (congrArg State.movers h).trans rfl
@[simp] theorem State.log_links (s : State) (src code loc data : Nat) : (s.log src code loc data).links = s.links := by
  rcases s.log_cases src code loc data with ⟨_, h⟩ | ⟨_, _, h⟩ <;> exact (congrArg State.links h).trans rfl
@[simp] theorem State.log_lanes (s : State) (src code loc data : Nat) : (s.log src code loc data).lanes = s.lanes := by
  rcases s.log_cases src code loc data with ⟨_, h⟩ | ⟨_, _, h⟩ <;> exact (congrArg State.lanes h).trans rfl
@[simp] theorem State.log_deck (s : State) (src code loc data : Nat) : (s.log src code loc data).deck = s.deck := by
  rcases s.log_cases src code loc data with ⟨_, h⟩ | ⟨_, _, h⟩ <;> exact (congrArg State.deck h).trans rfl
@[simp] theorem State.log_axes (s : State) (src code loc data : Nat) : (s.log src code loc data).axes = s.axes := by
  rcases s.log_cases src code loc data with ⟨_, h⟩ | ⟨_, _, h⟩ <;> exact (congrArg State.axes h).trans rfl
@[simp] theorem State.log_time (s : State) (src code loc data : Nat) : (s.log src code loc data).time = s.time := by
  rcases s.log_cases src code loc data with ⟨_, h⟩ | ⟨_, _, h⟩ <;> exact (congrArg State.time h).trans rfl
@[simp] theorem State.log_power (s : State) (src code loc data : Nat) : (s.log src code loc data).power = s.power := by
  rcases s.log_cases src code loc data with ⟨_, h⟩ | ⟨_, _, h⟩ <;> exact (congrArg State.power h).trans rfl
@[simp] theorem State.log_colOps (s : State) (src code loc data : Nat) : (s.log src code loc data).colOps = s.colOps := by
  rcases s.log_cases src code loc data with ⟨_, h⟩ | ⟨_, _, h⟩ <;> exact (congrArg State.colOps h).trans rfl
@[simp] theorem State.log_staged (s : State) (src code loc data : Nat) : (s.log src code loc data).staged = s.staged := by
  rcases s.log_cases src code loc data with ⟨_, h⟩ | ⟨_, _, h⟩ <;> exact (congrArg State.staged h).trans rfl
@[simp] theorem State.log_epochTick (s : State) (src code loc data : Nat) : (s.log src code loc data).epochTick = s.epochTick := by
  rcases s.log_cases src code loc data with ⟨_, h⟩ | ⟨_, _, h⟩ <;> exact (congrArg State.epochTick h).trans rfl
@[simp] theorem State.log_shares (s : State) (src code loc data : Nat) : (s.log src code loc data).shares = s.shares := by
  rcases s.log_cases src code loc data with ⟨_, h⟩ | ⟨_, _, h⟩ <;> exact (congrArg State.shares h).trans rfl
@[simp] theorem State.log_positions (s : State) (src code loc data : Nat) : (s.log src code loc data).positions = s.positions := by
  rcases s.log_cases src code loc data with ⟨_, h⟩ | ⟨_, _, h⟩ <;> exact (congrArg State.positions h).trans rfl
@[simp] theorem State.log_integ (s : State) (src code loc data : Nat) : (s.log src code loc data).integ = s.integ := by
  rcases s.log_cases src code loc data with ⟨_, h⟩ | ⟨_, _, h⟩ <;> exact (congrArg State.integ h).trans rfl
@[simp] theorem State.log_cal (s : State) (src code loc data : Nat) : (s.log src code loc data).cal = s.cal := by
  rcases s.log_cases src code loc data with ⟨_, h⟩ | ⟨_, _, h⟩ <;> exact (congrArg State.cal h).trans rfl
@[simp] theorem State.log_meter (s : State) (src code loc data : Nat) : (s.log src code loc data).meter = s.meter := by
  rcases s.log_cases src code loc data with ⟨_, h⟩ | ⟨_, _, h⟩ <;> exact (congrArg State.meter h).trans rfl
@[simp] theorem State.log_cart (s : State) (src code loc data : Nat) : (s.log src code loc data).cart = s.cart := by
  rcases s.log_cases src code loc data with ⟨_, h⟩ | ⟨_, _, h⟩ <;> exact (congrArg State.cart h).trans rfl
@[simp] theorem State.log_flashA (s : State) (src code loc data : Nat) : (s.log src code loc data).flashA = s.flashA := by
  rcases s.log_cases src code loc data with ⟨_, h⟩ | ⟨_, _, h⟩ <;> exact (congrArg State.flashA h).trans rfl
@[simp] theorem State.log_flashB (s : State) (src code loc data : Nat) : (s.log src code loc data).flashB = s.flashB := by
  rcases s.log_cases src code loc data with ⟨_, h⟩ | ⟨_, _, h⟩ <;> exact (congrArg State.flashB h).trans rfl
@[simp] theorem State.log_savedAt (s : State) (src code loc data : Nat) : (s.log src code loc data).savedAt = s.savedAt := by
  rcases s.log_cases src code loc data with ⟨_, h⟩ | ⟨_, _, h⟩ <;> exact (congrArg State.savedAt h).trans rfl
@[simp] theorem State.log_fuses (s : State) (src code loc data : Nat) : (s.log src code loc data).fuses = s.fuses := by
  rcases s.log_cases src code loc data with ⟨_, h⟩ | ⟨_, _, h⟩ <;> exact (congrArg State.fuses h).trans rfl
@[simp] theorem State.log_domains (s : State) (src code loc data : Nat) : (s.log src code loc data).domains = s.domains := by
  rcases s.log_cases src code loc data with ⟨_, h⟩ | ⟨_, _, h⟩ <;> exact (congrArg State.domains h).trans rfl
@[simp] theorem State.log_access (s : State) (src code loc data : Nat) : (s.log src code loc data).access = s.access := by
  rcases s.log_cases src code loc data with ⟨_, h⟩ | ⟨_, _, h⟩ <;> exact (congrArg State.access h).trans rfl
@[simp] theorem State.log_saved (s : State) (src code loc data : Nat) : (s.log src code loc data).saved = s.saved := by
  rcases s.log_cases src code loc data with ⟨_, h⟩ | ⟨_, _, h⟩ <;> exact (congrArg State.saved h).trans rfl
@[simp] theorem State.log_conns (s : State) (src code loc data : Nat) : (s.log src code loc data).conns = s.conns := by
  rcases s.log_cases src code loc data with ⟨_, h⟩ | ⟨_, _, h⟩ <;> exact (congrArg State.conns h).trans rfl
@[simp] theorem State.log_jobs (s : State) (src code loc data : Nat) : (s.log src code loc data).jobs = s.jobs := by
  rcases s.log_cases src code loc data with ⟨_, h⟩ | ⟨_, _, h⟩ <;> exact (congrArg State.jobs h).trans rfl
@[simp] theorem State.log_works (s : State) (src code loc data : Nat) : (s.log src code loc data).works = s.works := by
  rcases s.log_cases src code loc data with ⟨_, h⟩ | ⟨_, _, h⟩ <;> exact (congrArg State.works h).trans rfl
@[simp] theorem State.log_nextJob (s : State) (src code loc data : Nat) : (s.log src code loc data).nextJob = s.nextJob := by
  rcases s.log_cases src code loc data with ⟨_, h⟩ | ⟨_, _, h⟩ <;> exact (congrArg State.nextJob h).trans rfl
@[simp] theorem State.log_nextOrder (s : State) (src code loc data : Nat) : (s.log src code loc data).nextOrder = s.nextOrder := by
  rcases s.log_cases src code loc data with ⟨_, h⟩ | ⟨_, _, h⟩ <;> exact (congrArg State.nextOrder h).trans rfl
@[simp] theorem State.log_nextWork (s : State) (src code loc data : Nat) : (s.log src code loc data).nextWork = s.nextWork := by
  rcases s.log_cases src code loc data with ⟨_, h⟩ | ⟨_, _, h⟩ <;> exact (congrArg State.nextWork h).trans rfl
@[simp] theorem State.log_nextIdent (s : State) (src code loc data : Nat) : (s.log src code loc data).nextIdent = s.nextIdent := by
  rcases s.log_cases src code loc data with ⟨_, h⟩ | ⟨_, _, h⟩ <;> exact (congrArg State.nextIdent h).trans rfl
@[simp] theorem State.log_out (s : State) (src code loc data : Nat) : (s.log src code loc data).out = s.out := by
  rcases s.log_cases src code loc data with ⟨_, h⟩ | ⟨_, _, h⟩ <;> exact (congrArg State.out h).trans rfl
@[simp] theorem State.log_free (s : State) (src code loc data : Nat) : (s.log src code loc data).free = s.free := by
  rcases s.log_cases src code loc data with ⟨_, h⟩ | ⟨_, _, h⟩ <;> exact (congrArg State.free h).trans rfl
@[simp] theorem State.log_pending (s : State) (src code loc data : Nat) : (s.log src code loc data).pending = s.pending := by
  rcases s.log_cases src code loc data with ⟨_, h⟩ | ⟨_, _, h⟩ <;> exact (congrArg State.pending h).trans rfl

/-! ## Counting -/

/-- A counter is written, and one that reaches its limit is recorded. -/
theorem State.bump_cases (s : State) (r : Reg) (i n : Nat) :
    s.bump r i n = s.wr r i (counterUp (s.rd r i) n).1 ∨
    s.bump r i n = (s.wr r i (counterUp (s.rd r i) n).1).log 0x00 0x0003 0 (r.addr i) := by
  unfold State.bump
  dsimp only
  split
  · exact .inr rfl
  · exact .inl rfl

theorem State.bump_rd_self (s : State) (r : Reg) (i n : Nat) (h : r ≠ .EVR_AUDIT) :
    (s.bump r i n).rd r i = (counterUp (s.rd r i) n).1 % 2 ^ (8 * r.bytes) := by
  rcases s.bump_cases r i n with e | e <;> rw [e]
  · exact s.rd_wr_self _ _ _
  · rw [State.log_rd _ _ _ _ _ _ _ h]; exact s.rd_wr_self _ _ _

theorem State.bump_rd (s : State) (r q : Reg) (i j n : Nat) (h : q ≠ r) (ha : q ≠ .EVR_AUDIT) :
    (s.bump r i n).rd q j = s.rd q j := by
  rcases s.bump_cases r i n with e | e <;> rw [e]
  · exact State.rd_wr_reg s _ h
  · rw [State.log_rd _ _ _ _ _ _ _ ha]; exact State.rd_wr_reg s _ h

theorem State.bump_fld (s : State) (r : Reg) (f : Fld) (i j n : Nat) (h : f.reg ≠ r) (ha : f.reg ≠ .EVR_AUDIT) :
    (s.bump r i n).fld f j = s.fld f j := by
  unfold State.fld; rw [State.bump_rd _ _ _ _ _ _ h ha]

theorem State.bump_regs_wf (s : State) (r : Reg) (i n : Nat) (h : mapWf regDflt s.regs = true) :
    mapWf regDflt (s.bump r i n).regs = true := by
  rcases s.bump_cases r i n with e | e <;> rw [e]
  · exact s.wr_regs_wf _ _ _ h
  · exact State.log_regs_wf _ _ _ _ _ (s.wr_regs_wf _ _ _ h)

@[simp] theorem State.bump_now (s : State) (r : Reg) (i n : Nat) : (s.bump r i n).now = s.now := by
  rcases s.bump_cases r i n with e | e <;> (rw [e]; simp)
@[simp] theorem State.bump_ups (s : State) (r : Reg) (i n : Nat) : (s.bump r i n).ups = s.ups := by
  rcases s.bump_cases r i n with e | e <;> (rw [e]; simp)
@[simp] theorem State.bump_cores (s : State) (r : Reg) (i n : Nat) : (s.bump r i n).cores = s.cores := by
  rcases s.bump_cases r i n with e | e <;> (rw [e]; simp)
@[simp] theorem State.bump_mem (s : State) (r : Reg) (i n : Nat) : (s.bump r i n).mem = s.mem := by
  rcases s.bump_cases r i n with e | e <;> (rw [e]; simp)
@[simp] theorem State.bump_inject (s : State) (r : Reg) (i n : Nat) : (s.bump r i n).inject = s.inject := by
  rcases s.bump_cases r i n with e | e <;> (rw [e]; simp)
@[simp] theorem State.bump_slots (s : State) (r : Reg) (i n : Nat) : (s.bump r i n).slots = s.slots := by
  rcases s.bump_cases r i n with e | e <;> (rw [e]; simp)
@[simp] theorem State.bump_mmuCache (s : State) (r : Reg) (i n : Nat) : (s.bump r i n).mmuCache = s.mmuCache := by
  rcases s.bump_cases r i n with e | e <;> (rw [e]; simp)
@[simp] theorem State.bump_remotes (s : State) (r : Reg) (i n : Nat) : (s.bump r i n).remotes = s.remotes := by
  rcases s.bump_cases r i n with e | e <;> (rw [e]; simp)
@[simp] theorem State.bump_ccRecord (s : State) (r : Reg) (i n : Nat) : (s.bump r i n).ccRecord = s.ccRecord := by
  rcases s.bump_cases r i n with e | e <;> (rw [e]; simp)
@[simp] theorem State.bump_nextTable (s : State) (r : Reg) (i n : Nat) : (s.bump r i n).nextTable = s.nextTable := by
  rcases s.bump_cases r i n with e | e <;> (rw [e]; simp)
@[simp] theorem State.bump_nextTag (s : State) (r : Reg) (i n : Nat) : (s.bump r i n).nextTag = s.nextTag := by
  rcases s.bump_cases r i n with e | e <;> (rw [e]; simp)
@[simp] theorem State.bump_movers (s : State) (r : Reg) (i n : Nat) : (s.bump r i n).movers = s.movers := by
  rcases s.bump_cases r i n with e | e <;> (rw [e]; simp)
@[simp] theorem State.bump_links (s : State) (r : Reg) (i n : Nat) : (s.bump r i n).links = s.links := by
  rcases s.bump_cases r i n with e | e <;> (rw [e]; simp)
@[simp] theorem State.bump_lanes (s : State) (r : Reg) (i n : Nat) : (s.bump r i n).lanes = s.lanes := by
  rcases s.bump_cases r i n with e | e <;> (rw [e]; simp)
@[simp] theorem State.bump_deck (s : State) (r : Reg) (i n : Nat) : (s.bump r i n).deck = s.deck := by
  rcases s.bump_cases r i n with e | e <;> (rw [e]; simp)
@[simp] theorem State.bump_axes (s : State) (r : Reg) (i n : Nat) : (s.bump r i n).axes = s.axes := by
  rcases s.bump_cases r i n with e | e <;> (rw [e]; simp)
@[simp] theorem State.bump_time (s : State) (r : Reg) (i n : Nat) : (s.bump r i n).time = s.time := by
  rcases s.bump_cases r i n with e | e <;> (rw [e]; simp)
@[simp] theorem State.bump_power (s : State) (r : Reg) (i n : Nat) : (s.bump r i n).power = s.power := by
  rcases s.bump_cases r i n with e | e <;> (rw [e]; simp)
@[simp] theorem State.bump_colOps (s : State) (r : Reg) (i n : Nat) : (s.bump r i n).colOps = s.colOps := by
  rcases s.bump_cases r i n with e | e <;> (rw [e]; simp)
@[simp] theorem State.bump_staged (s : State) (r : Reg) (i n : Nat) : (s.bump r i n).staged = s.staged := by
  rcases s.bump_cases r i n with e | e <;> (rw [e]; simp)
@[simp] theorem State.bump_epochTick (s : State) (r : Reg) (i n : Nat) : (s.bump r i n).epochTick = s.epochTick := by
  rcases s.bump_cases r i n with e | e <;> (rw [e]; simp)
@[simp] theorem State.bump_shares (s : State) (r : Reg) (i n : Nat) : (s.bump r i n).shares = s.shares := by
  rcases s.bump_cases r i n with e | e <;> (rw [e]; simp)
@[simp] theorem State.bump_positions (s : State) (r : Reg) (i n : Nat) : (s.bump r i n).positions = s.positions := by
  rcases s.bump_cases r i n with e | e <;> (rw [e]; simp)
@[simp] theorem State.bump_integ (s : State) (r : Reg) (i n : Nat) : (s.bump r i n).integ = s.integ := by
  rcases s.bump_cases r i n with e | e <;> (rw [e]; simp)
@[simp] theorem State.bump_cal (s : State) (r : Reg) (i n : Nat) : (s.bump r i n).cal = s.cal := by
  rcases s.bump_cases r i n with e | e <;> (rw [e]; simp)
@[simp] theorem State.bump_meter (s : State) (r : Reg) (i n : Nat) : (s.bump r i n).meter = s.meter := by
  rcases s.bump_cases r i n with e | e <;> (rw [e]; simp)
@[simp] theorem State.bump_cart (s : State) (r : Reg) (i n : Nat) : (s.bump r i n).cart = s.cart := by
  rcases s.bump_cases r i n with e | e <;> (rw [e]; simp)
@[simp] theorem State.bump_flashA (s : State) (r : Reg) (i n : Nat) : (s.bump r i n).flashA = s.flashA := by
  rcases s.bump_cases r i n with e | e <;> (rw [e]; simp)
@[simp] theorem State.bump_flashB (s : State) (r : Reg) (i n : Nat) : (s.bump r i n).flashB = s.flashB := by
  rcases s.bump_cases r i n with e | e <;> (rw [e]; simp)
@[simp] theorem State.bump_savedAt (s : State) (r : Reg) (i n : Nat) : (s.bump r i n).savedAt = s.savedAt := by
  rcases s.bump_cases r i n with e | e <;> (rw [e]; simp)
@[simp] theorem State.bump_fuses (s : State) (r : Reg) (i n : Nat) : (s.bump r i n).fuses = s.fuses := by
  rcases s.bump_cases r i n with e | e <;> (rw [e]; simp)
@[simp] theorem State.bump_domains (s : State) (r : Reg) (i n : Nat) : (s.bump r i n).domains = s.domains := by
  rcases s.bump_cases r i n with e | e <;> (rw [e]; simp)
@[simp] theorem State.bump_access (s : State) (r : Reg) (i n : Nat) : (s.bump r i n).access = s.access := by
  rcases s.bump_cases r i n with e | e <;> (rw [e]; simp)
@[simp] theorem State.bump_saved (s : State) (r : Reg) (i n : Nat) : (s.bump r i n).saved = s.saved := by
  rcases s.bump_cases r i n with e | e <;> (rw [e]; simp)
@[simp] theorem State.bump_conns (s : State) (r : Reg) (i n : Nat) : (s.bump r i n).conns = s.conns := by
  rcases s.bump_cases r i n with e | e <;> (rw [e]; simp)
@[simp] theorem State.bump_jobs (s : State) (r : Reg) (i n : Nat) : (s.bump r i n).jobs = s.jobs := by
  rcases s.bump_cases r i n with e | e <;> (rw [e]; simp)
@[simp] theorem State.bump_works (s : State) (r : Reg) (i n : Nat) : (s.bump r i n).works = s.works := by
  rcases s.bump_cases r i n with e | e <;> (rw [e]; simp)
@[simp] theorem State.bump_nextJob (s : State) (r : Reg) (i n : Nat) : (s.bump r i n).nextJob = s.nextJob := by
  rcases s.bump_cases r i n with e | e <;> (rw [e]; simp)
@[simp] theorem State.bump_nextOrder (s : State) (r : Reg) (i n : Nat) : (s.bump r i n).nextOrder = s.nextOrder := by
  rcases s.bump_cases r i n with e | e <;> (rw [e]; simp)
@[simp] theorem State.bump_nextWork (s : State) (r : Reg) (i n : Nat) : (s.bump r i n).nextWork = s.nextWork := by
  rcases s.bump_cases r i n with e | e <;> (rw [e]; simp)
@[simp] theorem State.bump_nextIdent (s : State) (r : Reg) (i n : Nat) : (s.bump r i n).nextIdent = s.nextIdent := by
  rcases s.bump_cases r i n with e | e <;> (rw [e]; simp)
@[simp] theorem State.bump_out (s : State) (r : Reg) (i n : Nat) : (s.bump r i n).out = s.out := by
  rcases s.bump_cases r i n with e | e <;> (rw [e]; simp)
@[simp] theorem State.bump_free (s : State) (r : Reg) (i n : Nat) : (s.bump r i n).free = s.free := by
  rcases s.bump_cases r i n with e | e <;> (rw [e]; simp)
@[simp] theorem State.bump_pending (s : State) (r : Reg) (i n : Nat) : (s.bump r i n).pending = s.pending := by
  rcases s.bump_cases r i n with e | e <;> (rw [e]; simp)

/-! ## Refusing a write -/

@[simp] theorem State.refuse_now (s : State) (r : Reg) (i v : Nat) : (s.refuse r i v).now = s.now := s.log_now _ _ _ _
@[simp] theorem State.refuse_ups (s : State) (r : Reg) (i v : Nat) : (s.refuse r i v).ups = s.ups := s.log_ups _ _ _ _
@[simp] theorem State.refuse_cores (s : State) (r : Reg) (i v : Nat) : (s.refuse r i v).cores = s.cores := s.log_cores _ _ _ _
@[simp] theorem State.refuse_mem (s : State) (r : Reg) (i v : Nat) : (s.refuse r i v).mem = s.mem := s.log_mem _ _ _ _
@[simp] theorem State.refuse_inject (s : State) (r : Reg) (i v : Nat) : (s.refuse r i v).inject = s.inject := s.log_inject _ _ _ _
@[simp] theorem State.refuse_slots (s : State) (r : Reg) (i v : Nat) : (s.refuse r i v).slots = s.slots := s.log_slots _ _ _ _
@[simp] theorem State.refuse_mmuCache (s : State) (r : Reg) (i v : Nat) : (s.refuse r i v).mmuCache = s.mmuCache := s.log_mmuCache _ _ _ _
@[simp] theorem State.refuse_remotes (s : State) (r : Reg) (i v : Nat) : (s.refuse r i v).remotes = s.remotes := s.log_remotes _ _ _ _
@[simp] theorem State.refuse_ccRecord (s : State) (r : Reg) (i v : Nat) : (s.refuse r i v).ccRecord = s.ccRecord := s.log_ccRecord _ _ _ _
@[simp] theorem State.refuse_nextTable (s : State) (r : Reg) (i v : Nat) : (s.refuse r i v).nextTable = s.nextTable := s.log_nextTable _ _ _ _
@[simp] theorem State.refuse_nextTag (s : State) (r : Reg) (i v : Nat) : (s.refuse r i v).nextTag = s.nextTag := s.log_nextTag _ _ _ _
@[simp] theorem State.refuse_movers (s : State) (r : Reg) (i v : Nat) : (s.refuse r i v).movers = s.movers := s.log_movers _ _ _ _
@[simp] theorem State.refuse_links (s : State) (r : Reg) (i v : Nat) : (s.refuse r i v).links = s.links := s.log_links _ _ _ _
@[simp] theorem State.refuse_lanes (s : State) (r : Reg) (i v : Nat) : (s.refuse r i v).lanes = s.lanes := s.log_lanes _ _ _ _
@[simp] theorem State.refuse_deck (s : State) (r : Reg) (i v : Nat) : (s.refuse r i v).deck = s.deck := s.log_deck _ _ _ _
@[simp] theorem State.refuse_axes (s : State) (r : Reg) (i v : Nat) : (s.refuse r i v).axes = s.axes := s.log_axes _ _ _ _
@[simp] theorem State.refuse_time (s : State) (r : Reg) (i v : Nat) : (s.refuse r i v).time = s.time := s.log_time _ _ _ _
@[simp] theorem State.refuse_power (s : State) (r : Reg) (i v : Nat) : (s.refuse r i v).power = s.power := s.log_power _ _ _ _
@[simp] theorem State.refuse_colOps (s : State) (r : Reg) (i v : Nat) : (s.refuse r i v).colOps = s.colOps := s.log_colOps _ _ _ _
@[simp] theorem State.refuse_staged (s : State) (r : Reg) (i v : Nat) : (s.refuse r i v).staged = s.staged := s.log_staged _ _ _ _
@[simp] theorem State.refuse_epochTick (s : State) (r : Reg) (i v : Nat) : (s.refuse r i v).epochTick = s.epochTick := s.log_epochTick _ _ _ _
@[simp] theorem State.refuse_shares (s : State) (r : Reg) (i v : Nat) : (s.refuse r i v).shares = s.shares := s.log_shares _ _ _ _
@[simp] theorem State.refuse_positions (s : State) (r : Reg) (i v : Nat) : (s.refuse r i v).positions = s.positions := s.log_positions _ _ _ _
@[simp] theorem State.refuse_integ (s : State) (r : Reg) (i v : Nat) : (s.refuse r i v).integ = s.integ := s.log_integ _ _ _ _
@[simp] theorem State.refuse_cal (s : State) (r : Reg) (i v : Nat) : (s.refuse r i v).cal = s.cal := s.log_cal _ _ _ _
@[simp] theorem State.refuse_meter (s : State) (r : Reg) (i v : Nat) : (s.refuse r i v).meter = s.meter := s.log_meter _ _ _ _
@[simp] theorem State.refuse_cart (s : State) (r : Reg) (i v : Nat) : (s.refuse r i v).cart = s.cart := s.log_cart _ _ _ _
@[simp] theorem State.refuse_flashA (s : State) (r : Reg) (i v : Nat) : (s.refuse r i v).flashA = s.flashA := s.log_flashA _ _ _ _
@[simp] theorem State.refuse_flashB (s : State) (r : Reg) (i v : Nat) : (s.refuse r i v).flashB = s.flashB := s.log_flashB _ _ _ _
@[simp] theorem State.refuse_savedAt (s : State) (r : Reg) (i v : Nat) : (s.refuse r i v).savedAt = s.savedAt := s.log_savedAt _ _ _ _
@[simp] theorem State.refuse_fuses (s : State) (r : Reg) (i v : Nat) : (s.refuse r i v).fuses = s.fuses := s.log_fuses _ _ _ _
@[simp] theorem State.refuse_domains (s : State) (r : Reg) (i v : Nat) : (s.refuse r i v).domains = s.domains := s.log_domains _ _ _ _
@[simp] theorem State.refuse_access (s : State) (r : Reg) (i v : Nat) : (s.refuse r i v).access = s.access := s.log_access _ _ _ _
@[simp] theorem State.refuse_saved (s : State) (r : Reg) (i v : Nat) : (s.refuse r i v).saved = s.saved := s.log_saved _ _ _ _
@[simp] theorem State.refuse_conns (s : State) (r : Reg) (i v : Nat) : (s.refuse r i v).conns = s.conns := s.log_conns _ _ _ _
@[simp] theorem State.refuse_jobs (s : State) (r : Reg) (i v : Nat) : (s.refuse r i v).jobs = s.jobs := s.log_jobs _ _ _ _
@[simp] theorem State.refuse_works (s : State) (r : Reg) (i v : Nat) : (s.refuse r i v).works = s.works := s.log_works _ _ _ _
@[simp] theorem State.refuse_nextJob (s : State) (r : Reg) (i v : Nat) : (s.refuse r i v).nextJob = s.nextJob := s.log_nextJob _ _ _ _
@[simp] theorem State.refuse_nextOrder (s : State) (r : Reg) (i v : Nat) : (s.refuse r i v).nextOrder = s.nextOrder := s.log_nextOrder _ _ _ _
@[simp] theorem State.refuse_nextWork (s : State) (r : Reg) (i v : Nat) : (s.refuse r i v).nextWork = s.nextWork := s.log_nextWork _ _ _ _
@[simp] theorem State.refuse_nextIdent (s : State) (r : Reg) (i v : Nat) : (s.refuse r i v).nextIdent = s.nextIdent := s.log_nextIdent _ _ _ _
@[simp] theorem State.refuse_out (s : State) (r : Reg) (i v : Nat) : (s.refuse r i v).out = s.out := s.log_out _ _ _ _
@[simp] theorem State.refuse_free (s : State) (r : Reg) (i v : Nat) : (s.refuse r i v).free = s.free := s.log_free _ _ _ _
@[simp] theorem State.refuse_pending (s : State) (r : Reg) (i v : Nat) : (s.refuse r i v).pending = s.pending := s.log_pending _ _ _ _

theorem State.refuse_rd (s : State) (r q : Reg) (i j v : Nat) (h : q ≠ .EVR_AUDIT) :
    (s.refuse r i v).rd q j = s.rd q j := s.log_rd _ _ _ _ q j h

end Sys2Proof.Machine
end

