-- ==== Sys2Proof/Laws/Core.lean ====
section
/-!
SUPPORT. Sys2Proof/Laws/Core.lean: cores and slots read what was written to them, and what the issue of a step does.
-/
namespace Sys2Proof.Machine

@[simp] theorem State.core_setCore_self (s : State) (f c : Nat) (k : Core) : (s.setCore f c k).core f c = k := by
  simp [State.core, State.setCore]

theorem State.core_setCore_ne (s : State) {f c g d : Nat} (k : Core) (hc : c < 450) (hd : d < 450) (h : (g, d) ≠ (f, c)) :
    (s.setCore f c k).core g d = s.core g d := by
  unfold State.core State.setCore
  refine mapGet_mapSet_ne _ (fun e => h ?_) _ _
  have : g = f := by omega
  have : d = c := by omega
  simp [*]

@[simp] theorem State.core_updCore_self (s : State) (f c : Nat) (g : Core → Core) : (s.updCore f c g).core f c = g (s.core f c) :=
  s.core_setCore_self f c _

theorem State.core_updCore_ne (s : State) {f c g d : Nat} (u : Core → Core) (hc : c < 450) (hd : d < 450) (h : (g, d) ≠ (f, c)) :
    (s.updCore f c u).core g d = s.core g d := s.core_setCore_ne _ hc hd h

@[simp] theorem State.slot_setSlot_self (s : State) (n : Nat) (v : Slot) : (s.setSlot n v).slot n = v := by
  simp [State.slot, State.setSlot]

theorem State.slot_setSlot_ne (s : State) {n m : Nat} (v : Slot) (h : m ≠ n) : (s.setSlot n v).slot m = s.slot m :=
  mapGet_mapSet_ne _ h _ _

@[simp] theorem State.slot_updSlot_self (s : State) (n : Nat) (g : Slot → Slot) : (s.updSlot n g).slot n = g (s.slot n) :=
  s.slot_setSlot_self n _

theorem State.slot_updSlot_ne (s : State) {n m : Nat} (g : Slot → Slot) (h : m ≠ n) : (s.updSlot n g).slot m = s.slot m :=
  s.slot_setSlot_ne _ h

/-- The issue of a step: where it waits nothing happens; a step that reads, with or without a corrected error, has its effect; one that
cannot be read only marks the frame; and the sequencer moves on. -/
theorem State.issue_eq (s : State) (a : CoreAt) (e : State → State) :
    s.issue a e =
      if (s.core a.field a.core).waits then s
      else (if (s.core a.field a.core).upsetAt (s.core a.field a.core).pc ≤ 1 then
          e (s.readStep a.field a.core (s.core a.field a.core).pc)
        else s.readStep a.field a.core (s.core a.field a.core).pc).updCore a.field a.core Core.advance := rfl

/-- A step whose words read without error has its effect, and the sequencer moves on. -/
theorem State.issue_clean (s : State) (a : CoreAt) (e : State → State) (hw : (s.core a.field a.core).waits = false)
    (h : (s.core a.field a.core).upsetAt (s.core a.field a.core).pc = 0) :
    s.issue a e = (e s).updCore a.field a.core Core.advance := by
  simp [State.issue_eq, State.readStep, h, hw]

/-- A step whose words cannot be read has no effect: the frame is marked with class STEP_ECC, and the sequencer moves on. -/
theorem State.issue_bad (s : State) (a : CoreAt) (e : State → State) (n : Nat)
    (h : (s.core a.field a.core).upsetAt (s.core a.field a.core).pc = n + 2) :
    s.issue a e = (s.faultAt a.field a.core (s.core a.field a.core).pc clsStepEcc 0 0).updCore a.field a.core Core.advance := by
  simp [State.issue_eq, State.readStep, Core.waits, h]

/-- A step that waits for an earlier one to complete changes nothing. -/
theorem State.issue_waits (s : State) (a : CoreAt) (e : State → State) (h : (s.core a.field a.core).waits = true) : s.issue a e = s := by
  simp [State.issue_eq, h]

/-- With no loop open the sequencer goes to the next step. -/
@[simp] theorem Core.advance_plain (k : Core) (h : k.loops = []) : k.advance = { k with pc := k.pc + 1 } := by
  unfold Core.advance
  rw [h]
  simp [advancePc, ← h]

@[simp] theorem Core.ptr_setPtr_self (k : Core) (i v : Nat) : (k.setPtr i v).ptr i = v % 65536 := by
  simp [Core.ptr, Core.setPtr]

theorem Core.ptr_setPtr_ne (k : Core) {i j : Nat} (v : Nat) (h : j ≠ i) : (k.setPtr i v).ptr j = k.ptr j := by
  simp [Core.ptr, Core.setPtr, mapGet_mapSet_ne _ h]

end Sys2Proof.Machine
end

