-- ==== Sys2Proof/Laws/Memory.lean ====
section
/-!
SUPPORT. Sys2Proof/Laws/Memory.lean: every operation on the memory keeps its canonical form; a line reads what was written to it,
and bytes of other lines are as before.
-/
namespace Sys2Proof.Machine

/-! ## The canonical form -/

theorem cellsPut_wf (c : List Host.Cell) (a : Nat) (bs : List Byte) (h : mapWf (fun _ => (0 : Byte)) c = true) :
    mapWf (fun _ => (0 : Byte)) (cellsPut c a bs) = true := mapWf_mapSetList _ _ _ _ h

theorem Memory.define_wf (m : Memory) (a : Nat) (h : m.wf = true) : (m.define a).wf = true := by
  unfold Memory.define
  split
  · exact cellsPut_wf _ _ _ h
  · exact h

theorem Memory.writeIn_wf (m : Memory) (a : Nat) (bs : List Byte) (k : Nat) (h : m.wf = true) : (m.writeIn a bs k).wf = true :=
  cellsPut_wf _ _ _ (m.define_wf a h)

theorem Memory.writeLine_wf (m : Memory) (a : Nat) (bs : List Byte) (k : Nat) (h : m.wf = true) : (m.writeLine a bs k).wf = true :=
  cellsPut_wf _ _ _ h

theorem Memory.writeLines_wf (n : Nat) (m : Memory) (a : Nat) (bs : List Byte) (k : Nat) (h : m.wf = true) :
    (m.writeLines a n bs k).wf = true := by
  induction n generalizing m a bs k with
  | zero => exact h
  | succ n ih => exact ih _ _ _ _ (m.writeLine_wf _ _ _ h)

theorem Memory.poisonLine_wf (m : Memory) (o n : Nat) (h : m.wf = true) : (m.poisonLine o n).wf = true := mapWf_mapDelRange _ _ _ _ h

theorem Memory.setMark_wf (m : Memory) (o v : Nat) (h : m.wf = true) : (m.setMark o v).wf = true := h

theorem Memory.setTile_wf (m : Memory) (o : Nat) (t : TileSide) (h : m.wf = true) : (m.setTile o t).wf = true := h

theorem Memory.correct_wf (m : Memory) (o : Nat) (h : m.wf = true) : (m.correct o).wf = true := h

theorem Memory.zeroRange_wf (m : Memory) (lo hi : Nat) (h : m.wf = true) : (m.zeroRange lo hi).wf = true := mapWf_mapDelRange _ _ _ _ h

theorem Memory.clearField_wf (m : Memory) (f : Nat) (h : m.wf = true) : (m.clearField f).wf = true := mapWf_mapDelRange _ _ _ _ h

theorem Memory.clearCore_wf (m : Memory) (f c : Nat) (h : m.wf = true) : (m.clearCore f c).wf = true := by
  unfold Memory.clearCore
  dsimp only
  split <;> exact mapWf_mapDelRange _ _ _ _ h

theorem Memory.undefineBank_wf (m : Memory) (o n : Nat) (h : m.wf = true) : (m.undefineBank o n).wf = true := mapWf_mapDelRange _ _ _ _ h

theorem Memory.lost_wf (n : Nat) : (Memory.lost n).wf = true := rfl

theorem Memory.forNats_wf (f : Nat → Memory → Memory) (hf : ∀ k m, m.wf = true → (f k m).wf = true) (ks : List Nat) (m : Memory)
    (h : m.wf = true) : (forNats f ks m).wf = true := by
  induction ks generalizing m with
  | nil => exact h
  | cons k ks ih => exact ih _ (hf k m h)

theorem Memory.loseTile_wf (m : Memory) (o : Nat) (h : m.wf = true) : (m.loseTile o).wf = true :=
  Memory.forNats_wf _ (fun _ m => m.setMark_wf _ _) _ _ h

theorem Memory.storeTile_wf (m : Memory) (o : Nat) (bs : List Byte) (r : Sorrel) (h : m.wf = true) : (m.storeTile o bs r).wf = true := by
  unfold Memory.storeTile
  exact Memory.setTile_wf _ _ _ (Memory.writeLines_wf _ _ _ _ _ h)

theorem Memory.touchSram_wf (m : Memory) (o : Nat) (f : Option Nat) (h : m.wf = true) : (m.touchSram o f).wf = true := by
  unfold Memory.touchSram
  exact Memory.setTile_wf _ _ _ h

theorem Memory.touchLpddr_wf (m : Memory) (o e : Nat) (h : m.wf = true) : (m.touchLpddr o e).wf = true := by
  unfold Memory.touchLpddr
  exact Memory.setTile_wf _ _ _ h

theorem Memory.touchLines_wf (m : Memory) (f c l n : Nat) (x : Option Nat) (h : m.wf = true) : (m.touchLines f c l n x).wf = true :=
  Memory.forNats_wf _ (fun _ m => m.touchSram_wf _ _) _ _ h

theorem Memory.rescueCore_wf (m : Memory) (f c : Nat) (h : m.wf = true) : (m.rescueCore f c).wf = true := by
  unfold Memory.rescueCore
  dsimp only
  have key : ∀ (ls : List Nat) (m : Memory), m.wf = true → (ls.foldl (fun m l => m.setMark (l * 64) 2) m).wf = true := by
    intro ls
    induction ls with
    | nil => exact fun _ h => h
    | cons l ls ih => exact fun m h => ih _ (m.setMark_wf _ _ h)
  exact key _ _ h

theorem Memory.saveField_wf (m : Memory) (f live : Nat) (h : m.wf = true) : (m.saveField f live).wf = true := mapWf_filter _ _ _ h

theorem putShifted_wf (src dst unit : Nat) (saved m : List Host.Cell) (hs : ∀ e ∈ saved, e.2 ≠ 0)
    (hm : mapWf (fun _ => (0 : Byte)) m = true) : mapWf (fun _ => (0 : Byte)) (putShifted src dst unit saved m) = true := by
  unfold putShifted
  induction saved generalizing m with
  | nil => exact hm
  | cons e saved ih =>
    exact ih _ (fun x hx => hs x (by simp [hx])) (mapWf_mapIns _ _ _ _ (hs e (by simp)) hm)

theorem Memory.restoreField_wf (m : Memory) (v : SavedField) (f live n : Nat) (hv : v.mem.wf = true) (h : m.wf = true) :
    (m.restoreField v f live n).wf = true :=
  putShifted_wf _ _ _ _ _ ((mapWf_iff _ _).mp hv).2 (m.clearField_wf f h)

/-! ## Reading after writing -/

/-- The occasion on which a line became undefined depends only on the maps that number it. -/
theorem Memory.undefAt_congr {m n : Memory} (a : Nat) (hu : mapGet (fun _ => 0) m.lineUndef (a / 64) = mapGet (fun _ => 0) n.lineUndef (a / 64))
    (hf : m.fldUndef = n.fldUndef) (hb : m.bankUndef = n.bankUndef)
    (hd : mapGet (fun _ => false) m.lineDef (a / 64) = mapGet (fun _ => false) n.lineDef (a / 64)) : m.undefAt a = n.undefAt a := by
  unfold Memory.undefAt
  simp only [hu, hf, hb, hd]

theorem slice_length (bs : List Byte) (o n : Nat) : (slice bs o n).length = n := by
  simp [slice]

/-- Bytes outside the line written are as before. -/
theorem Memory.byte_writeLine_ne (m : Memory) (o a : Nat) (bs : List Byte) (k : Nat) (h : a / 64 ≠ o / 64) :
    (m.writeLine o bs k).byte a = m.byte a := by
  have hu : (m.writeLine o bs k).unlisted a = m.unlisted a := by
    unfold Memory.unlisted
    rw [Memory.undefAt_congr (m := m.writeLine o bs k) (n := m) a]
    · simp only [Memory.writeLine]
      exact mapGet_mapSet_ne (fun _ => 0) h _ _
    · rfl
    · rfl
    · simp only [Memory.writeLine]
      split
      · exact mapGet_mapSet_ne (fun _ => false) h _ _
      · rfl
  have key : ∀ (d : Nat → Byte) (vs : List Byte) (b : Nat) (c : List Host.Cell), (∀ i, i < vs.length → b + i ≠ a) →
      mapGet d (mapSetList (fun _ => (0 : Byte)) b vs c) a = mapGet d c a := by
    intro d vs
    induction vs with
    | nil => intro b c _; rfl
    | cons v vs ih =>
      intro b c hb
      rw [mapSetList, ih _ _ fun i hi => by have := hb (i + 1) (by simp; omega); omega]
      have hab : a ≠ b := fun e => hb 0 (by simp) (by omega)
      unfold mapSet
      split
      · exact mapGet_mapDel_ne d hab _
      · exact mapGet_mapIns_ne d hab _ _
  have hc : (m.writeLine o bs k).cells = mapSetList (fun _ => (0 : Byte)) (o / 64 * 64) (slice bs 0 64) m.cells := rfl
  unfold Memory.byte
  rw [hc, key, mapGet_congr hu]
  intro i hi
  rw [slice_length] at hi
  omega

/-- The bytes of a line lie in the same field. -/
theorem placeOf_line (o i : Nat) (hi : i < 64) (ho : o % 64 = 0) :
    (∀ f w b, placeOf o = .sram f w b → placeOf (o + i) = .sram f w (b + i)) ∧
    ((∀ f w b, placeOf o ≠ .sram f w b) → ∀ f w b, placeOf (o + i) ≠ .sram f w b) := by
  unfold placeOf reservedBase lpddrEnd sramBase
  dsimp only
  constructor
  · intro f w b
    repeat' split
    all_goals try simp
    all_goals try omega
  · repeat' split
    all_goals try simp
    all_goals omega

/-- A line is undefined at one of its bytes if it is at the first. -/
theorem Memory.undefAt_line (m : Memory) (o i : Nat) (hi : i < 64) (ho : o % 64 = 0) : m.undefAt (o + i) = m.undefAt o := by
  have h1 : (o + i) / 64 = o / 64 := by omega
  have h2 : (o + i) / 65536 = o / 65536 := by omega
  obtain ⟨ha, hb⟩ := placeOf_line o i hi ho
  unfold Memory.undefAt
  rw [h1, h2]
  generalize hp : placeOf o = p at ha hb
  cases p with
  | sram f w b => rw [ha f w b rfl]
  | job | reserved | setup | hole =>
    have := hb (by simp)
    generalize hq : placeOf (o + i) = q at this
    cases q <;> simp_all

/-- The line written reads as it was written. -/
theorem Memory.byte_writeLine_self (m : Memory) (o i : Nat) (bs : List Byte) (k : Nat) (hi : i < 64) (ho : o % 64 = 0) (hb : bs.length = 64) :
    (m.writeLine o bs k).byte (o + i) = bs.getD i 0 := by
  have hs : slice bs 0 64 = bs := by simp [slice, hb, List.take_of_length_le (by omega : bs.length ≤ 64)]
  have ho' : o / 64 * 64 = o := by omega
  have hu : (m.writeLine o bs k).unlisted (o + i) = 0 := by
    unfold Memory.unlisted
    rw [Memory.undefAt_line _ _ _ hi ho]
    have : (m.writeLine o bs k).undefAt o = none := by
      cases hx : m.undefAt o with
      | some n =>
        unfold Memory.undefAt Memory.writeLine
        simp only [hx, mapGet_mapSet_self, Option.isSome_some, if_true]
        split
        · next h => exact absurd rfl h
        · cases placeOf o <;> simp
      | none =>
        have hd : (m.writeLine o bs k).lineDef = m.lineDef := by simp [Memory.writeLine, hx]
        unfold Memory.undefAt at hx ⊢
        rw [hd]
        simp only [Memory.writeLine, mapGet_mapSet_self]
        by_cases hz : mapGet (fun _ => 0) m.lineUndef (o / 64) = 0
        · simp only [hz] at hx
          exact hx
        · simp [hz] at hx
    rw [this]
  have hc : (m.writeLine o bs k).cells = mapSetList (fun _ => (0 : Byte)) o bs m.cells := by
    show mapSetList _ (o / 64 * 64) (slice bs 0 64) _ = _
    rw [hs, ho']
  unfold Memory.byte
  rw [mapGet_congr (e := fun _ => 0) hu, hc, mapGet_mapSetList]
  simp [hi, hb]

@[simp] theorem Memory.mark_writeLine_self (m : Memory) (o : Nat) (bs : List Byte) (k : Nat) : (m.writeLine o bs k).mark o = k := by
  exact mapGet_mapSet_self (fun _ => 0) (o / 64) k m.marks

end Sys2Proof.Machine
end

