-- ==== Sys2Proof/Tests/Slice0.lean ====
section
/-!
SUPPORT. Sys2Proof/Tests/Slice0.lean: the model's own tests: operands that no command carries fail their check, worked examples of the
manual, and for every statement with hypotheses a state and operands that meet them together.
-/
namespace Sys2Proof.Tests

open Sys2Proof.Machine

set_option Elab.async false

/-- A core in service of field 0. -/
def a0 : CoreAt := ⟨0, 0⟩

/-- Which lines a program may write, with one bound, so that it can be decided. -/
theorem mayWrite_iff (a : CoreAt) (s : State) (line n : Nat) :
    MayWrite a s line n ↔ line + n ≤ sramLines ∧
      ∀ i, i < n → s.inputLine a.field a.core (line + i) = false ∧ s.outputLine a.field a.core (line + i) = true := by
  refine and_congr_right fun _ => ⟨fun h i hi => h (line + i) (Nat.le_add_right _ _) (by omega), fun h l h1 h2 => ?_⟩
  have := h (l - line) (by omega)
  rwa [show line + (l - line) = l by omega] at this

/-! ## Operands that no command carries -/

def mem0 : MemOp := ⟨0, 0⟩

theorem test_loop_empty_body : Instr.wf (.loop a0 3 0) = false := by decide
theorem test_loop_body_bound : Instr.wf (.loop a0 3 16320) = true ∧ Instr.wf (.loop a0 3 16321) = false := by decide
theorem test_load_a_lines : Instr.wf (.loadA a0 ⟨mem0, 0, 127⟩) = true ∧ Instr.wf (.loadA a0 ⟨mem0, 0, 128⟩) = false := by decide
theorem test_load_b_lines : Instr.wf (.loadB a0 ⟨mem0, 0, 255⟩) = true ∧ Instr.wf (.loadB a0 ⟨mem0, 0, 256⟩) = false := by decide
theorem test_load_scale_lines : Instr.wf (.loadScaleA a0 ⟨mem0, 0, 3⟩) = true ∧ Instr.wf (.loadScaleA a0 ⟨mem0, 0, 4⟩) = false ∧
    Instr.wf (.loadScaleB a0 ⟨mem0, 0, 4⟩) = false := by decide
theorem test_mma_fp32 : Instr.wf (.mmaAcc a0 ⟨.fp32, 0, 0, 0, 0⟩) = false := by decide
theorem test_mma_depth : Instr.wf (.mmaZero a0 ⟨.int8, 0, 0, 0, 511⟩) = true ∧ Instr.wf (.mmaZero a0 ⟨.int8, 0, 0, 0, 512⟩) = false ∧
    Instr.wf (.mmaAcc a0 ⟨.bf16, 0, 0, 0, 256⟩) = false := by decide
theorem test_mma_mx_block : Instr.wf (.mmaAcc a0 ⟨.mxE4m3, 0, 0, 0, 63⟩) = true ∧ Instr.wf (.mmaAcc a0 ⟨.mxE4m3, 0, 0, 0, 62⟩) = false := by
  decide
theorem test_gread_line : Instr.wf (.gread a0 ⟨mem0, 0, 64, none⟩) = true ∧ Instr.wf (.gread a0 ⟨mem0, 0, 65, none⟩) = false := by decide
theorem test_gwrite_line : Instr.wf (.gwrite a0 ⟨mem0, 0, 32, none⟩) = false := by decide
/-- A packet without data. -/
def bare (t : BitVec 4) : Packet :=
  { ptype := t, slice := 1, epoch := 0, replay := 0, segment := 0, mover := false, code := 0, lines := 0, tile := false, addr := 0, src := 0,
    tag := 0, frame := 0, data := [], record := none }
def onMesh : Arrival := ⟨.mesh, true, none⟩

theorem test_read_type : Instr.wf (.read onMesh (bare 0)) = true ∧ Instr.wf (.read onMesh (bare 2)) = false := by decide
theorem test_read_data : Instr.wf (.readData onMesh (bare 1)) = false ∧
    Instr.wf (.readData onMesh { bare 1 with data := List.replicate 64 0 }) = true := by decide +kernel
theorem test_write_length : Instr.wf (.write onMesh { bare 2 with data := List.replicate 63 0 }) = false ∧
    Instr.wf (.write onMesh { bare 2 with data := List.replicate 64 0 }) = true := by decide +kernel
theorem test_write_done_type : Instr.wf (.writeDone ⟨onMesh, bare 9⟩) = false ∧ Instr.wf (.writeDone ⟨onMesh, bare 3⟩) = true := by decide
theorem test_fault_rsp_type : Instr.wf (.faultRsp ⟨onMesh, bare 3⟩) = false ∧ Instr.wf (.faultRsp ⟨onMesh, bare 9⟩) = true := by decide
theorem test_exchange_record : Instr.wf (.exchange onMesh { bare 4 with tile := true, lines := 63, data := List.replicate 4096 0 }) = false := by
  decide +kernel
theorem test_mgmt_type (k : _) : Instr.wf (.mgmt .mesh (bare 4) k) = false := rfl

/-- A link frame with a payload of n bytes. -/
def frameOf (n : Nat) : LinkFrame := ⟨0, 0, false, false, BitVec.ofNat 8 n, 0, 0, 0, 0, 0, 0, List.replicate n 0, 0, true⟩

theorem test_idle_frame_shape : Instr.wf (.idleFrame 0 (frameOf 232)) = true ∧ Instr.wf (.idleFrame 0 (frameOf 233)) = false := by decide +kernel
theorem test_data_frame_shape : Instr.wf (.dataFrame 0 (frameOf 233)) = false := by decide +kernel
theorem test_nak_frame_shape : Instr.wf (.nakFrame 0 (frameOf 233)) = false := by decide +kernel
theorem test_audit_frame_shape : Instr.wf (.auditFrame 0 (frameOf 233)) = false := by decide +kernel
theorem test_ident_frame_shape : Instr.wf (.identFrame 0 (frameOf 233)) = false := by decide +kernel
theorem test_echo_frame_shape : Instr.wf (.echoFrame 0 (frameOf 233) 0) = false := by decide +kernel
theorem test_retrain_frame_shape : Instr.wf (.retrainFrame 0 { frameOf 0 with len := 255 }) = false := by decide +kernel
theorem test_credit_init_shape : Instr.wf (.creditInitFrame 0 (frameOf 233) 0 0 0 0) = false := by decide +kernel
theorem test_assignment_length : Instr.wf (.assignmentRecord (List.replicate 191 0)) = false := by decide +kernel
theorem test_bin_rails : Instr.wf (.binSample ⟨List.replicate 63 0, 0, 0, 0, 0, 0⟩) = false := by decide +kernel

/-! ## Worked examples of the manual -/

/-- Chapter 22: DCK_PATH of deck output 300, LNK_LANE_STATUS of lane 37. -/
theorem test_register_addresses : Reg.addr .DCK_PATH 300 = 0xA24B0 ∧ Reg.addr .LNK_LANE_STATUS 37 = 0x944A0 := by decide

/-- Chapter 5: line 0 of core F23:07:11, whose index is 11 × 30 + 7. -/
theorem test_sram_window : sramLine 23 (11 * 30 + 7) 0 = 0x100BD4400000 := by decide

/-- Chapter 0: the module at X 3, Y 5, Z 2. -/
theorem test_module_id : idOf 3 5 2 = 2211 ∧ coordsOf 2211 = (3, 5, 2) := by decide

/-- Chapter 7: column 7 of F23 after its first rotation step: BASE 15, SPARE 5. -/
theorem test_rotated_rows : physRows 15 5 0 false = [15, 0, 1, 2, 3, 4, 6, 7, 8, 9, 10, 11, 12, 13, 14] := by decide

/-- Chapter 15, at the defaults: 18,000 W give 118,432 tokens, one feed 62,240. -/
theorem test_tokens : State.reset.tokens 18000 = 118432 ∧ State.reset.tokens 10000 = 62240 := by decide +kernel

/-- Chapter 15: a field costs 324 tokens idle, 56 fields 18,144. -/
theorem test_idle_tokens : State.reset.fieldIdle = 324 ∧ State.reset.moduleIdle = 18144 := by decide +kernel

/-- Chapter 15, the slice of the example: with one feed its room is 44,096, and it wants 2 × 89,032 less its bucket. -/
theorem test_feed_loss_grant : grantsOf (62240 - 18144) 0 [(0, 2 * 89032 - 89032)] = [(0, 44096)] := by decide

/-- Chapter 21: STRAP_PAR open at module 2,211 with five 1s; an absent harness fails the parity. -/
theorem test_straps : strapCoords 2211 = 2211 ∧ strapCoords 0 = 2 ^ 14 - 1 := by decide

/-- Chapter 10, Table 10.3: the gain set of the default tick. -/
theorem test_gain_set : gainSet 8000 = 6 := by decide

/-- Chapter 14: λ = 2.52 × 10⁻⁵ gives S = 39,530; λ = 7.0155 × 10⁻⁵ is capped at S_MAX 49,152; in units of 10⁻¹². -/
theorem test_sampling : samplingOf 25200000 10000000 0 49152 = (39530, false) ∧ samplingOf 70155000 10000000 0 49152 = (49152, true) ∧
    (samplingOf 70155000 10000000 0 65536).1 = 56195 := by decide

/-- SHAKE256 of the empty string, as its standard gives it. -/
theorem test_shake : shake256 [] 4 = [0x46, 0xB9, 0xDD, 0x2B] := by decide +kernel

/-- CRC-64/ECMA-182 of the digits 1 to 9, its catalogue's check value. -/
theorem test_crc : crc64 [0x31, 0x32, 0x33, 0x34, 0x35, 0x36, 0x37, 0x38, 0x39] = 0x6C40DF5F0B497347 := by decide +kernel

/-- FP32 sums round to nearest even: 1 + 2⁻²⁴ is 1, 1 + 3 × 2⁻²⁴ is 1 + 2⁻²², the largest finite value doubled is infinite. -/
theorem test_round_even : f32Add 0x3F800000 0x33800000 = 0x3F800000 ∧ f32Add 0x3F800000 0x34400000 = 0x3F800002 ∧
    f32Add 0x7F7FFFFF 0x7F7FFFFF = 0x7F800000 := by decide +kernel

/-- FP8 E4M3 holds 448 as 0x7E, its largest finite value. -/
theorem test_e4m3 : Fmt.e4m3.narrow .nearest 0x43E00000 = 0x7E := by decide +kernel

/-- An empty queue idles. -/
theorem test_idle : step State.reset = .next State.reset := by rfl

/-! ## Statements with hypotheses: a state and operands that meet them together

For a statement whose case a free value decides (the keys behind a signature are opaque), the witness takes the case that the reader can
evaluate. -/

/-! ## Frame programs -/

/-- Slot 0 and slice entry 0 serve slice 1, which owns field 0. -/
def served1 : State :=
  ((((((State.reset.setFld F.SEQ_SLOT_CFG_ACTIVE 0 1).setFld F.SEQ_SLOT_CFG_SLICE_ID 0 1).setFld F.RTE_FLD_OWNER_VALID 0 1).setFld
    F.RTE_FLD_OWNER_SLICE_ID 0 1).setFld F.RTE_SLICE_ACTIVE 0 1).setFld F.RTE_SLICE_SLICE_ID 0 1)

/-- An access of the core is outstanding. -/
def waiting1 : State := served1.updCore 0 0 fun k => { k with outstanding := 1 }

/-- Operands of an MMA of depth 1 on INT8 operands. -/
def mma1 : MmaOp := { fmt := .int8, aslot := 0, bslot := 1, tile := 63, k := 0 }

/-- An MMA of depth 1 on BF16 operands: A holds 2^127 and its negative, B one; the sum of their magnitudes overflows. -/
def mma2 : MmaOp := { mma1 with fmt := .bf16 }
def overflow1 : State := served1.updCore 0 0 fun k =>
  { k with opnd := [(1, 0x7F), (3, 0xFF), (3 * 32768, 0x80), (3 * 32768 + 1, 0x3F)] }

/-- The product of its operands, all zero. -/
theorem product1 : ((served1.core 0 0).mmaIn mma1).product 1 = List.replicate 512 0#32 := by decide +kernel

/-- A column sum of A, and an element of B, are zero, and so is every column of zeros. -/
theorem aSum1 : ∀ mag, ((served1.core 0 0).mmaIn mma1).aSum 1 mag 0 0 = .fin false 0 0 := by decide +kernel
theorem bElem1 (j : Nat) : ((served1.core 0 0).mmaIn mma1).bElem 0 j 0 = .fin false 0 0 := by
  have h : ((served1.core 0 0).mmaIn mma1).bElem 0 j 0 = Fmt.int8.decode (bits 0 (8 * bIndex 1 0 j 0) 8) := rfl
  rw [h, bits, Nat.zero_div]
  rfl
theorem column1 (j : Nat) : columnOf (List.replicate 512 0#32) j = List.replicate 16 0#32 := by
  have h : ∀ i, (List.replicate 512 0#32).getD i 0#32 = 0#32 := fun i => by
    rw [List.getD_eq_getElem?_getD, List.getElem?_replicate]
    split <;> rfl
  simp only [columnOf, h]
  rfl

/-- The check row's sums are zero. -/
theorem sums1 (mag : Bool) (j : Nat) : ((served1.core 0 0).mmaIn mma1).check 1 mag j = 0#32 := by
  have h : ((served1.core 0 0).mmaIn mma1).check 1 mag j = f32Sum [blockSum true (1 * 512 + j)
      [valMul (((served1.core 0 0).mmaIn mma1).aSum 1 mag 0 0)
        (if mag then valAbs (((served1.core 0 0).mmaIn mma1).bElem 0 j 0) else ((served1.core 0 0).mmaIn mma1).bElem 0 j 0)]] := rfl
  rw [h, aSum1, bElem1 j]
  cases mag <;> rfl

/-- A column of zeros passes. -/
theorem zeros_pass : colCheck 1 0#32 0#32 (List.replicate 16 0#32) (List.replicate 16 0#32) = .pass := by decide +kernel

/-- The comparator finds no difference in it. -/
theorem check1 :
    (mmaCheck ((served1.core 0 0).mmaIn mma1) 1 (List.replicate 512 0#32) (((served1.core 0 0).mmaIn mma1).product 1)).1 = none := by
  rw [product1]
  have h : ∀ j ∈ List.range 32, colCheck (blocksOf ((served1.core 0 0).mmaIn mma1).k) (((served1.core 0 0).mmaIn mma1).check 1 false j)
      (((served1.core 0 0).mmaIn mma1).check 1 true j) (columnOf (List.replicate 512 0#32) j) (columnOf (List.replicate 512 0#32) j) = .pass := by
    intro j _
    rw [sums1 false j, sums1 true j, column1 j]
    exact zeros_pass
  simp only [mmaCheck, List.map_congr_left h]
  decide

/-- Frame 0 of LPDDR belongs to slice 1, and field 0 holds a translation of page 0 to it. -/
def mapped : State :=
  { served1 with
    mem := { served1.mem with owner := [(0, 2)] }
    mmuCache := [(0, [⟨0, false, 0, 0, true, false, 1⟩])] }

/-- Slice 1 runs on frame 7, program 0, with a virtual output region over its first 4 KiB. -/
def outputs1 : State := mapped.updCore 0 0 fun k => { k with steps := [(5, 0x100000000002#128)] }

/-- A descriptor that copies one line of LPDDR to SRAM lies in line 0 of the core. -/
def posted : State :=
  { served1 with mem := served1.mem.writeLine (sramLine 0 0 0) (toBytes 64 (64 * 2 ^ 16 + 64 * 2 ^ 128)) 0 }
theorem test_witness_ControlSteps :
    let a := a0
    let s := served1
    StepReads a s ∧ (s.core a.field a.core).outstanding = 0 ∧ (Instr.loop a 65535 16320).wf = true ∧
  StepReads a waiting1 ∧ (waiting1.core a.field a.core).outstanding ≠ 0 := by
  simp only [StepReads]; decide +kernel

theorem test_witness_LoopRepeats :
    let k := Core.init
    let body := 1
    0 < body ∧ k.loops = [] := by
  decide +kernel

theorem test_witness_EndStep :
    let a := a0
    let s := (served1.updCore 0 0 fun k => { k with running := true }).setFld F.SEQ_STATUS_RUNNING 0 1
    let n := 0
    StepReads a s ∧ (s.core a.field a.core).outstanding = 0 ∧ (s.core a.field a.core).sigMain = (s.core a.field a.core).sigCheck ∧
  s.slotOfField a.field = some n ∧ (s.coresOf n).all (fun p => p == (0, 0) || !(s.core p.1 p.2).running) = true := by
  simp only [StepReads]; decide +kernel

theorem test_witness_LoadStepsAndRange :
    let a := a0
    let s := served1
    let top : LoadOp := ⟨⟨0, 49024⟩, 1, 127⟩
    let past : LoadOp := ⟨⟨0, 49025⟩, 1, 127⟩
    StepReads a s ∧ (Instr.loadA a top).wf = true ∧ (Instr.loadB a ⟨⟨0, 0⟩, 0, 255⟩).wf = true ∧
  (Instr.loadScaleA a ⟨⟨0, 0⟩, 1, 3⟩).wf = true ∧ (Instr.loadScaleB a ⟨⟨0, 0⟩, 0, 3⟩).wf = true ∧
  (s.core a.field a.core).line top.mem + (top.lines + 1) ≤ sramLines ∧ CleanLines s (sramLine 0 0 49024) (top.lines + 1) ∧
  sramLines < (s.core a.field a.core).line past.mem + (past.lines + 1) ∧ s.slotOfField a.field = some 0 ∧ s.fld F.SEQ_FAULT_CLASS 0 = 0 := by
  simp only [StepReads, CleanLines]; decide +kernel

theorem test_witness_MmaStepsAndCheck :
    let a := a0
    let s := served1
    let op := mma1
    let k := s.core a.field a.core
    let q : State := served1.updCore 0 0 fun k => { k with opndPoison := 1 }
    let o := overflow1
    let m := o.core a.field a.core
    StepReads a s ∧ (Instr.mmaZero a op).wf = true ∧ (Instr.mmaAcc a op).wf = true ∧ k.tileErrors op.tile = (0, false) ∧ k.mmaPoisoned op = false ∧
  mmaFinding a op s (List.replicate 512 0#32) (mmaProduct a op s) = none ∧ (StepReads a q ∧ (q.core a.field a.core).mmaPoisoned op = true) ∧
  (StepReads a o ∧ (Instr.mmaZero a mma2).wf = true ∧ m.mmaPoisoned mma2 = false) ∧
  mmaFinding a mma2 o (List.replicate 512 0#32) (mmaProduct a mma2 o) = some 0 ∧ 0 < 32 ∧
  o.slotOfField a.field = some 0 ∧ o.flag F.TEN_FLD_LAST_VALID a.field = false ∧ o.fld F.SEQ_FAULT_CLASS 0 = 0 := by
  simp only [StepReads]
  exact ⟨by decide +kernel, by decide +kernel, by decide +kernel, by decide +kernel, by decide +kernel, check1,
    by decide +kernel, by decide +kernel, by decide +kernel⟩

theorem test_witness_VecSteps :
    let a := a0
    let op : VecOp := ⟨63, 0, 63, 1, 0x3F800000⟩
    let s := served1.updCore 0 0 fun k => { k with acc := [(3, 0x3F800000#32), (63*512+3, 0x40000000#32)] }
    let k := s.core a.field a.core
    let r := tileRmax (k.tile op.src1)
    StepReads a s ∧ CleanTiles k ∧ mapGet (fun _ => none) s.inject a.field ≠ some (a.core.val, true) ∧ (.vecRmax a op, r) ∈ vecResult a op k := by
  simp only [StepReads, CleanTiles, vecResult, List.mem_cons, or_true, true_or, and_true]; decide +kernel

theorem test_witness_TileStores :
    let a := a0
    let s := served1
    let op : CvtOp := ⟨0, .bf16, .stochastic, ⟨0, 49136⟩⟩
    StepReads a s ∧ CleanTiles (s.core 0 0) ∧ op.fmt.mx = false ∧ MayWrite a s 49136 (cvtLines op.fmt) ∧ MayWrite a s 49120 32 ∧
  49120 + 32 ≤ sramLines ∧ CleanLines s (sramLine 0 0 49120) 32 := by
  simp only [StepReads, CleanLines, CleanTiles, mayWrite_iff]; decide +kernel

theorem test_witness_GlobalSteps :
    let a := a0
    let s := outputs1
    let op : GlobalOp := ⟨⟨0, 0⟩, 1, 0xF80, none⟩
    StepReads a s ∧ (Instr.gread a op).wf = true ∧ (Instr.gwrite a op).wf = true ∧
  (GlobalReaches a op s false 0xF80 ∧ GlobalReaches a op s true 0xF80) ∧ MayWrite a s 0 2 ∧ CleanLines s 0xF80 2 ∧
  (s.core 0 0).line op.mem + 2 ≤ sramLines ∧ CleanLines s (sramLine 0 0 0) 2 ∧ s.regionCode (s.who 0 0).slot ((s.core 0 0).globalVa op) true = 0 := by
  simp only [StepReads, CleanLines, mayWrite_iff, GlobalReaches]
  exact ⟨by decide +kernel, by decide +kernel, by decide +kernel, ⟨⟨by decide +kernel, by decide +kernel, by decide +kernel, ⟨0, false, 0, 0, true, false, 1⟩,
    by decide +kernel⟩, by decide +kernel, by decide +kernel, by decide +kernel, ⟨0, false, 0, 0, true, false, 1⟩, by decide +kernel⟩, by decide +kernel⟩

theorem test_witness_SendAndPost :
    let a := a0
    let s := posted
    let op : SendOp := ⟨⟨0, 49088⟩, 0, 449, 255⟩
    let k := s.core a.field a.core
    let w := s.who a.field a.core
    StepReads a s ∧ k.outstanding = 0 ∧ s.fieldUp a.field = true ∧ k.line op.mem + 64 ≤ sramLines ∧ CleanLines s (sramLine 0 0 49088) 64 ∧ (s.mem.tile (sramLine 0 0 49088)).current = false ∧
  s.sendTarget w.slice op.dstField.toNat op.dstCore.toNat = some (s.selfId, 0) ∧
  k.line ⟨0, 0⟩ < sramLines ∧ CleanLines s (sramLine 0 0 0) 1 ∧ (s.fieldOwner a.field).isSome = true ∧ (s.mover 0 15).queue.length < 32 ∧
  (s.mover 0 15).hasTag a.core k.pc (s.frameOfField 0 % 2 ^ 32) = false ∧
  s.rejectCode (s.sliceOfField 0) (ofBytes (s.mem.bytes (sramLine 0 0 0) 64)) false = 0 := by
  simp only [StepReads, CleanLines]; decide +kernel


/-! ## Movers -/

/-- A descriptor of one line from LPDDR to LPDDR. -/
def desc1 (state code progress : Nat) : Desc :=
  { Desc.ofWords (64 * 2 ^ 16 + 64 * 2 ^ 128) 0 0 0 0 false with state := state, code := code, progress := progress }

/-- A mover whose head is given. -/
def headOf (m : Nat) (d : Desc) (g : Mover → Mover) : State := mapped.updMover 0 m fun v => g { v with queue := [d] }

/-- A running head whose one write request, tag 0, is outstanding. -/
def asking : State := headOf 3 (desc1 descRunning 0 0) fun v => { v with reqs := [⟨0, 0, 64, 0, .writing, none⟩] }

/-! ## Memory -/

/-- Line 0 of core 479 of field 55, and line 0 of LPDDR, hold bit errors; scrub runs. -/
def upset1 (k : Nat) : State :=
  { (State.reset.setFld F.SRM_FLD_CTRL_SCRUB_EN 55 1).setFld F.LPD_SCRUB_EN 0 1 with
    mem := { Memory.init with upset := [(0, k), (sramLine 55 479 0 / 64, k)] } }

/-- Slice 1 may hold one frame, and holds `held`. -/
def quota1 (held : Nat) : State :=
  (((mapped.setFld F.LPD_QUOTA_ACTIVE 63 1).setFld F.LPD_QUOTA_SLICE_ID 63 1).setFld F.LPD_QUOTA_LIMIT 63 1).setFld F.LPD_QUOTA_HELD 63 held

/-! ## Packets -/

/-- A packet of a type, for slice 1 at an address. -/
def pkt (ptype : BitVec 4) (addr tag : Nat) (lines : Fin 64) (data : List Byte) : Packet :=
  { ptype := ptype, slice := 1, epoch := 0, replay := 0, segment := 0, mover := false, code := 0x0E, lines := lines, tile := false
    addr := BitVec.ofNat 64 addr, src := 0, tag := BitVec.ofNat 32 tag, frame := 0, data := data, record := none }

/-- It arrives intact. -/
def intact : Arrival := ⟨.mesh, true, none⟩

/-- The last core of field 0 waits for a read of one line into its last line, tag 5. -/
def remote1 (write : Bool) : State :=
  { served1 with remotes := [⟨5, 0, 0, 449, write, 49151, 1, 49151, 1, true, false, 0, 0, 0, 0, 0, none⟩], now := 200 * ns * 100 * 2000, ups := 200 * ns * 100 * 2000 }

/-- Core 449 runs program 0 with one receive slot at line 64. -/
def receiving (replay : Nat) : State :=
  (served1.updCore 0 449 fun k => { k with steps := [(0, BitVec.ofNat 128 (64 * 2 ^ 80 + 2 ^ 96))] }).setFld F.SEQ_STATUS_REPLAY 0 replay

/-- An exchange for slot 0 of that core. -/
def xchg (frame : Nat) (replay : BitVec 2) : Packet :=
  { pkt 0x4 449 0 63 (List.replicate 4096 0) with tile := true, frame := BitVec.ofNat 32 frame, replay := replay, record := some Sorrel.zero }

/-- The CRC of zeros is zero. -/
theorem crc64_zeros : ∀ n, crc64 (List.replicate n 0) = 0
  | 0 => rfl
  | n + 1 => crc64_zeros n

/-- Zeros pass verification against a record over them. -/
theorem zeros_ok (n : Nat) : sorrelOk (List.replicate n 0) Sorrel.zero = true := by
  simp only [sorrelOk, crc64_zeros]
  rfl
theorem test_witness_MoversTakeWork :
    let f : Fin 56 := 0
    let m : Fin 16 := 15
    let s := served1.wr .MOV_FLD_STAGE 0 (64 * 2 ^ 16 + 64 * 2 ^ 128)
    let r := headOf 15 (desc1 descRunning 0 0) id
    let moved := { r with slots := [(0, { Slot.init with phase := .saving })] }
    let d := desc1 descRunning 0 0
    let ds : List Desc := []
    s.flag F.MOV_FLD_CMD_BUSY f = false ∧ (s.fieldOwner f).isSome = true ∧ (s.mover f m).queue.length < 32 ∧
  s.rejectCode (s.sliceOfField f) (s.rd .MOV_FLD_STAGE f) false = 0 ∧
  (r.mover f m).queue = d :: ds ∧ r.moverTurn f = some m.val ∧ r.sliceBars f = none ∧
  (moved.mover f m).queue = d :: ds ∧ moved.moverTurn f = some m.val ∧ moved.sliceBars f = some 0x20 ∧ r.moverTurn f ≠ some (0 : Fin 16).val := by
  decide +kernel

theorem test_witness_MoversFinishWork :
    let f : Fin 56 := 0
    let m : Fin 16 := 3
    let tag : BitVec 32 := 0
    let s := asking
    let d := desc1 descRunning 0 0
    let e := desc1 descRunning 0 64
    let ds : List Desc := []
    let r : MoverReq := ⟨0, 0, 64, 0, .writing, none⟩
    let good := headOf 3 e fun v => { v with readBytes := 64, ackBytes := 64, issued := 1, answered := 1 }
    let bad := headOf 3 e fun v => { v with readBytes := 64, ackBytes := 128, issued := 1, answered := 1 }
    s.moverOfTag f tag.toNat = some m.val ∧ (s.mover f m).queue = d :: ds ∧
  ((s.mover f m).reqs.find? fun r => r.tag == tag.toNat) = some r ∧
  (0#8).toNat = d.segment ∧ r.stage = .writing ∧ r.off = d.progress ∧ (s.mover f m).acks = [] ∧ 0 < r.len ∧ (255#8).toNat ≠ d.segment ∧
  (good.mover f m).queue = e :: ds ∧ e.state = descRunning ∧ (good.mover f m).parking = none ∧ e.progress = e.length ∧
  (good.mover f m).auditOk e = true ∧ (bad.mover f m).queue = e :: ds ∧ (bad.mover f m).parking = none ∧ (bad.mover f m).auditOk e = false := by
  decide +kernel

theorem test_witness_MoverParks :
    let f : Fin 56 := 0
    let m : Fin 16 := 3
    let run := desc1 descRunning 0 0
    let held := desc1 descParked 0x24 0
    let late := desc1 descParked 0x10 0
    let queued := desc1 descQueued 0 0
    let parking := headOf 3 run fun v => { v with parking := some 0x24 }
    let waits := headOf 3 run fun v => { v with parking := some 0x21, cancel := true }
    let asks := headOf 3 run fun v => { v with reqs := [⟨0, 0, 64, 0, .writing, none⟩] }
    let running := headOf 3 run id
    let parked := headOf 3 held id
    let ready := headOf 3 queued id
    let ended := { headOf 3 late id with ups := 1 }
    let ds : List Desc := []
    ((parking.mover f m).queue = run :: ds ∧ (parking.mover f m).parking = some 0x24 ∧ (parking.mover f m).reqs = [] ∧
  (parking.mover f m).cancel = false) ∧
    ((waits.mover f m).queue = run :: ds ∧ (waits.mover f m).parking = some 0x21 ∧ (waits.mover f m).reqs = [] ∧ (waits.mover f m).cancel = true) ∧
    ((ended.mover f m).queue = late :: ds ∧ ended.atTick = true ∧ late.state = descParked ∧ (ended.mover f m).parkedAt ≠ ended.up ∧
  ended.sliceBars f = none ∧ ended.causeEnded f late = true) ∧
    (running.flag F.MOV_FLD_CMD_BUSY f = false ∧ (running.fieldOwner f).isSome = true ∧
  (parked.mover f m).queue = held :: ds ∧ parked.mayResume f held = true ∧ parked.flag F.MOV_FLD_CMD_BUSY f = false ∧
  (running.mover f m).queue = run :: ds ∧ run.state = descRunning ∧ (running.mover f m).parking = none ∧
  (running.mover f m).reqs = [] ∧ (ready.mover f m).queue = queued :: ds ∧ queued.state ≠ descRunning ∧ (asks.mover f m).reqs ≠ []) := by
  refine ⟨?_, ?_, ?_, ?_⟩ <;> decide +kernel

theorem test_witness_SramUpkeep :
    let f : Fin 56 := 55
    let w : Fin 480 := 479
    let l : Fin 49152 := 0
    let busy := State.reset.setFld F.SRM_FLD_CLEAR_BUSY 55 1
    let ce := upset1 1
    let ue := upset1 2
    State.reset.fieldRuns f = false ∧ State.reset.flag F.SRM_FLD_CLEAR_BUSY f = false ∧ busy.flag F.SRM_FLD_CLEAR_BUSY f = true ∧
  ce.flag F.SRM_FLD_CTRL_SCRUB_EN f = true ∧ mapGet (fun _ => 0) ce.mem.upset (sramLine f w l / 64) = 1 ∧
  ue.flag F.SRM_FLD_CTRL_SCRUB_EN f = true ∧ mapGet (fun _ => 0) ue.mem.upset (sramLine f w l / 64) = 2 ∧ ue.flag F.SRM_FLD_ERR_VALID f = false ∧
  ue.flag F.SRM_FLD_ERR_VALID f = false ∧ ue.flag F.LPD_DEV_ERR_VALID (deviceOf 0) = false ∧ ce.flag F.LPD_SCRUB_EN = true ∧ 0 * 64 < lpddrEnd ∧ ce.mem.mark 0 = 0 ∧ mapGet (fun _ => 0) ce.mem.upset 0 = 1 ∧
  ue.flag F.LPD_SCRUB_EN = true ∧ ue.mem.mark 0 = 0 ∧ mapGet (fun _ => 0) ue.mem.upset 0 = 2 := by
  decide +kernel

theorem test_witness_TranslationsAndFrames :
    let s := mapped
    let root : BitVec 64 := 0x03B000000000
    let free := quota1 0
    let full := quota1 1
    root.toNat % 2 ^ 22 = 0 ∧ s.inReserved root.toNat (2 ^ 22) = true ∧ s.flag F.SEQ_STATUS_RUNNING 0 = false ∧
  free.quotaOf 1 = some 63 ∧ (1933311#21).toNat < jobFrames ∧ free.mem.ownerOf 1933311 = 0 ∧
  free.fld F.LPD_QUOTA_HELD 63 + 1 ≤ free.fld F.LPD_QUOTA_LIMIT 63 ∧ full.quotaOf 1 = some 63 ∧ full.mem.ownerOf 1933311 = 0 ∧
  full.fld F.LPD_QUOTA_LIMIT 63 < full.fld F.LPD_QUOTA_HELD 63 + 1 ∧ full.mem.ownerOf 0 = 1 + 1 ∧ (0#21).toNat < jobFrames := by
  decide +kernel

theorem test_witness_NoEntryDrops :
    let s := State.reset
    let p := pkt 0x0 0 0 0 []
    intact.lost = none ∧ s.entryOf p.slice.toNat = none ∧ p.addr.toNat / 2 ^ 50 = s.selfId := by
  decide +kernel

theorem test_witness_RemoteRequests :
    let a := intact
    let s := mapped
    let rd := pkt 0x0 0x1FF000 0 62 []
    let wr := pkt 0x2 0x1FF000 0 62 (List.replicate (64 * 63) 7)
    let old : Packet := { rd with epoch := 0xFFFF }
    let other := pkt 0x0 0x200000 0 0 []
    (RequestArrives a rd s 0x1FF000 ∧ RequestArrives a wr s 0x1FF000) ∧ CleanLines s 0x1FF000 63 ∧ (Instr.read a rd).wf = true ∧ a.crcOk = true ∧
  (Instr.write a wr).wf = true ∧
  a.lost = none ∧ old.addr.toNat / 2 ^ 50 = s.selfId ∧ (s.entryOf old.slice.toNat).isSome = true ∧ old.epoch.toNat ≠ s.epochOf old.slice.toNat ∧
  other.addr.toNat / 2 ^ 50 = s.selfId ∧ (s.entryOf other.slice.toNat).isSome = true ∧ other.epoch.toNat = s.epochOf other.slice.toNat ∧
  placeOf (other.addr.toNat % 2 ^ 50) = .job ∧ s.serves (other.addr.toNat % 2 ^ 50) = true ∧ wholeTile 0x1FF000 63 = false ∧ s.mem.ownerOf (other.addr.toNat % 2 ^ 50 / 2 ^ 21) ≠ other.slice.toNat + 1 := by
  simp only [RequestArrives, CleanLines]; decide +kernel

theorem test_witness_RemoteResponses :
    let a := intact
    let s := remote1 false
    let w := remote1 true
    let p := pkt 0x1 0 5 0 (List.replicate 64 9)
    let r : Remote := ⟨5, 0, 0, 449, false, 49151, 1, 49151, 1, true, false, 0, 0, 0, 0, 0, none⟩
    let v : Remote := ⟨5, 0, 0, 449, true, 49151, 1, 49151, 1, true, false, 0, 0, 0, 0, 0, none⟩
    ResponseArrives a p s r ∧ ResponseArrives a p w v ∧ r.write = false ∧ a.crcOk = true ∧ (Instr.readData a p).wf = true ∧ p.tile = false ∧
  r.count = p.lines.val + 1 ∧ r.start + s.mmuLimit ≤ s.up ∧ s.slotOfField 0 = some 0 ∧ s.fld F.SEQ_FAULT_CLASS 0 = 0 ∧
  v.write = true ∧ r.base + r.total ≤ sramLines := by
  simp only [ResponseArrives]; decide +kernel

theorem test_witness_Exchanges :
    let a := intact
    let s := receiving 3
    let p := xchg 0 3
    let sl := p.slice.toNat
    let c := bits p.addr.toNat 0 9
    let slot := bits p.addr.toNat 28 8
    let fr := s.rd .SEQ_FRAME 0
    let rep := s.fld F.SEQ_STATUS_REPLAY 0
    let h := (s.core 0 c).header (s.fld F.SEQ_STATUS_INDEX 0)
    let line := headerRecvBase h + (fr % 2 * headerRecvSlots h + slot) * 64
    (a.lost = none ∧ s.fieldUp 0 = true ∧ s.entryOf sl = some 0 ∧ s.relField 0 (bits p.addr.toNat 9 19) = some (0, 0) ∧ 0 = s.selfId ∧
    mapped.entryOf sl = some 0) ∧
  ((mapped.takeField 0).relField 0 (bits p.addr.toNat 9 19) = some (0, 0) ∧ (mapped.takeField 0).fieldOwner 0 ≠ some sl ∧
    s.fieldOwner 0 = some sl ∧ c ≤ 449 ∧ p.epoch.toNat = s.fld F.RTE_SLICE_EPOCH 0 ∧ s.slotOfSlice sl = some 0) ∧
  (p.frame.toNat = fr ∧ (xchg 0 2).replay.toNat < rep ∧ (xchg 1 3).frame.toNat ≠ fr ∧ p.replay.toNat = rep ∧ slot < headerRecvSlots h ∧
    mapGet (fun _ => none) (s.core 0 c).recv (fr % 2 * 256 + slot) ≠ some ⟨fr, rep⟩) ∧
  a.crcOk = true ∧ (∃ r, p.record = some r ∧ sorrelOk p.data r = true) ∧ p.data.length = 4096 ∧ line + 64 ≤ sramLines := by
  refine ⟨?_, ?_, ?_, rfl, ⟨_, rfl, zeros_ok _⟩, ?_, ?_⟩ <;> decide +kernel


/-! ## Columns and fields -/

/-- Column 29 of field 55 has lost its spare. -/
def spareless : State := State.reset.setFld F.MSH_COL_MAP_NOSPARE (colIdx 55 29) 1

/-- A rotation step of column 0 of field 0 has begun. -/
def stepping : State := { served1 with colOps := [⟨0, 0, 15, .rotate, true, false, false⟩] }

/-- Field 0 of slice 1 is retired. -/
def retired : State := served1.setFld F.MSH_FLD_STATE_STATE 0 1

/-- A core whose check row failed on n of its latest MMAs. -/
def missed (s : State) (n : Nat) : State := s.updCore 0 0 fun k => { k with mmas := 2000, misses := List.replicate n 1500 }

/-! ## Frames -/

/-- Machine time has run for 10 s. -/
def later (s : State) : State := { s with ups := 10 * second }

/-- The slot of slice 1 with something in it. -/
def slotWith (s : State) (g : Slot → Slot) : State := s.updSlot 0 g

/-- A fault that waits for its resolution, or not. -/
def fault1 (resolved : Bool) : FrameFault := ⟨clsPoison, 0x09, 0, 0, 0, 0, 1, none, resolved⟩

/-- Machine time is locked to TICK_IN. Slice 1 has two modules, and module 1 beside this one (or the other way round). -/
def pair (home : Nat) : State :=
  ((((served1.setFld F.TIM_CTRL_SOURCE 0 1).setFld F.TIM_STATUS_STATE 0 2).setFld F.RTE_MACHINE_DIM_X 0 2).setFld F.RTE_SLICE_BOX_EXTENT 0 1).setFld F.RTE_SLICE_HOME 0 home

/-- A decision with nothing but a verdict, a recorded cause, a frame, a replay count and a program. -/
def plain (v : Verdict) (cause frame replay next : Nat) : Decision :=
  { verdict := v, cause := cause, frame := frame, replay := replay, next := next, causes := [], told := ⟨0, 0⟩, begins := none, change := false
    halt := false, ends := none }

/-- Its slot has learnt a hold for POWER. -/
def holding : State :=
  (slotWith served1 fun v => { v with decision := some { plain .hold 3 0 0 0 with causes := [.power] }, causes := some [.power] }).setFld F.JOB_SLOT_B_POWER 0 64

/-- A job of slice 1, placed on slot 0 and field 0, running. -/
def job1 : Job :=
  { ident := 1, state := .running, tag := 7, homeConn := 0, conns := [0], extent := 0, wrap := 0, fields := 1, prio := 3, share := 0, frames := 1
    waitMs := 0, imageAddr := 0, imageRkey := 0, imageLen := 4096, order := 0, reason := 0, tried := false, placed := true, slice := 1, slot := 0
    entry := 0, owned := [0], home := 0, imageFrames := [], otherFrames := [], stage := .loaded, undo := [], away := [], failing := none, cause := ⟨0, 0⟩, resumeOk := false
    loadAt := 0, placedAt := 0, advancedAt := 0, loadTick := 0, placedTick := 0, stopTick := 0, preempts := 0, advanced := 0, held := 0
    run := none, entryIdx := 0, entryRep := 0, stopping := none, releasing := .no }

/-- That job with something changed, on slice 1. -/
def withJob (g : Job → Job) : State := { served1 with jobs := [g job1] }

/-- A mover of its field has been parked. -/
def parkedLong : State := later { withJob id with movers := (headOf 3 { desc1 descParked 0x10 0 with slice := 1 } id).movers }

/-- The saved context of slice 1: field 0 with cores that nothing has been loaded into. -/
def saved1 : SavedSlice :=
  { slice := 1, epoch := 0, frame := 5, status := 0, fault := 0, faultAddr := 0, next := 0, setBase := 0, live := 0, root := 0, slot := Slot.init
    fields := [⟨0, (List.range 450).map fun c => (c, Core.init), Memory.init, []⟩] }
theorem test_witness_ColumnOperations :
    let f : Fin 56 := 55
    let c : Fin 30 := 29
    let s := State.reset.setFld F.MSH_ROT_INTERVAL 0 1
    let o : ColOp := ⟨0, 0, 15, .rotate, true, false, false⟩
    let col : BitVec 5 := 29
    let prow : Fin 16 := 15
    let t := spareless
    let turn := { s with ups := 60 * second, rotLast := [(colIdx 55 29, 1)], rotStep := some 0 }
    turn.noSpare f c = false ∧ turn.fenceOf f c = 0 ∧ turn.colOps = [] ∧
  (turn.fld F.MSH_ROT_INTERVAL ≠ 0 ∧ mapGet (fun _ => 0) turn.rotLast (colIdx f c) = 0 + 1 ∧ 0 + turn.rotInterval ≤ turn.up ∧
  turn.rotStep = some 0 ∧ 1680 * 0 + turn.rotInterval ≤ 1680 * turn.up) ∧ s.rotStep = none ∧ mapGet (fun _ => 0) s.rotLast (colIdx f c) = 0 ∧
  s.fld F.MSH_ROT_INTERVAL ≠ 0 ∧ s.noSpare f c = false ∧ s.fenceOf f c = 0 ∧ (∀ o ∈ s.colOps, ¬(o.field = f.val ∧ o.col = c.val ∧ o.kind = .rotate)) ∧
  o ∈ stepping.colOps ∧ o.field = (0 : Fin 56).val ∧ o.col = (0 : Fin 30).val ∧ o.begun = true ∧
  col.toNat ≤ 29 ∧ s.flag F.MSH_FLD_CMD_BUSY f = false ∧ s.inService f = true ∧ s.colBusy f col.toNat = false ∧ s.colRepair f col.toNat = false ∧
  t.flag F.MSH_FLD_CMD_BUSY f = false ∧ t.inService f = true ∧ t.colBusy f col.toNat = false ∧ t.colRepair f col.toNat = false ∧
  t.noSpare f col.toNat = true ∧ s.noSpare f col.toNat = false ∧ (s.coreAtRow f col.toNat 14).isSome = true ∧
  prow.val = s.spareOf f col.toNat ∧ s.coreAtRow f col.toNat 0 = some 29 := by
  decide +kernel

theorem test_witness_ElementsOut :
    let f : Fin 56 := 55
    let c : Fin 450 := 449
    let s := State.reset
    let t := spareless
    let a := a0
    let lost := (withJob id).setFld F.MSH_FLD_STATE_STATE 0 2
    let five := missed served1 5
    let bare := (missed served1 5).setFld F.MSH_COL_MAP_NOSPARE (colIdx 0 0) 1
    let k := five.core a.field a.core
    let j := (missed served1 4).core a.field a.core
    s.inService f = true ∧ s.flag F.MSH_FLD_CMD_BUSY f = false ∧ s.prowOf f c = some 14 ∧ s.noSpare f (c.val % 30) = false ∧
  t.inService f = true ∧ t.prowOf f c = some 14 ∧ t.noSpare f (c.val % 30) = true ∧ s.fld F.MSH_FLD_STATE_STATE f < 2 ∧
  s.fencedLinks.contains (2223 : Fin 2224).val = false ∧ lost.slotOfField 0 = some 0 ∧ lost.fld F.MSH_FLD_STATE_STATE 0 = 2 ∧
  lost.jobOfSlot 0 = some job1 ∧ job1.stopping = none ∧ retired.slotOfField 0 = some 0 ∧ retired.fld F.MSH_FLD_STATE_STATE 0 = 1 ∧ (retired.slot 0).phase = .placed ∧ (retired.slot 0).requests = [] ∧
  (j.misses.filter fun m => decide (m + 1024 > j.mmas)).length ≤ 4 ∧ 4 < (k.misses.filter fun m => decide (m + 1024 > k.mmas)).length ∧
  five.prowOf a.field a.core = some 0 ∧ 0 < 16 ∧ (five.position a.field (a.core.val % 30) 0).markedAt = none ∧
  five.noSpare a.field (a.core.val % 30) = false ∧ bare.prowOf a.field a.core = some 0 ∧
  (bare.position a.field (a.core.val % 30) 0).markedAt = none ∧ bare.noSpare a.field (a.core.val % 30) = true := by
  decide +kernel

theorem test_witness_TicksAndCloses :
    let s := served1
    (⟨0, [], [], 0, 0, 0, true⟩ : TickIn).own = true ∧ 0 ∈ s.closingSlots s.closeGuard ∧ s.domains.control = true ∧ s.time.step = none ∧ s.flag F.SEQ_SLOT_CFG_ACTIVE 0 = true ∧ s.votes 0 = false ∧ (s.slot 0).phase ≠ .stopped := by
  decide +kernel

theorem test_witness_DecisionsApplied :
    let n := 0
    let s := slotWith served1 fun v => { v with named := some 9 }
    let faulted (rep : Nat) (b : Bool) := (slotWith (served1.setFld F.SEQ_STATUS_FAULTED 0 1) fun v => { v with faults := [fault1 b] }).setFld F.SEQ_STATUS_REPLAY 0 rep
    let asked := slotWith served1 fun v => { v with requests := [⟨0x64, 0⟩, ⟨0x61, 1⟩] }
    let rerun := slotWith served1 fun v => { v with rerun := true }
    let fencing := { served1 with colOps := [⟨0, 0, 0, .fenceCore, false, false, true⟩] }
    let rotating := { served1 with colOps := [⟨0, 0, 15, .rotate, false, false, false⟩] }
    let adv := plain .advance 0 0 0 255
    let rep := plain .replay 4 0 1 0
    let go := slotWith served1 fun v => { v with decision := some adv, started := true }
    let again := slotWith served1 fun v => { v with decision := some rep, started := true }
    let cs : List Cause := [.overrun, .idle]
    ((s.slot n).moving = false ∧ (s.slot n).rerun = false ∧ (s.slot n).requests = [] ∧ (s.fenceDue n).isSome = false ∧
  (s.stepDue n).isSome = false ∧ s.flag F.SEQ_STATUS_FAULTED n = false ∧ cs ≠ [] ∧ Cause.rotation ∉ cs ∧ Cause.fault ∉ cs ∧ Cause.decision ∉ cs) ∧
    ((asked.slot n).moving = false ∧ (asked.fenceDue n).isSome = false ∧ (asked.slot n).requests ≠ [] ∧
  (rerun.slot n).moving = false ∧ (rerun.fenceDue n).isSome = false ∧ (rerun.slot n).rerun = true ∧ (rerun.slot n).requests = [] ∧
  rerun.flag F.SEQ_STATUS_FAULTED n = false) ∧
    ((fencing.slot n).moving = false ∧ (fencing.fenceDue n).isSome = true ∧
  (rotating.slot n).moving = false ∧ (rotating.fenceDue n).isSome = false ∧ (rotating.stepDue n).isSome = true ∧ (rotating.slot n).requests = [] ∧
  (rotating.slot n).rerun = false ∧ rotating.flag F.SEQ_STATUS_FAULTED n = false) ∧
    ((∀ b, ∀ r ∈ [2, 3], ((faulted r b).slot n).moving = false ∧ ((faulted r b).fenceDue n).isSome = false ∧ ((faulted r b).slot n).requests = [] ∧
    (faulted r b).flag F.SEQ_STATUS_FAULTED n = true ∧ (faulted r b).fld F.SEQ_STATUS_REPLAY n = r ∧
    ((faulted r b).faultsReady n && !(faulted r b).flag F.SEQ_STATUS_PROGRAM n && !([Cause.fault].contains .power)) = b)) ∧
    (n < 56 ∧ (go.slot n).phase = .placed ∧ (go.slot n).requests = [] ∧ go.opsOf n = [] ∧ go.stopComes n = false ∧ (go.slot n).late = [] ∧
  go.votes n = false ∧
  (go.slot n).decision = some adv ∧ (go.slot n).started = true ∧ adv.verdict = .advance ∧ (again.slot n).phase = .placed ∧
  (again.slot n).requests = [] ∧ again.opsOf n = [] ∧ again.stopComes n = false ∧ (again.slot n).late = [] ∧ again.votes n = false ∧
  (again.slot n).decision = some rep ∧ (again.slot n).started = true ∧ rep.verdict = .replay) ∧
    (∀ p ∈ go.coresOf n, ∀ i ∈ 255 / 4 :: rangeFrom ((go.core p.1 p.2).start 255) 9, (go.core p.1 p.2).upsetAt i = 0) ∧
    (∀ p ∈ again.coresOf n, ∀ i ∈ 0 / 4 :: rangeFrom ((again.core p.1 p.2).start 0) 9, (again.core p.1 p.2).upsetAt i = 0) := by
  refine ⟨?_, ?_, ?_, ?_, ?_, ?_, ?_⟩ <;> decide +kernel

theorem test_witness_VotesAndDecisions :
    let slice : BitVec 12 := 1
    let s := pair 0
    let far := pair 1
    let kept := slotWith far fun v => { v with causes := some [], decision := some (plain .hold 4 0 0 0) }
    let x : Vote := ⟨1, false, 0, 0, [], false, false, false, 0, true, [], false, false, false⟩
    let d := { plain .advance 0 0 0 0 with change := true }
    let first := s
    let last := slotWith s fun v => { v with votes := [⟨0, false, 0, 0, [], false, false, false, 0, true, [], false, false, false⟩] }
    let held := { (far.setFld F.SEQ_SLOT_CFG_ACTIVE 0 0) with mem := far.mem }
    let vs := (last.slot 0).votes.filter (fun y => y.member != x.member) ++ [x]
    (State.reset.entryOf slice.toNat = none) ∧
    (first.entryOf slice.toNat = some 0 ∧ first.flag F.RTE_SLICE_ROLE 0 = false ∧ first.slotOfSlice slice.toNat = some 0 ∧ first.fld F.RTE_SLICE_HOME 0 = first.selfId ∧ x.member ∈ first.voters 0 ∧
  (0 ∈ first.voters 0 ∧ ∀ y ∈ (first.slot 0).votes.filter (fun y => y.member != x.member) ++ [x], y.member ≠ 0)) ∧
    ((first.setFld F.RTE_SLICE_ROLE 0 1).entryOf slice.toNat = some 0 ∧ (first.setFld F.RTE_SLICE_ROLE 0 1).flag F.RTE_SLICE_ROLE 0 = true ∧
  last.entryOf slice.toNat = some 0 ∧ last.flag F.RTE_SLICE_ROLE 0 = false ∧ last.slotOfSlice slice.toNat = some 0 ∧ last.fld F.RTE_SLICE_HOME 0 = last.selfId ∧ x.member ∈ last.voters 0 ∧
  (∀ m ∈ last.voters 0, ∃ y ∈ vs, y.member = m) ∧ last.timeSet = true) ∧
    (far.entryOf slice.toNat = some 0 ∧ far.slotOfSlice slice.toNat = some 0 ∧ far.fld F.RTE_SLICE_HOME 0 ≠ far.selfId ∧
  far.flag F.RTE_SLICE_ROLE 0 = false ∧ (far.slot 0).causes = none) ∧
    (kept.entryOf slice.toNat = some 0 ∧ kept.slotOfSlice slice.toNat = some 0 ∧
  kept.fld F.RTE_SLICE_HOME 0 ≠ kept.selfId ∧ (kept.slot 0).causes ≠ none) ∧
    (held.entryOf slice.toNat = some 0 ∧ held.slotOfSlice slice.toNat = none ∧ held.fld F.RTE_SLICE_HOME 0 ≠ held.selfId ∧ d.change = true) := by
  refine ⟨?_, ?_, ?_, ?_, ?_, ?_⟩ <;> decide +kernel

theorem test_witness_Limits :
    let n : Fin 56 := 0
    let f : Fin 56 := 0
    let m : Fin 16 := 3
    let d := { plain .hold 3 0 0 0 with causes := [.power] }
    let dd := { desc1 descParked 0x10 0 with slice := 1 }
    let stuck := later (slotWith (withJob id) fun v => { v with faults := [fault1 false], faultSince := some 0 })
    let lost := later ((slotWith served1 fun v => { v with decisionSince := some 0 }).setFld F.TIM_STATUS_STATE 0 0)
    let home := later (slotWith (pair 1) fun v => { v with decisionSince := some 0 })
    let far := home.setFld F.SEQ_SET_BASE_BASE 0 (2 ^ 50)
    let here := { home with jobs := [job1] }
    let gone := later (slotWith served1 fun v => { v with lostReported := some 0 })
    let near := (slotWith (pair 1) fun v => { v with lostReported := some 0 }).setFld F.SEQ_SET_BASE_BASE 0 (2 ^ 50)
    let told := slotWith served1 fun v => { v with stopDue := some true }
    ((holding.slot n).decision = some d ∧ d.holds = true ∧ d.verdict ≠ .preempt ∧ Cause.power ∈ countingCauses ∧ Cause.power ∈ d.causes ∧
  64 ≤ holding.holdCount n .power ∧ Cause.preempt ∉ d.causes ∧ Cause.rotation ∉ d.causes ∧ holding.votes n = false) ∧
    ((stuck.slot n).faultSince = some 0 ∧ 1000000000 ≤ stuck.since 0 ∧ stuck.faultsReady n = false ∧ stuck.jobOfSlot n = some job1 ∧
  job1.stopping = none) ∧
    ((parkedLong.mover f m).queue = dd :: [] ∧ dd.state = descParked ∧ dd.code ≠ 0x20 ∧
  (parkedLong.mover f m).parkedAt + second ≤ parkedLong.up ∧ parkedLong.jobs.find? (fun j => j.slice == dd.slice) = some job1 ∧ dd.cc = false) ∧
    ((lost.slot n).decisionSince = some 0 ∧ 1000000000 ≤ lost.since 0 ∧ lost.timeSet = false ∧ (lost.slot n).phase = .placed ∧
  lost.flag F.SEQ_SLOT_CFG_ACTIVE n = true ∧ (lost.slot n).requests = []) ∧
    ((far.slot n).decisionSince = some 0 ∧ 1000000000 ≤ far.since 0 ∧
  far.timeSet = true ∧ far.homeOf n ≠ far.selfId ∧ (far.slot n).lostReported = none ∧ far.entryModule n ≠ far.selfId) ∧
    (here.jobs.find? (fun j => j.slice == here.fld F.SEQ_SLOT_CFG_SLICE_ID n) = some job1 ∧ here.entryModule n = here.selfId ∧ here.timeSet = true ∧ here.homeOf n ≠ here.selfId ∧ (here.slot n).decisionSince = some 0) ∧
    ((gone.slot n).lostReported = some 0 ∧ 1000000000 ≤ gone.since 0 ∧ gone.jobOfSlot n = none) ∧
    ((near.slot n).lostReported = some 0 ∧ near.entryModule n = near.homeOf n ∧ near.jobOfSlot n = none) ∧
    ((told.slot n).stopDue = some true ∧ (told.stopSlot n).moversDrained n = true) := by
  refine ⟨?_, ?_, ?_, ?_, ?_, ?_, ?_, ?_, ?_⟩ <;> decide +kernel

theorem test_witness_ContextMoves :
    let n : Fin 56 := 0
    let s := slotWith served1 fun v => { v with phase := .saving }
    let r : State := { slotWith served1 fun v => { v with phase := .restoring } with saved := [saved1] }
    let x : SavedField := ⟨0, (List.range 450).map fun c => (c, Core.init), Memory.init, []⟩
    (s.slot n).phase = .saving ∧ s.moversDrained n = true ∧ r.savedOf (r.fld F.SEQ_SLOT_CFG_SLICE_ID n) = some saved1 ∧
  (r.slot n).phase = .restoring ∧ saved1.fields = [x] ∧ r.fieldsOf n = [0] ∧
  x.cores = ((List.range 450).map fun c => (c, (fun _ => Core.init) c)) := by
  decide +kernel


/-! ## Images -/

/-- The header and the section table of an image of one step store. -/
def header1 : Nat :=
  0x50465856 + 2 * 2 ^ 32 + 270336 * 2 ^ 64 + 2 ^ 144 +
  (1 + 4096 * 2 ^ 64 + 1800 * 2 ^ 128 + 450 * 2 ^ 192) * 2 ^ 2048 + (2 + 8192 * 2 ^ 64 + 262144 * 2 ^ 128 + 2 ^ 192) * 2 ^ 2304 +
  (3 + 4096 * 2 ^ 64) * 2 ^ 2560 + (4 + 4096 * 2 ^ 64) * 2 ^ 2816 + (5 + 4096 * 2 ^ 64) * 2 ^ 3072

/-- An image whose step store is empty, and one whose program 0 has no header. -/
def emptySet : List Byte := toBytes 512 header1
def badSet : List Byte := toBytes 8196 (header1 + 2 ^ 28 * 2 ^ (8 * 8192))

/-- Past the end of a byte string every value is zero. -/
theorem leAt_past (bs : List Byte) (o n : Nat) (h : bs.length ≤ o) : leAt bs o n = 0 := by
  have hz : ∀ k, ofBytes (List.replicate k 0) = 0 := by
    intro k
    induction k with
    | zero => rfl
    | succ k ih => rw [List.replicate_succ, ofBytes, ih]; rfl
  rw [leAt, slice, List.drop_eq_nil_of_le h, List.take_nil, List.nil_append]
  exact hz _

theorem toBytes_length (n v : Nat) : (toBytes n v).length = n := by
  induction n generalizing v with
  | zero => rfl
  | succ n ih => rw [toBytes, List.length_cons, ih]

/-- Every store of the first image is empty, and no program of it breaks a rule. -/
theorem emptySet_store (i : Nat) : (bytesImg emptySet).store i = Core.init := by
  have h : ∀ j, bytesImg emptySet ((bytesImg emptySet).offOf 2 + 262144 * i + 16 * j) 16 = 0 := fun j =>
    leAt_past _ _ _ (by
      rw [emptySet, toBytes_length]
      have : (bytesImg emptySet).offOf 2 = 8192 := by decide +kernel
      rw [show (bytesImg (toBytes 512 header1)).offOf 2 = 8192 from this]
      omega)
  rw [Img.store, List.filterMap_eq_nil_iff.mpr fun j _ => if_pos (h j)]
  rfl

/-- A list in which only index 0 gives a value. -/
theorem filterMap_first {α : Type} (g : Nat → Option α) (a : α) (n : Nat) (h0 : g 0 = some a) (h : ∀ j, g (j + 1) = none) :
    (List.range (n + 1)).filterMap g = [a] := by
  rw [List.range_succ_eq_map, List.filterMap_cons, h0, List.filterMap_map]
  exact congrArg (List.cons a) (List.filterMap_eq_nil_iff.mpr fun j _ => h j)

/-- The store of the second image holds an entry for program 0. -/
theorem badSet_store : (bytesImg badSet).store 0 = { Core.init with steps := [(0, 0x10000000#128)] } := by
  have ho : (bytesImg badSet).offOf 2 = 8192 := by decide +kernel
  have h0 : bytesImg badSet (8192 + 262144 * 0 + 16 * 0) 16 = 2 ^ 28 := by decide +kernel
  have h : ∀ j, bytesImg badSet (8192 + 262144 * 0 + 16 * (j + 1)) 16 = 0 := fun j =>
    leAt_past _ _ _ (by rw [badSet, toBytes_length]; omega)
  rw [Img.store, ho]
  refine congrArg (fun l => { Core.init with steps := l }) (filterMap_first _ _ 16383 ?_ ?_)
  · simp only [h0]
    rfl
  · exact fun j => if_pos (h j)

/-- Field 0 of slice 1 loads the set of slot 0, which another module holds. -/
def loading : State :=
  ((served1.setFld F.SEQ_FLD_LOAD_BUSY 0 1).setFld F.SEQ_FLD_LOAD_SLOT 0 0).setFld F.SEQ_SET_BASE_BASE 0 (2 ^ 50)

/-- The image of a slot whose set another module holds. -/
theorem loading_set (away : List Byte) : loading.setImage 0 away = bytesImg away := by
  rw [State.setImage, if_neg (by decide +kernel)]

theorem emptySet_map (i : Nat) : (bytesImg emptySet).stepMap i = 0 := by
  have h : (bytesImg emptySet).offOf 1 = 4096 := by decide +kernel
  rw [Img.stepMap, h]
  exact leAt_past _ _ _ (by rw [emptySet, toBytes_length]; omega)

/-- A step of core 0 cannot be read, and its slot holds with cause FAULT. -/
def stepHold : State :=
  (slotWith loading fun v => { v with faults := [⟨clsStepEcc, 0, 0, 0, 0, 100, 1, none, false⟩] }).setFld F.SEQ_STATUS_HOLD 0 4
theorem test_witness_StepStoreLoads :
    let f : Fin 56 := 0
    let s := loading
    let r := served1
    let b := (slotWith served1 fun v => { v with started := true }).setFld F.SEQ_STATUS_RUNNING 0 1
    let u := b.setFld F.SEQ_FLD_LOAD_BUSY 0 1
    let m := bytesImg emptySet
    let w := bytesImg badSet
    (u.flag F.SEQ_FLD_LOAD_BUSY f = true ∧ u.mayLoad f = false ∧ s.mayLoad f = true) ∧
  (r.flag F.SEQ_FLD_LOAD_BUSY f = false ∧ r.mayLoad f = true ∧ r.noSet f 0 = false ∧ r.noSet f 63 = true) ∧
  (b.flag F.SEQ_FLD_LOAD_BUSY f = false ∧ b.mayLoad f = false ∧ s.flag F.SEQ_FLD_LOAD_BUSY f = true ∧ s.fld F.SEQ_FLD_LOAD_SLOT f = 0 ∧
    s.noSet f 0 = false) ∧
  (s.setImage 0 emptySet = m ∧ s.setImage 0 badSet = w) ∧ (m.tableOk = true ∧ w.tableOk = true) ∧
  (∀ c, c < 450 → (m.store (m.stepMap (s.imageIndex 0 f c m.fields))).loadCode (m.store (m.stepMap 0)) (s.fld F.SEQ_LIVE_LIVE 0) = 0) ∧
  0 < 450 ∧ (w.store (w.stepMap (s.imageIndex 0 f 0 w.fields))).loadCode (w.store (w.stepMap 0)) (s.fld F.SEQ_LIVE_LIVE 0) ≠ 0 ∧
  (∀ b, b < 0 → (w.store (w.stepMap (s.imageIndex 0 f b w.fields))).loadCode (w.store (w.stepMap 0)) (s.fld F.SEQ_LIVE_LIVE 0) = 0) := by
  refine ⟨by decide +kernel, by decide +kernel, by decide +kernel, ⟨loading_set _, loading_set _⟩, by decide +kernel, ?_, by decide, ?_,
    fun b h => absurd h (Nat.not_lt_zero b)⟩
  · intro c _
    rw [emptySet_map, emptySet_map, emptySet_store]
    decide +kernel
  · have h0 : (bytesImg badSet).stepMap 0 = 0 := by decide +kernel
    have h1 : (bytesImg badSet).stepMap (loading.imageIndex 0 0 0 (bytesImg badSet).fields) = 0 := by decide +kernel
    show ((bytesImg badSet).store ((bytesImg badSet).stepMap (loading.imageIndex 0 0 0 (bytesImg badSet).fields))).loadCode
      ((bytesImg badSet).store ((bytesImg badSet).stepMap 0)) _ ≠ 0
    rw [h0, h1, badSet_store]
    decide +kernel

theorem test_witness_SequencerWrites :
    let n : Fin 56 := 0
    let s := stepHold
    let x : FrameFault := ⟨clsStepEcc, 0, 0, 0, 0, 100, 1, none, false⟩
    let i := State.reset.setFld F.TEN_FLD_CTRL_INJ_EN 0 1
    s.fld F.SEQ_STATUS_HOLD n = 4 ∧ (s.core x.field x.core).running = false ∧
  (s.slot n).faults.find? (fun x => x.cls == clsStepEcc && !x.resolved) = some x ∧ i.flag F.TEN_FLD_CTRL_INJ_EN n = true ∧ (449#9).toNat ≤ 449 ∧
  State.reset.flag F.TEN_FLD_CTRL_INJ_EN n = false := by
  decide +kernel


/-! ## Links and lanes -/

/-- A frame that arrives whole. -/
def whole (kind : BitVec 4) (seq : BitVec 24) (payload : List Byte) : LinkFrame :=
  let f : LinkFrame := ⟨kind, 3, false, false, BitVec.ofNat 8 (if kind = 1 then payload.length else 0), seq, 0, 0, 0, 0, 0, payload, 0, true⟩
  { f with crc := BitVec.ofNat 64 (crc64 (frameBytes f)) }

/-- A frame whose CRC does not match. -/
def broken : LinkFrame := { whole 0 0 [] with crc := 1 }

/-- Link slot 0 in a state, with 8 lanes, and what it holds. -/
def linkIn (st : Nat) (g : Link → Link) : State :=
  (((State.reset.setFld F.LNK_LINK_CFG_ENABLE 0 1).setFld F.LNK_LINK_CFG_GROUPS 0 1).setFld F.LNK_LINK_STATUS_STATE 0 st).updLink 0 g

/-- Link slot 0 is UP, and one buffer of VC 3 is granted. -/
def upLink : State := linkIn linkUp fun l => { l with granted := ⟨0, 0, 0, 1⟩ }

/-- A frame in the replay buffer that was resent six times. -/
def resent6 : SentFrame := ⟨0, 1, ⟨3, false, false, [], 0, none⟩, 6⟩

/-- Lane 0 of link slot 0 in a state, on a path. -/
def laneIn (st : Nat) (g : Lane → Lane) : State :=
  ((((linkIn linkTraining id).setFld F.LNK_LANE_STATUS_STATE 0 st).setFld F.DCK_PATH_TYPE 0 2).setFld F.DCK_PATH_INPUT 0 192).updLane 0 g

/-- Light has been present, and machine time runs on. -/
def lit (s : State) : State := { s with ups := 100 * msec }

/-- Light has been on lane 0 from the start. -/
def glow (s : State) : State := s.updLane 0 fun x => { x with lightAt := some 0 }
theorem test_witness_LinkReplay :
    let n : Fin 24 := 0
    let l : Fin 192 := 31
    let s := linkIn linkUp fun l => { l with gapSince := some 0 }
    let b := { (linkIn linkTraining id).setFld F.LNK_LINK_CFG_GROUPS 0 15 with ups := 77 }
    let f := whole 0 0 []
    let nak := whole 2 0 []
    let r := linkIn linkUp fun l => { l with replay := [resent6] }
    let on := s.setFld F.LNK_LINK_STATUS_LANES 0 128
    ((frameOk broken = false ∨ broken.kind.toNat ≠ 0) ∧ (frameOk f = false ∨ f.kind.toNat ≠ 3) ∧ b.linkOfLane l = some n.val) ∧
    (frameOk f = true ∧ f.kind = 0 ∧ (s.link n).queued = 0 ∧ (s.link n).auditDue = false ∧ frameOk nak = true ∧ nak.kind = 2) ∧
    ((∀ e : SentFrame, e ∈ (r.link n).replay.filter (fun e : SentFrame => decide (0 ≤ seqDiff e.seq nak.ack.toNat)) → e.resent < 7)) ∧
    ((s.link n).gapSince = some 0 ∧ (on.link n).gapSince = some 0 ∧ on.nextLane n = some 7) := by
  refine ⟨?_, ?_, ?_, ?_⟩ <;> decide +kernel

theorem test_witness_SequencedFrames :
    let n : Fin 24 := 0
    let s := upLink
    let q := linkIn linkUp id
    let f := whole 1 0 [7, 8]
    let g := whole 3 0 []
    let early := whole 1 0xFFFFFF [7]
    let late := whole 3 1 []
    let l := s.link n
    let m := q.link n
    (l.auditDue = false ∧ m.auditDue = false) ∧
    (frameOk f = true ∧ s.linkState n = linkUp ∧ l.queued = 0 ∧ f.kind = 1 ∧ seqDiff f.seq.toNat l.expect = 0 ∧ l.hold = [] ∧ f.eop = false ∧
  l.recv.get f.vc.toNat < l.granted.get f.vc.toNat + l.freed.get f.vc.toNat) ∧
    (frameOk g = true ∧ q.linkState n = linkUp ∧ m.queued = 0 ∧ g.kind = 3 ∧ seqDiff g.seq.toNat m.expect = 0 ∧ m.hold = [] ∧
  (∀ v, v < 4 → m.auditFails v (leAt g.payload (16 * v) 4) (leAt g.payload (16 * v + 4) 4) (leAt g.payload (16 * v + 8) 2) = [])) ∧
    (frameOk early = true ∧ early.kind = 1 ∧ seqDiff early.seq.toNat l.expect < 0 ∧ frameOk late = true ∧ late.kind = 3 ∧
  0 < seqDiff late.seq.toNat m.expect ∧ m.nakAt = none) := by
  refine ⟨?_, ?_, ?_, ?_⟩ <;> decide +kernel

theorem test_witness_LinkRetrains :
    let n : Fin 24 := 0
    let f := whole 7 0 []
    let s := linkIn linkUp id
    let again := glow (lit (linkIn linkRetraining fun l => { l with failures := 1, litAt := some 0 }))
    let third := glow (lit ((linkIn linkRetraining fun l => { l with failures := 2, litAt := some 0 }).setFld F.LNK_LINK_CAUSE_LAST 0 7))
    let slow := glow (lit (linkIn linkTraining fun l => { l with litAt := some 0 }))
    let cut := linkIn linkMiswired id
    let away := cut.setFld F.MSH_FLD_STATE_STATE 0 2
    (frameOk f = true ∧ f.kind = 7 ∧ (7 : Fin 8) ≠ 0 ∧ (7 : Fin 8) ≠ 6 ∧ s.linkState n = linkUp ∧ (s.link n).pathClosing = false ∧ s.linkFenced n = false) ∧
    (again.linkState n = linkRetraining ∧ again.litFor n (msec / 2) = true ∧ again.fld F.LNK_LINK_CAUSE_LAST n ≠ 7 ∧ (again.link n).failures < 2 ∧
  (again.link n).pathClosing = false ∧ again.linkFenced n = false) ∧
    (third.linkState n = linkRetraining ∧ third.litFor n (2 * msec) = true ∧ third.fld F.LNK_LINK_CAUSE_LAST n = 7 ∧
  2 ≤ (third.link n).failures) ∧
    (slow.linkState n = linkTraining ∧ slow.litFor n (10 * msec) = true ∧
  (∀ k ∈ slow.lanesOf n, slow.laneState k ≠ laneIdentified)) ∧
    (cut.mgmtOnly n = true ∧ cut.linkFenced n = false ∧
  away.mgmtOnly n = true ∧ away.linkFenced n = true ∧ s.mgmtOnly n = false ∧ cut.linkState n ≠ linkUp) := by
  refine ⟨?_, ?_, ?_, ?_, ?_⟩ <;> decide +kernel

theorem test_witness_LinkTraining :
    let l : Fin 192 := 0
    let n : Fin 24 := 0
    let power : BitVec 16 := 0xF830
    let dark := laneIn laneDark id
    let down := dark.setFld F.LNK_LINK_STATUS_STATE 0 linkDown
    let signal := lit (laneIn laneSignal fun x => { x with lightAt := some 0 })
    let worn := signal.setFld F.LNK_LANE_STATUS_RESTARTS 0 3
    let aimed := ((signal.setFld F.DCK_PATH_TYPE 479 1).setFld F.DCK_PATH_INPUT 479 0)
    let fec := laneIn laneFec fun x => { x with identCount := 3 }
    let other := lit (laneIn laneFec fun x => { x with ident := [1], fecAt := some 0 })
    let known := (laneIn laneIdentified fun x => { x with echoSent := some 0, echoes := 15 }).updLink 0 fun l => { l with granted := .all 3 }
    let f := whole 4 0 []
    let e := whole 5 0 []
    let cr := whole 6 0 []
    let c : FecCount := ⟨0, 5, 6, 7⟩
    let ready := ((laneIn laneIdentified fun x => { x with echoes := 16, delay := some 1101 }).updLink 0 fun l => { l with creditOut := true, creditIn := true }).setFld F.LNK_LANE_STATUS_STATE 7 laneIdentified
    let both := ready.updLane 7 fun x => { x with echoes := 16, delay := some 1000 }
    (dark.hasPath l = true ∧ -2000 ≤ power.toInt ∧ dark.laneState l = laneDark ∧ (dark.lane l).engineOut = false ∧ dark.laneFenced l = false ∧ dark.lasersDark = false ∧
  down.linkOfLane l = some n.val ∧ down.linkState n = linkDown ∧ down.linkFenced n = false ∧ down.hasPath l = true ∧ down.laneState l = laneDark ∧
  (down.lane l).engineOut = false ∧ down.laneFenced l = false ∧ down.lasersDark = false) ∧
    (c.lane = l ∧ signal.laneState l = laneSignal ∧ aimed.laneState l = laneSignal ∧ aimed.linkOfLane l = some n.val ∧ aimed.launchOf l = some 479) ∧
    (frameOk f = true ∧ fec.laneState l = laneFec ∧ fec.laneApart l = false ∧ f.kind = 4 ∧
  3 = (fec.lane l).identCount ∧ (fec.lane l).ident = f.payload ∧ fec.linkOfLane l = some n.val ∧ other.laneState l = laneFec ∧
  other.laneApart l = false ∧ (other.lane l).ident ≠ f.payload) ∧
    ((other.lane l).fecAt = some 0 ∧ 0 + msec ≤ other.up ∧
  other.fld F.LNK_LANE_STATUS_RESTARTS l < 3 ∧ (signal.lane l).lightAt = some 0 ∧ 0 + 10 * msec ≤ signal.up ∧
  signal.fld F.LNK_LANE_STATUS_RESTARTS l < 3 ∧ worn.laneState l = laneSignal ∧ (worn.lane l).lightAt = some 0 ∧ 0 + 10 * msec ≤ worn.up ∧
  worn.fld F.LNK_LANE_STATUS_RESTARTS l = 3 ∧ signal.laneState l ≠ laneDark ∧ signal.laneState l ≠ laneFailed ∧ l.val / 16 = (0 : Fin 12).val) ∧
    (known.linkOfLane l = some n.val ∧ frameOk e = true ∧ e.kind = 5 ∧ known.laneState l = laneIdentified ∧
  (known.lane l).echoSent = some (leAt e.payload 8 8) ∧ 15 ≤ (known.lane l).echoes ∧
  (known.linkState n = linkTraining ∨ known.linkState n = linkRetraining) ∧ frameOk cr = true ∧ cr.kind = 6 ∧ (known.link n).creditIn = false ∧
  (known.link n).replay = []) ∧
    ((ready.linkState n = linkTraining ∨ ready.linkState n = linkRetraining) ∧ (ready.link n).creditOut = true ∧ (ready.link n).creditIn = true ∧
  (0 ∈ ready.lanesOf n ∧ ready.laneReady 0 = true ∧ (ready.lane 0).delay.getD 0 ≤ ready.leastDelay n + 100)) ∧
    ((both.linkState n = linkTraining ∨ both.linkState n = linkRetraining) ∧ (both.link n).creditOut = true ∧ (both.link n).creditIn = true ∧
  (0 ∈ both.lanesOf n ∧ both.laneReady 0 = true ∧ both.leastDelay n + 100 < (both.lane 0).delay.getD 0)) := by
  refine ⟨?_, ?_, ?_, ?_, ?_, ?_, ?_⟩ <;> decide +kernel


/-! ## The deck -/

/-- A running deck with the path of output 5 from local input 10, in a state. -/
def pathIn (st : Nat) : State :=
  ((((State.reset.setFld F.SRV_STATUS_READY 0 1).setFld F.DCK_STATUS_STATE 0 1).setFld F.DCK_PATH_TYPE 5 4).setFld F.DCK_PATH_INPUT 5 10).setFld
    F.DCK_PATH_STATE 5 st

/-- The axes of that path settled. -/
def settledPath (st : Nat) : State :=
  ((((pathIn st).setFld F.SRV_AXIS_STATE 20 2).setFld F.SRV_AXIS_STATE 21 2).setFld F.SRV_AXIS_STATE 970 2).setFld F.SRV_AXIS_STATE 971 2

/-- The deck in a state. -/
def deckIn (st : Nat) : State := (pathIn 2).setFld F.DCK_STATUS_STATE 0 st

/-- A set of one entry that waits for its drain. -/
def waitingSet (e : Nat) : State :=
  { pathIn 2 with deck := { (pathIn 2).deck with set := some ⟨[e], 0, 0, [], false, false⟩ } }

/-- What is known of module 1: it is free, and its faces lie 5 ns away. -/
def facts1 : ModuleFacts :=
  { module := 1, valid := true, timed := true, fields := [0], slot := some 3, entry := some 2, entries := [], frames := 100
    faces := List.replicate 6 ⟨none, 5, 0xFFFF, 15, 0, [], 64⟩ }

/-- The plan that takes slice 1 from this module to module 1. -/
def spare1 : Spare :=
  { entry := 0, old := 0, new := 1, newEntry := 2, tables := [], position := (0, 0, 0), links := [], holders := []
    copy := ⟨0, 0, [0, 1], [], 1, 0, [0, 1], [], [⟨0, 0, rangeFrom 32 16⟩]⟩, cuts := [], delay := 0, stage := .saving }
theorem test_witness_DeckSets :
    let o : Fin 480 := 5
    let s := (pathIn 2).wr .DCK_CMD_BUF 0 5
    let bad := s.wr .DCK_CMD_BUF 0 511
    let c := waitingSet (5 + 11 * 2 ^ 9)
    let r := waitingSet (5 + 2 ^ 18)
    let cf := c.setFld F.SRV_AXIS_FAULT 970 5
    let m := settledPath 1
    ((cf.deck.set = some ⟨[5 + 11 * 2 ^ 9], 0, 0, [], false, false⟩ ∧ cf.setDrained ⟨[5 + 11 * 2 ^ 9], 0, 0, [], false, false⟩ = true ∧
  970 ∈ pathAxes (cf.physInput (entryIn (5 + 11 * 2 ^ 9))) (entryOut (5 + 11 * 2 ^ 9)) ∧ cf.fld F.SRV_AXIS_FAULT 970 = 5)) ∧
    ((s.setCode 0).1 ≠ 0 ∧ (bad.setCode 1).1 = 2 ∧ (s.setCode 1).1 = 0 ∧
  (∀ w ∈ [(c, 5 + 11 * 2 ^ 9), (r, 5 + 2 ^ 18)], ∃ d ∈ w.1.deck.set, d.begun = false ∧ d.unpark = false ∧ d.entries = [w.2] ∧
    (if d.startTick = 0 then w.1.setDrained d else w.1.passed d.startTick) = true) ∧
  c.deckState ≠ deckEmpty ∧ r.deckState ≠ deckEmpty ∧ cf.deckState ≠ deckEmpty ∧ entryOp (5 + 11 * 2 ^ 9) = 0 ∧ entryOp (5 + 2 ^ 18) = 1 ∧
  (∀ a ∈ pathAxes (c.physInput (entryIn (5 + 11 * 2 ^ 9))) 5, c.fld F.SRV_AXIS_FAULT a ≠ 1 ∧ c.fld F.SRV_AXIS_FAULT a ≠ 5) ∧
  m.fld F.DCK_PATH_STATE o = 1 ∧ (∀ a ∈ m.axesOfPath o, m.axisState a = axisSettled)) := by
  refine ⟨?_, ?_⟩ <;> decide +kernel

theorem test_witness_DeckParks :
    let s := (deckIn 1).setFld F.LNK_LINK_CFG_ENABLE 0 1
    let p := { s with deck := { s.deck with parkAt := some 0 }, axes := [(20, { Axis.init with loop := true, goal := 7 })] }
    let g := deckIn 3
    let d := deckIn 4
    let busy : State := { d with cal := { d.cal with run := some ⟨[2], false, true⟩ } }
    s.deckState ≠ deckParking ∧ s.deckState ≠ deckParked ∧ s.deck.parkAt = none ∧ p.deck.parkAt = some 0 ∧
  p.flag F.DCK_CMD_CTRL_BUSY = false ∧ (∀ n ∈ p.enabledLinks, p.linkDrained n 0 = true) ∧ g.deckState = deckParking ∧
  (∀ a ∈ g.axes, a.2.rests = true) ∧ d.deckState = deckParked ∧ d.deckCalRun = false ∧ busy.deckCalRun = true ∧ (0xD5 : BitVec 8) ≠ 0 ∧ s.domains.deck = true := by
  decide +kernel

theorem test_witness_ServoFaults :
    let a : Fin 1920 := 20
    let s := pathIn 2
    let d := s.setFld F.DCK_STATUS_DETACHED 0 1
    let m := (settledPath 2).updAxis 20 fun x => { x with away := 4 }
    let bad : State := (settledPath 2).updAxis 20 fun x => { x with bad := 4 }
    let w : State := { s with deck := { s.deck with supplyBad := 4 } }
    let r : State := { s.setFld F.SRV_STATUS_SUPPLY 0 2 with deck := { s.deck with supplyGood := 1024 } }
    let c := s.setFld F.SRV_AXIS_FAULT 20 1
    let early := m.setFld F.DCK_PATH_STATE 5 1
    let alone := { bad with regs := (bad.setFld F.DCK_PATH_TYPE 5 0).regs }
    (early.pathOfAxis a = some 5 ∧ early.axisState a = axisSettled ∧ 4 ≤ (early.axis a).away ∧ early.fld F.DCK_PATH_STATE 5 ≠ 2) ∧
  (alone.pathOfAxis a = none ∧ alone.servoCondition a 1 = true ∧ (alone.axis a).rests = true) ∧ s.flag F.DCK_STATUS_DETACHED = false ∧ d.flag F.DCK_STATUS_DETACHED = true ∧ d.deck.realign = 0 ∧ m.pathOfAxis a = some 5 ∧
  m.axisState a = axisSettled ∧ 4 ≤ (m.axis a).away ∧ m.fld F.DCK_PATH_STATE 5 = 2 ∧ bad.pathOfAxis a = some 5 ∧
  bad.servoCondition a 1 = true ∧ w.servoCondition a 6 = true ∧ r.fld F.SRV_STATUS_SUPPLY = 2 ∧ 1024 ≤ r.deck.supplyGood ∧
  c.fld F.SRV_AXIS_FAULT a = 1 ∧ (c.axis a).rests = true ∧ s.fld F.SRV_AXIS_FAULT a ≠ 1 ∧ s.fld F.SRV_AXIS_FAULT a ≠ 5 := by
  decide +kernel

theorem test_witness_Commits :
    let e : Fin 64 := 0
    let s : State := { served1.setFld F.RTE_SLICE_ARMED 0 1 with nextDelays := [(0, some 9)], staged := [(regKey .RTE_SLICE_HOP 0, some 5)] }
    let departing : BitVec 14 := 0
    let spare : BitVec 14 := 1
    let p := served1.setFld F.RTE_MACHINE_DIM_X 0 2
    let x := spare1
    let at_ (st : SpareStage) : State := { p with spares := [{ x with stage := st }] }
    let gone (st : SpareStage) : State := { (at_ st).setFld F.SEQ_SLOT_CFG_ACTIVE 0 0 with jobs := [{ job1 with state := .preempted, cause := ⟨0x65, 0⟩ }], saved := [saved1] }
    let told : State := { (gone .linking) with spares := [{ spare1 with stage := .linking, old := 5 }] }
    let l := withJob id
    (served1.flag F.RTE_SLICE_ACTIVE e = true ∧ State.reset.flag F.RTE_SLICE_ACTIVE e = false ∧ served1.passed 0 = true ∧
  served1.passed 5 = false) ∧
    (s.atTick = true ∧ s.flag F.RTE_SLICE_ARMED e = true ∧ s.passed (s.rd .RTE_SLICE_COMMIT e) = true ∧
  (Reg.RTE_SLICE_HOP, e.val) ∈ stagedKeys e ∧ mapGet (fun _ => none) s.staged (regKey .RTE_SLICE_HOP e) = some 5 ∧
  (Reg.RTE_SLICE_BOX, e.val) ∈ stagedKeys e ∧ mapGet (fun _ => none) s.staged (regKey .RTE_SLICE_BOX e) = none ∧
  mapGet (fun _ => 0) s.epochTick e.val ≠ s.ticks + 1) ∧
    (State.reset.flag F.RTE_SLICE_ARMED e = false) ∧
    (p.flag F.RTE_SLICE_ACTIVE e = true ∧ (p.spares.find? fun x => x.entry == e.val && x.old == departing.toNat) = none ∧
  p.slotOfSlice (p.fld F.RTE_SLICE_SLICE_ID e) = some 0 ∧ (p.slot 0).phase = .placed ∧ p.flag F.SEQ_SLOT_CFG_ACTIVE 0 = true ∧
  (p.slot 0).requests = []) ∧
    ((p.sparePlan e departing.toNat spare.toNat [facts1]).toOption = some x ∧
  (p.sparePlan e departing.toNat spare.toNat []).toOption = none) ∧
    (((at_ .saving).spares.find? fun x => x.entry == e.val && x.old == departing.toNat) = some x ∧ x.stage = .saving ∧
  (at_ .saving).flag F.RTE_SLICE_ACTIVE e = true) ∧
    (((gone .linking).spares.find? fun x => x.entry == e.val && x.old == departing.toNat) = some { x with stage := .linking } ∧
  (gone .linking).slotOfSlice ((gone .linking).fld F.RTE_SLICE_SLICE_ID e) = none ∧ (gone .linking).flag F.RTE_SLICE_ACTIVE e = true ∧
  x.old = (gone .linking).selfId ∧ (gone .linking).savedOf ((gone .linking).fld F.RTE_SLICE_SLICE_ID e) = some saved1 ∧
  (told.spares.find? fun x => x.entry == e.val && x.old == (5 : BitVec 14).toNat) = some { x with stage := .linking, old := 5 } ∧
  told.slotOfSlice (told.fld F.RTE_SLICE_SLICE_ID e) = none ∧ 5 ≠ told.selfId) ∧
    (((gone .copied).spares.find? fun x => x.entry == e.val && x.old == departing.toNat) = some { x with stage := .copied } ∧
  (gone .copied).passed 5 = false ∧ ((gone .copied).substOf e x.old x.new).isSome = true ∧ (gone .copied).flag F.RTE_SLICE_ACTIVE e = true ∧
  (∃ j ∈ (gone .copied).jobs, j.slice = (gone .copied).fld F.RTE_SLICE_SLICE_ID e ∧ j.state = .preempted ∧ j.cause.code = 0x65)) ∧
    ((∃ x ∈ l.jobs.find? (fun x : Job => x.slice == l.fld F.RTE_SLICE_SLICE_ID e), x.stopping = none) ∧ l.flag F.RTE_SLICE_ACTIVE e = true) := by
  refine ⟨?_, ?_, ?_, ?_, ?_, ?_, ?_, ?_, ?_⟩ <;> decide +kernel


/-! ## Machine time and domains -/

/-- Machine time follows the links; its parent is behind link slot 0. -/
def follower : State := (State.reset.setFld F.TIM_CTRL_SOURCE 0 0).setFld F.TIM_STATUS_PARENT_VALID 0 1

/-- A change of period is pending, and its tick has come. -/
def changing : State := { State.reset with time := { State.reset.time with change := some (0, 9000) } }

/-- A queue of stamps with n entries. -/
def stamps (n : Nat) : State :=
  let s := State.reset.setFld F.TIM_PTP_CTRL_EN0 0 1
  { s with time := { s.time with tsq0 := List.replicate n ⟨1, 0, 2⟩ } }

/-- The wafer is hot. -/
def hot : State := { served1 with domains := { Domains.init with hot110 := 4 } }

/-- A thermal shutdown has switched the wafer off. -/
def shut : State := later { State.reset with domains := { Domains.init with wafer := false, shutAt := some 0 } }

/-- A wafer that comes up whole. -/
def wafer1 : WaferStart := ⟨[3], [], 0⟩
theorem test_witness_TimeOverLinks :
    let n : Fin 24 := 0
    let s : State := { follower with time := { follower.time with asked := some (1000, 0) } }
    let l : State := { follower with time := { follower.time with asked := some (1000, 0) }, now := 5 }
    let m : State := l.wr .FTK_TICKS 0 16
    let h : State := later (follower.setFld F.TIM_STATUS_STATE 0 3)
    (∃ q ∈ s.time.asked, q.1 = (1000 : BitVec 64).toNat) ∧ s.fld F.TIM_STATUS_PARENT = n ∧ s.followsLinks = true ∧
  follower.ticks % 16 = 0 ∧ follower.followsLinks = true ∧ follower.flag F.TIM_STATUS_PARENT_VALID = true ∧ follower.time.asked = none ∧
  (∃ q ∈ m.time.asked, q.2 + 16 ≤ m.ticks) ∧ h.timeState = timeHoldover ∧ h.time.heldAt + 2 * second ≤ h.up := by
  decide +kernel

theorem test_witness_HarnessPeriodsStamps :
    let s := State.reset.setFld F.TIM_CTRL_SOURCE 0 1
    let edge : BitVec 64 := 65536
    let q := changing
    let away := changing.setFld F.DCK_STATUS_DETACHED 0 1
    let v := stamps 63
    let w := stamps 64
    let armed : State := ((s.setFld F.TIM_HRN_ARM_ARMED 0 1).wr .TIM_HRN_TIME 0 123456789).wr .TIM_HRN_TICK 0 2048
    let late : State := { changing with time := { changing.time with change := some (9000 * ns, 9000) } }
    let ptp : State := { v with time := { v.time with ptpIn := some ⟨0, 1000, some 900⟩ } }
    let p : State := (State.reset.setFld F.DCK_STATUS_STATE 0 4).wr .FTK_CHANGE_AT 0 (24000 * 65536)
    (q.flag F.DCK_STATUS_DETACHED = false ∧ away.flag F.DCK_STATUS_DETACHED = true ∧ away.time.change = some (0, 9000) ∧ away.passed 0 = true) ∧
  s.fld F.TIM_CTRL_SOURCE = 1 ∧ s.time.mismatch < 3 ∧
  (timeDiff (s.nearestTick ((edge.toNat + 2 ^ 64 - s.fld F.TIM_HRN_CFG_DELAY * ns / 10) % 2 ^ 64))
    ((edge.toNat + 2 ^ 64 - s.fld F.TIM_HRN_CFG_DELAY * ns / 10) % 2 ^ 64)).natAbs ≤ 20 * ns ∧
  s.rd .TIM_HRN_TICK % 1024 = 0 ∧ (s.wr .TIM_HRN_TICK 0 1023).rd .TIM_HRN_TICK % 1024 ≠ 0 ∧ p.periodCheck 4000 = 0 ∧ p.periodCheck 3999 ≠ 0 ∧
  armed.fld F.TIM_CTRL_SOURCE = 1 ∧ armed.flag F.TIM_HRN_ARM_ARMED = true ∧ late.time.change = some (9000 * ns, 9000) ∧
  (late.period * ns : Nat) ≤ timeDiff (9000 * ns) late.now ∧ timeDiff 0 q.now < (q.period * ns : Nat) ∧ State.reset.time.change = none ∧
  ptp.flag F.TIM_PTP_CTRL_EN0 = true ∧ ptp.time.ptpIn = some ⟨0, 1000, some 900⟩ ∧ q.time.change = some (0, 9000) ∧ q.passed 0 = true ∧ 9000 < 65536 ∧ 0 < 2 ^ 64 ∧ v.flag F.TIM_PTP_CTRL_EN0 = true ∧
  (v.time.tsq 0).length < 64 ∧ w.flag F.TIM_PTP_CTRL_EN0 = true ∧ 64 ≤ (w.time.tsq 0).length := by
  decide +kernel

theorem test_witness_DomainsAndPorts :
    let s := withJob id
    let h : State := { State.reset with domains := { Domains.init with resetHeld := true, booting := true, wafer := false } }
    let x := later State.reset
    let u := hot
    let o : State := { shut with ups := 60 * second }
    let b : PowerIn := ⟨0, 540, 0, 2500000, wafer1, true, true⟩
    s.domains.control = true ∧ h.domains.control = true ∧ h.domains.resetHeld = true ∧ s.booted = true ∧ s.domains.shutAt = none ∧
  (x.domains.port .deck).heardAt + 40000 * ns ≤ x.up ∧ u.domains.wafer = true ∧ 4 ≤ u.domains.hot110 ∧ o.domains.shutAt = some 0 ∧
  o.booted = true ∧ o.domains.keepOff = false ∧ 0 + 60 * second ≤ o.up ∧ (84 : BitVec 8).toNat < 85 ∧
  (feedGood b.voltsA || feedGood b.voltsB) = true := by
  decide +kernel


/-! ## Connections -/

/-- Connection 0 in a state, and what it holds. -/
def connIn (st : Nat) (g : Conn → Conn) : State :=
  ((served1.setFld F.FEI_CONN_CFG_STATE 0 st).setFld F.FEI_CONN_CFG_TIMEOUT 0 1).updConn 0 g

/-- An open connection with jobs. -/
def connJobs (js : List Job) (ws : List Nat) : State := { connIn 1 fun c => { c with taken := [ws] } with jobs := js }

/-- The image of a job with one schedule entry lies in frame 1. -/
def image1 : Memory := served1.mem.writeLines (2 ^ 21) 8 (toBytes 512 (header1 + (8 * 2 ^ 128 + 2 ^ 192) * 2 ^ 2816)) 0

/-- An idle job on that image, and a state that holds it. -/
def idleJob : Job := { job1 with state := .idle, imageFrames := [1] }
def withImage (ws : List Nat) : State := { connJobs [idleJob] ws with mem := image1 }

/-- Both feeds are good. -/
def fed (s : State) : State := ((s.setFld F.PWR_STATUS_FEED_A 0 1).setFld F.PWR_STATUS_FEED_B 0 1).setFld F.PWR_FRAME_T 0 0xFFFFF

/-- A STATUS whose answer is outstanding. -/
def statusOut : State :=
  { connIn 1 fun c => { c with reqs := [⟨5, 0, 1, .status 7, .write 0 9 []⟩] } with ups := second, works := [⟨7, 0, 1, 5, 9, [5 + 2 ^ 16, 9], [], true⟩], jobs := [job1] }
theorem test_witness_Connections :
    let n : Fin 1024 := 0
    let s := connIn 0 id
    let bad := s.setFld F.FEI_CONN_CFG_TIMEOUT 0 0
    let o := connIn 1 id
    let b := connJobs [job1] []
    let e := connIn 2 id
    let kept := connIn 2 fun c => { c with again := [⟨5, 0, 1, .completion, .write 3 64 [7]⟩, ⟨6, 0, 1, .notify, .notify 9⟩] }
    let k := statusOut
    let r := k.setFld F.FEI_CONN_CFG_RETRY 0 1
    let ready := r.updConn 0 fun c => { c with retries := ⟨1, 1, 0⟩ }
    let v := s.setFld F.FEI_PORT_IP_V4_EN 1 1
    let six := s.setFld F.FEI_PORT_IP_V6_EN 0 1
    (s.connState n = connClosed ∧ s.connBad n = false ∧ bad.connState n = connClosed ∧ bad.connBad n = true ∧ b.connState n ≠ connClosed ∧
  b.connBound n = true ∧ o.connState n ≠ connClosed ∧ o.connBound n = false ∧ e.connState n = connError ∧ o.connUp n = true ∧
  k.connUp n = true ∧ (∃ x ∈ (k.conn n).reqs, (k.conn n).reqs = [x] ∧ x.ackedBy 5 = true ∧ x.use = .status 7) ∧
  (∃ w ∈ k.work 7, w.conn = 0) ∧ kept.connState n = connError ∧ (kept.conn n).again ≠ [] ∧ (e.conn n).again = [] ∧ s.connUp n = false ∧
  (∀ s ∈ [r, k, ready], ∃ x ∈ (s.conn n).reqs, (s.conn n).reqs = x :: [] ∧ x.sentAt + s.ackLimit n ≤ s.up)) ∧
    (r.connUp n = true ∧
  (∀ k ∈ [RetryKind.timeout, .sequence, .notReady], (r.conn n).retries.get k < r.fld F.FEI_CONN_CFG_RETRY n)) ∧
    (syndromeRetry 0x60 = some .sequence ∧ syndromeRetry 0x20 = some .notReady ∧ syndromeRetry 0x3F = some .notReady ∧ syndromeRetry 0x1F = none ∧
  syndromeRetry 0x40 = none ∧ syndromeRetry 0x61 = none) ∧
    (k.fld F.FEI_CONN_CFG_RETRY n ≤ (k.conn n).retries.get .timeout ∧
  k.connUp n = true ∧ ready.connUp n = true ∧ ready.fld F.FEI_CONN_CFG_RETRY n ≤ (ready.conn n).retries.get .timeout ∧
  (ready.conn n).retries.get .notReady < ready.fld F.FEI_CONN_CFG_RETRY n) ∧
    (six.flag F.FEI_PORT_IP_V6_EN (0 : Fin 2) = true ∧ six.fld F.FEI_PORT_IP_IPV6 (0 : Fin 2) = (0 : BitVec 128).toNat ∧
  v.flag F.FEI_PORT_IP_V4_EN (1 : Fin 2) = true ∧
  v.fld F.FEI_PORT_IP_IPV4 (1 : Fin 2) = (0 : BitVec 32).toNat ∧ v.fld F.FEI_PORT_IP_IPV4 (1 : Fin 2) ≠ (1 : BitVec 32).toNat) := by
  refine ⟨?_, ?_, ?_, ?_, ?_⟩ <;> decide +kernel

theorem test_witness_Rings :
    let n : Fin 1024 := 0
    let s := (connIn 1 id).setFld F.FEI_CONN_IDX_CQ_PROD 0 64
    let c : Cpl := ⟨1, 2, 3, 0, 0, some 4, 5, 6⟩
    let w := connIn 1 fun v => { v with waiting := [c] }
    let r := (connIn 1 id).setFld F.FEI_CONN_IDX_SQ_PROD 0 3
    let shut := connIn 0 id
    (shut.connState n = connClosed) ∧
    (0 < ([0, 1, 2] : List (BitVec 512)).length) ∧
    (s.connState n ≠ connClosed ∧ (64 : BitVec 32).toNat < 2 ^ 16 ∧
  ((64 : BitVec 32).toNat % 65536 + 65536 - s.fld F.FEI_CONN_IDX_SQ_CONS n) % 65536 ≤ 2 ^ (s.fld F.FEI_CONN_SQ_LOG2N n + 6) ∧
  ((64 : BitVec 32).toNat % 65536 + 65536 - s.fld F.FEI_CONN_IDX_SQ_PROD n) % 65536 < 32768 ∧
  2 ^ 16 ≤ (65600 : BitVec 32).toNat ∧ (65600 : BitVec 32).toNat < 2 ^ 17 ∧
  (s.fld F.FEI_CONN_IDX_CQ_PROD n + 65536 - (65600 : BitVec 32).toNat % 65536) % 65536 ≤ 2 ^ (s.fld F.FEI_CONN_CQ_LOG2N n + 6) ∧
  ((65600 : BitVec 32).toNat % 65536 + 65536 - s.fld F.FEI_CONN_IDX_CQ_CONS n) % 65536 < 32768 ∧
  2 ^ 17 ≤ (131072 : BitVec 32).toNat ∧ (32768 : BitVec 32).toNat < 2 ^ 16 ∧
  32768 ≤ ((32768 : BitVec 32).toNat % 65536 + 65536 - s.fld F.FEI_CONN_IDX_SQ_PROD n) % 65536 ∧
  r.connUp n = true ∧ ([0, 1, 2] : List (BitVec 512)).length ≤ 32 ∧
  ([0, 1, 2] : List (BitVec 512)).length ≤ ringDiff (r.fld F.FEI_CONN_IDX_SQ_PROD n) (r.fld F.FEI_CONN_IDX_SQ_CONS n) ∧
  r.fld F.FEI_CONN_IDX_SQ_CONS n % r.sqSize n + ([0, 1, 2] : List (BitVec 512)).length ≤ r.sqSize n ∧
  r.cqUsed n + r.cqPromised n + 8 + ([0, 1, 2] : List (BitVec 512)).length ≤ r.cqSize n ∧ w.connUp n = true ∧
  (w.conn n).waiting = [c] ∧ w.cqUsed n + (if c.opcode = 0xF then w.cqPromised n else 0) < w.cqSize n) := by
  refine ⟨?_, ?_, ?_⟩ <;> decide +kernel

theorem test_witness_Descriptors :
    let n : Fin 1024 := 0
    let nop := [0, 9, 0, 0, 0, 0, 0, 0]
    let bad := [32, 9, 0, 0, 0, 0, 0, 0]
    let orphan := [5 + 99 * 2 ^ 16, 9, 0, 64, 0, 0, 0, 0]
    let load := [1, 9, 2 ^ 21, 4096 * 2 ^ 32, 2 ^ 17 + 2 ^ 27, 0, 2 ^ 64 - 1, 2 ^ 48 - 1]
    let run := [2 + 2 ^ 16, 9, 2 ^ 16, 0, 0, 0, 0, 0]
    let copy := [3 + 2 ^ 16, 9, 0, 0xFFFF * 2 ^ 32, 0, 64, 0, 0]
    let out := [4 + 2 ^ 16, 9, 0, 0xFFFF * 2 ^ 32, 0, 64, 0, 0]
    let status := [5 + 2 ^ 16, 9, 0, 64, 0, 0, 0, 0]
    let stop := [6 + 2 ^ 16, 9, 0, 0, 0, 0, 0, 0]
    let release := [7 + 2 ^ 16, 9, 0, 0, 0, 0, 0, 0]
    let resume := [8 + 2 ^ 16, 9, 0, 0, 0, 0, 0, 0]
    let held : Job := { job1 with state := .preempted, cause := ⟨0x61, 0⟩, placed := false }
    (NextIs n 0 nop (connJobs [] nop) ∧ (connJobs [] bad).nextDesc n = some bad ∧ descBad bad = true ∧ NextIs n 5 orphan (connJobs [] orphan) ∧
  (connJobs [] orphan).job (dJob orphan) = none ∧ (connJobs [] orphan).connUp n = true ∧ NextIs n 1 load (connJobs [] load) ∧
  (connJobs [] load).loadCheck load = 0 ∧ (connJobs (List.replicate 256 job1) load).loadCheck load ≠ 0 ) ∧
    (NextIs n 2 run (withImage run) ∧
  (withImage run).job (dJob run) = some idleJob ∧ idleJob.conns.contains n.val = true ∧ idleJob.state = .idle ∧ idleJob.run = none ∧
  (∀ w ∈ (withImage run).works, w.job = idleJob.ident → w.opcode ≠ 2) ∧ bits (dw run 2) 16 16 ≠ 0 ∧
  bits (dw run 2) 0 16 + bits (dw run 2) 16 16 ≤ (withImage run).scheduleLen idleJob ∧
  NextIs n 3 copy (withImage copy) ∧ copyCheck (withImage copy) idleJob copy = 0 ∧ NextIs n 4 out (withImage out) ∧
  copyCheck (withImage out) idleJob out = 0 ∧ NextIs n 5 status (withImage status) ∧ (withImage status).connUp n = true ) ∧
    (NextIs n 6 stop (withImage stop) ∧ idleJob.state ≠ .stopped ∧ idleJob.stopping = none ∧ NextIs n 7 release (withImage release) ∧
  NextIs n 8 resume (connJobs [held] resume) ∧ (connJobs [held] resume).job (dJob resume) = some held ∧ held.conns.contains n.val = true ∧
  held.state = .preempted ∧ held.cause.code = 0x61) := by
  simp only [NextIs]; refine ⟨?_, ?_, ?_⟩ <;> decide +kernel

theorem test_witness_JobCommands :
    let i : BitVec 16 := 1
    let queued : Job := { job1 with state := .queued, placed := false, slice := 0, waitMs := 1 }
    let wait : State := { later { connIn 1 id with jobs := [queued] } with works := [⟨7, 0, 1, 1, 9, [1, 9], [], true⟩] }
    let loading : State := { withJob fun j => { j with state := .loading, stage := .programs } with works := [⟨7, 0, 1, 1, 9, [1, 9], [], true⟩] }
    let wrong := loading.setFld F.SEQ_FLD_LOAD_ERROR 0 1
    let run := withJob id
    let stop : State := { withJob fun j => { j with state := .stopped } with ups := 700 * second }
    let held := withJob fun j => { j with state := .preempted, cause := ⟨0x61, 0⟩, placed := false, resumeOk := true }
    let saved : State := { fed held with saved := [saved1] }
    let free := fed State.reset
    let slow : State := { free with jobs := [{ queued with fields := 57 }] }
    let place : State := { free with jobs := [queued] }
    let refuse : State := { free with jobs := [{ queued with fields := 57, waitMs := 0 }], works := [⟨7, 0, 1, 1, 9, [1, 9], [], true⟩] }
    let copied : State := { free with jobs := [{ job1 with state := .stopped, placed := false }], works := [⟨8, 0, 1, 4, 9, [4 + 2 ^ 16, 9], [], false⟩] }
    let visitor : State := { fed served1 with saved := [saved1], regs := ((fed served1).setFld F.RTE_FLD_OWNER_VALID 0 0).regs }
    let p : Placing := ⟨1, 2, 1, 1, [1], 0, []⟩
    let pv : Placing := ⟨1, 1, 55, 1, [1], 0, []⟩
    let low : Job := { job1 with ident := 2, prio := 1, owned := (List.range 56) }
    let give : State := { withJob fun _ => { queued with reason := 1, prio := 5 } with jobs := [{ queued with reason := 1, prio := 5, fields := 56 }, low], slots := (slotWith served1 fun v => { v with phase := .placed }).slots, ups := 3600 * second }
    (pv.job = i ∧ visitor.job i.toNat = none ∧ visitor.mayPlace = true ∧ visitor.jobs = [] ∧ visitor.savedOf pv.slice.toNat = some saved1 ∧
  visitor.entryOf pv.slice.toNat = some 0 ∧ pv.fields.length = saved1.fields.length ∧ visitor.memberCount 0 ≤ 1 ∧
  (pv.fields.map (·.val)).Nodup ∧ (∀ f ∈ pv.fields, f.val ∈ visitor.freeFields) ∧ visitor.slotFree pv.slot = true) ∧
    ((∃ j ∈ copied.job i.toNat, j.state = .stopped ∧ copied.mayPlace = true ∧ copied.waits j = true ∧ copied.placeReason j p = 0 ∧
    copied.placingOk j p = true) ∧ (∀ k ∈ copied.jobs, ∀ j ∈ copied.job i.toNat, copied.waits k = true → k.before j = true → k.tried = true)) ∧
    ((∃ j ∈ refuse.job i.toNat, refuse.mayPlace = true ∧ refuse.waits j = true ∧ refuse.placeReason j p = 1 ∧ j.state = .queued ∧ j.waitMs = 0 ∧
    j.placed = false ∧ j.slice = 0 ∧ j.undo = [] ∧ (refuse.loadWork j.ident).isSome = true) ∧
  (∀ k ∈ refuse.jobs, ∀ j ∈ refuse.job i.toNat, refuse.waits k = true → k.before j = true → k.tried = true)) ∧
    ((∃ j ∈ place.job i.toNat, j.state = .queued ∧ j.frames + j.imageCount < 2 ^ 21 ∧
    ∀ q, q < 64 → place.flag F.LPD_QUOTA_ACTIVE q = true → q ≠ p.entry.val → place.fld F.LPD_QUOTA_SLICE_ID q ≠ p.slice.toNat)) ∧
    (State.reset.job i.toNat = none ∧ wait.job i.toNat = some queued ∧ queued.state = .queued ∧ queued.waitMs ≠ 0 ∧ queued.waitMs * 1000000 ≤ wait.since queued.loadTick ∧
  queued.placed = false ∧ queued.slice = 0 ∧ queued.undo = [] ∧ (∃ w ∈ wait.loadWork queued.ident, w.conn = 0) ∧
  (∃ j ∈ loading.job i.toNat, j.state = .loading ∧ j.stage = .programs ∧ (loading.loadWork j.ident).isSome = true ∧
    (∀ f ∈ j.owned, loading.flag F.SEQ_FLD_LOAD_BUSY f = false) ∧ (∀ f ∈ j.owned, loading.fld F.SEQ_FLD_LOAD_ERROR f = 0)) ∧
  (∃ j ∈ wrong.job i.toNat, j.state = .loading ∧ j.stage = .programs ∧ (wrong.loadWork j.ident).isSome = true ∧
    (∀ f ∈ j.owned, wrong.flag F.SEQ_FLD_LOAD_BUSY f = false) ∧ (∃ f ∈ j.owned, wrong.fld F.SEQ_FLD_LOAD_ERROR f ≠ 0) ∧ (wrong.cancelMovers j.slot).moversDrained j.slot = true) ) ∧
    ((∃ j ∈ run.job i.toNat, j.state ≠ .stopped ∧ j.stopping = none ∧ ¬(j.state = .preempted ∧ j.cause.code = 0x61)) ∧
  (∃ j ∈ stop.job i.toNat, j.state = .stopped ∧ stop.fld F.JOB_CFG_LINGER_S * 1000000000 ≤ stop.since j.stopTick) ∧
  stop.fld F.JOB_CFG_LINGER_S ≠ 0 ∧ (∃ j ∈ held.job i.toNat, j.state = .preempted ∧ j.cause.code = 0x61) ∧ p.job = i ) ∧
    ((∃ j ∈ slow.job i.toNat, slow.mayPlace = true ∧ slow.waits j = true ∧ slow.placeReason j p = 1 ∧
    ¬(j.state = .queued ∧ (1 = reasonShape ∨ 1 = reasonReach ∨ 1 = reasonVote ∨ j.waitMs = 0))) ∧
  (∀ k ∈ slow.jobs, ∀ j ∈ slow.job i.toNat, slow.waits k = true → k.before j = true → k.tried = true) ∧
  (∃ j ∈ place.job i.toNat, place.mayPlace = true ∧ place.waits j = true ∧ place.placeReason j p = 0 ∧ place.placingOk j p = true) ∧
  (∀ k ∈ place.jobs, ∀ j ∈ place.job i.toNat, place.waits k = true → k.before j = true → k.tried = true) ) ∧
    ((∃ j ∈ saved.job i.toNat, saved.mayPlace = true ∧ saved.waits j = true ∧ saved.placeReason j p = 0 ∧ saved.placingOk j p = true ∧
    saved.savedOf j.slice = some saved1) ∧
  (∀ k ∈ saved.jobs, ∀ j ∈ saved.job i.toNat, saved.waits k = true → k.before j = true → k.tried = true) ∧
  (∃ j ∈ give.job i.toNat, give.waits j = true ∧ j.reason = 1 ∧ give.preemptHelps j = true ∧ give.jobs.filter (give.mayPreempt j.prio) = [low] ∧
    give.freeFields.length + (((List.range 56).filter give.leaving).map fun n => (give.fieldsOf n).length).sum < j.needs ∧
    j.needs ≤ give.freeFields.length + (((List.range 56).filter give.leaving).map fun n => (give.fieldsOf n).length).sum + low.owned.length) ∧ give.flag F.SEQ_SLOT_CFG_ACTIVE low.slot = true) := by
  refine ⟨?_, ?_, ?_, ?_, ?_, ?_, ?_, ?_⟩ <;> decide +kernel


/-! ## Integrity, power, calibration and metering -/

/-- The block measures λ above the limit, with a budget, in the 60th second of it; only field 0 is in service. -/
def overBudget : State :=
  let only := (List.range 55).foldl (fun s f => s.setFld F.MSH_FLD_STATE_STATE (f + 1) 1) (State.reset.setFld F.INT_SAMPLE_S_MAX 0 1000)
  let s := ((only.setFld F.INT_MODE_GOAL 0 1).setFld F.INT_RATE_BASE 0 1000000).setFld F.INT_BUDGET_LIMIT 0 0
  { s with now := 100 * second, integ := { s.integ with past := 59 } }

/-- Position 3 of column 0 of field 1, with something in it, in a module whose scan library is loaded. -/
def posIn (x : Position) : State :=
  (later (served1.setFld F.INT_LIB_STATE 0 1)).updPosition 1 0 3 fun _ => x

/-- The spare of column 0 of field 1 has just become it. -/
def posFresh : State := (posIn Position.init).updPosition 1 0 15 fun x => { x with fresh := true }

/-- Position 3 of column 0 of field 0, which slot 0 serves, is past its deferral. -/
def deferred : State :=
  { (slotWith served1 fun v => { v with phase := .placed }).updPosition 0 0 3 fun x => { x with dueAt := some 0 } with ups := 10000 * 60 * minute }

/-- Both feeds are good. -/
def feeds : State := (State.reset.setFld F.PWR_STATUS_FEED_A 0 1).setFld F.PWR_STATUS_FEED_B 0 1

/-- A run of group 2 goes on, and a fuse slot holds trims of zero. -/
def calibrating : State :=
  let s := State.reset.setFld F.CAL_STATUS_BUSY 0 1
  { s with cal := { s.cal with run := some ⟨[2], false, true⟩, slots := [⟨0, [], 0⟩], old := 1 } }

/-- The CRC of zeros is zero. -/
theorem crc_zeros (bs : List Byte) (h : ∀ b ∈ bs, b = 0#8) : crc64 bs = 0 := by
  induction bs with
  | nil => rfl
  | cons b bs ih =>
    have hb := h b List.mem_cons_self
    subst hb
    exact ih fun x hx => h x (List.mem_cons_of_mem _ hx)

/-- So a slot of zeros is valid. -/
theorem zero_slot : CalSlot.valid ⟨0, [], 0⟩ = true := by
  have h : crc64 (CalSlot.bytes ⟨0, [], 0⟩) = 0 := crc_zeros _ fun b hb => by
    have h8 : ∀ b ∈ toBytes 8 0, b = 0#8 := by decide
    have h3 : ∀ b ∈ toBytes 3 0, b = 0#8 := by decide
    simp only [CalSlot.bytes, List.mem_append, List.mem_flatten, List.mem_map] at hb
    obtain hb | ⟨_, ⟨_, _, rfl⟩, hb⟩ := hb
    · exact h8 b hb
    · exact h3 b hb
  rw [CalSlot.valid, h]
  rfl

/-- Readings of zero keep codes of zero, which lie within the limits of group 2. -/
theorem judged_zero (k : Nat) (h : k < 960) :
    ∃ v, calibrating.measured (2 : Fin 4) k (List.replicate 960 (0 : BitVec 20)) = some v ∧
      judgeDac (2 : Fin 4) v (calibrating.cal.lastGood ((trimRange (2 : Fin 4)).1 + k)) = 0 := by
  have hm : ∀ k < 960, calibrating.measured (2 : Fin 4) k (List.replicate 960 (0 : BitVec 20)) = some 0 := by decide +kernel
  have hs : calibrating.cal.source = some (⟨0, [], 0⟩, 1) := by
    have h : calibrating.cal.numbered.take calibrating.cal.old = [(⟨0, [], 0⟩, 1)] := by decide +kernel
    rw [Cal.source, h, newestSlot, newestSlot, zero_slot]
    rfl
  have hg : ∀ i, calibrating.cal.lastGood i = 0 := fun i => by
    rw [Cal.lastGood, hs]
    rfl
  exact ⟨0, hm k h, by rw [hg]; decide +kernel⟩

/-- Every group has passed. -/
def passedAll : State :=
  (((State.reset.setFld F.CAL_GROUP_STATE 0 1).setFld F.CAL_GROUP_STATE 1 1).setFld F.CAL_GROUP_STATE 2 1).setFld F.CAL_GROUP_STATE 3 1

/-- The first record of module 0: slice 5 is assigned field 3. -/
def rec1 : AssignRec := { op := 1, seq := 1, effective := 0, fields := 8, slice := 5, job := 6, tag := 7, module := 0 }

/-- A body of 64 bytes, a signature of 114 and what follows them are read back. -/
theorem signed_parts (b g z : List Byte) (hb : b.length = 64) (hg : g.length = 114) :
    (b ++ g ++ z).take 64 = b ∧ slice (b ++ g ++ z) 64 114 = g ∧ (b ++ g ++ z).drop 178 = z := by
  have hd : (b ++ g ++ z).drop 64 = g ++ z := by rw [List.append_assoc, ← hb, List.drop_left]
  refine ⟨by rw [List.append_assoc, ← hb, List.take_left], ?_, ?_⟩
  · rw [slice, hd, ← hg, List.take_left, Nat.sub_self]
    exact List.append_nil _
  · rw [show 178 = 64 + 114 from rfl, ← List.drop_drop, hd, ← hg, List.drop_left]

/-- The parts of the record. -/
theorem rec1_parts :
    rec1.bytes.take 64 = rec1.body ∧ slice rec1.bytes 64 114 = sign114 metrologyKey "OX2-MET-ASSIGN" rec1.body ∧
      rec1.bytes.drop 178 = toBytes 14 0 := by
  rw [AssignRec.bytes]
  exact signed_parts _ _ _ (by decide +kernel) (by rw [sign114, slice_length])

/-- It is signed by the signing unit of its module. -/
theorem rec1_signed (c : Cart) (h : c.own = true) : c.signed rec1.bytes = true := by
  simp only [Cart.signed, rec1_parts.1, rec1_parts.2.1, h, if_true, beq_self_eq_true, Bool.true_or]

/-- It sets no reserved bit. -/
theorem rec1_kept : recordReserved rec1.bytes = false := by
  have hn : rec1.bytes.length = 192 := by
    rw [AssignRec.bytes, List.length_append, List.length_append, sign114, slice_length]
    decide +kernel
  have hz : leAt rec1.bytes 178 14 = 0 := by
    rw [leAt, slice, rec1_parts.2.2]
    decide +kernel
  rw [recordReserved, hn, hz]
  rfl

/-- A cartridge that expects it, or has taken it. -/
def cartAt (last : Nat) : State := { State.reset with cart := { State.reset.cart with lastSeq := last } }

/-- A log entry. -/
def entry1 (n : Nat) : LogEntry := ⟨n, false, false, false, 1, 2, 3, .event 0x06 4⟩

/-- A bin of a cartridge with one account. -/
def bin1 : BinIn := ⟨List.replicate 64 5, 540, 19, 540, 0xFFFF, 30⟩

/-- The period of a cartridge has ended. -/
def periodOver : State :=
  { State.reset with cart := { State.reset.cart with ctime := 1000, openA := 12345, openB := 6789, shared := 99
                                                     accounts := [⟨1, 5, 6, 7, 0, 8, 0, 0, 0, 0, false, false, false, false⟩]
                                                     bins := [⟨999, List.replicate 64 5, List.replicate 56 1⟩] } }
theorem test_witness_SamplingComputed :
    let s := overBudget
    s.integ.last ≠ s.sec ∧ s.flag F.INT_MODE_GOAL = true ∧ 59 ≤ s.integ.past ∧ s.flag F.INT_STATUS_EXCEEDED = false ∧
  0 < max s.lambdaModel (lambdaObs s.vecMisses (((s.fld F.INT_STATUS_S, s.vecMisses) :: s.integ.history).take 3601)) ∧
  s.fld F.INT_BUDGET_LIMIT = 0 ∧ s.fld F.INT_SAMPLE_S_MAX < 65536 := by
  decide +kernel

theorem test_witness_InFieldTest :
    let f : Fin 56 := 1
    let c : Fin 30 := 0
    let p : Fin 16 := 3
    let s := posIn ⟨-1000000 * second, none, none, none, false⟩
    let due : State := { posIn ⟨0, some 0, none, none, false⟩ with mem := State.reset.mem.clearField 1 }
    let run := posIn ⟨0, some 0, none, some true, false⟩
    let spare := posFresh
    let d := deferred
    s.overdue (s.position f c p) = true ∧ (s.position f c p).dueAt = none ∧ s.fenced f c p = false ∧ due.mayTest f c p true = true ∧
  due.coreAtRow f c p = some 90 ∧ 0 < 0x300000 ∧ spare.mayTest f c 15 false = true ∧ (run.position f c p).testing = some true ∧
  run.flag F.INT_FLD_LAST_VALID f = false ∧ (d.position 0 c p).dueAt = some 0 ∧ 0 + d.fld F.INT_TEST_DEFER_H * 60 * minute ≤ d.up ∧
  d.isSpare 0 c p = false ∧ d.fenced 0 c p = false ∧ d.slotOfField 0 = some 0 ∧ (d.slot 0).phase = .placed ∧
  d.flag F.SEQ_SLOT_CFG_ACTIVE 0 = true ∧ (d.slot 0).requests = [] := by
  decide +kernel

theorem test_witness_PowerArbiter :
    let s := feeds
    let one := feeds.setFld F.PWR_STATUS_FEED_B 0 0
    let hotP : State := { feeds with power := { feeds.power with hot := 16 } }
    let back := later one
    let ovr : State := { feeds with power := { feeds.power with overdue := true } }
    let step3 : State := { hotP with power := { hotP.power with dueStep := some (3, 1) } }
    let cool : State := later (feeds.setFld F.PWR_STATUS_STEP 0 1)
    let asked : State := { hotP with power := { hotP.power with nextStep := some (2, 3) } }
    let seen : State := { feeds with power := { feeds.power with overAt := some 0 } }
    s.flag F.PWR_STATUS_FEED_A = true ∧ s.flag F.PWR_STATUS_FEED_B = true ∧ one.flag F.PWR_STATUS_FEED_A = true ∧
  one.flag F.PWR_STATUS_FEED_B = false ∧ 480 ≤ (480 : BitVec 12).toNat ∧ (480 : BitVec 12).toNat ≤ 600 ∧ back.domains.control = true ∧
  back.power.goodB + 100 * msec ≤ back.up ∧ 16 ≤ hotP.power.hot ∧
  ovr.power.hot < 16 ∧ ovr.power.overdue = true ∧ hotP.baseStep < 3 ∧ hotP.power.nextStep = none ∧ 3 ≤ step3.baseStep ∧ 16 ≤ step3.power.hot ∧
  asked.baseStep < 2 ∧ asked.power.nextStep = some (2, 3) ∧ 16 ≤ asked.power.hot ∧ seen.power.overAt = some 0 ∧ seen.up < 0 + 10 * msec ∧
  cool.power.nextStep = none ∧ (450 : BitVec 12).toNat < 440 + 11 ∧ ¬((440 : BitVec 12).toNat < 440 ∨ 600 < (440 : BitVec 12).toNat) ∧
  cool.fld F.PWR_CLOCK_CEILING < cool.baseStep ∧ cool.power.coolSince + second ≤ cool.up ∧ cool.power.overdue = false ∧
  20000 < (20001 : BitVec 16).toNat ∧ s.power.overAt = none ∧ ¬(s.fld F.PWR_STATUS_B_W * 103 < (0 : BitVec 16).toNat * 100) ∧
  ¬(196 < (196 : BitVec 16).toNat) ∧ s.baseStep < (1 : Fin 4) ∧ (0 : Fin 4) ≤ s.baseStep ∧
  s.power.nextStep = none := by
  decide +kernel

theorem test_witness_Calibration :
    let s := State.reset
    let busy := s.setFld F.CAL_STATUS_BUSY 0 1
    let deck := s.setFld F.DCK_STATUS_STATE 0 1
    let link := s.setFld F.LNK_LINK_CFG_ENABLE 0 1
    let r := calibrating
    let b := passedAll
    let h : State := { s with ups := hour }
    (busy.flag F.CAL_STATUS_BUSY = true ∧ s.flag F.CAL_STATUS_BUSY = false ∧ (4 : BitVec 4).toNat % 8 ≠ 0 ∧ deck.deckState ≠ deckParked ∧
  deck.deckState ≠ deckEmpty ∧ bitOf (8 : BitVec 4).toNat 3 = true ∧ link.enabledLinks ≠ [] ∧
  ¬((15 : BitVec 4).toNat % 8 ≠ 0 ∧ s.deckState ≠ deckParked ∧ s.deckState ≠ deckEmpty) ∧
  ¬(bitOf (15 : BitVec 4).toNat 3 = true ∧ s.enabledLinks ≠ []) ∧ (15 : BitVec 4) ≠ 0 ∧ 2475000 ≤ (2475000 : BitVec 24).toNat ∧
  (2475000 : BitVec 24).toNat ≤ 2525000 ∧ ¬(2475000 ≤ (2474999 : BitVec 24).toNat ∧ (2474999 : BitVec 24).toNat ≤ 2525000) ∧
  (∃ x ∈ r.cal.run, x.groups = [(2 : Fin 4).val] ∧ x.bad = false) ∧ r.cal.laser = none ∧ r.mayMeasure ⟨[2], false, true⟩ (2 : Fin 4) = true ∧ s.cal.laser = none ∧
  b.flag F.CAL_STATUS_BUSY = false ∧ (0xA7 : BitVec 8) = 0xA7 ∧ b.allPassed = true ∧ b.cal.slots.length < 8 ∧ h.savedAt + hour ≤ h.up ∧ s.up < s.savedAt + hour) ∧
  (∀ k, k < (trimRange (2 : Fin 4)).2 → ∃ v, r.measured (2 : Fin 4) k (List.replicate 960 (0 : BitVec 20)) = some v ∧
    judgeDac (2 : Fin 4) v (r.cal.lastGood ((trimRange (2 : Fin 4)).1 + k)) = 0) := by
  exact ⟨by decide +kernel, fun k h => judged_zero k h⟩

theorem test_witness_MeterRecords :
    let s : State := { State.reset with now := 10 * second, ups := second }
    let c := cartAt 0
    let again := cartAt 1
    let w : State := later (State.reset.setFld F.MET_STATUS_STATE 0 1)
    let v : State := { later (State.reset.setFld F.MET_STATUS_STATE 0 2) with meter := { State.reset.meter with pending := [(rec1, 0)] } }
    let u : State := { State.reset with cart := { State.reset.cart with paired := none } }
    let out : State := { State.reset with cart := { State.reset.cart with seated := false } }
    (s.meter.timeSec ≠ s.sec + 1 ∧ s.meter.pending.length < 256 ∧ s.meter.resentAt + 100000000 * ns ≤ s.up ∧ c.cart.seated = true ∧
  c.cart.powered = true ∧ c.domains.cartPort.up = true ∧ again.cart.seated = true ∧ again.cart.powered = true ∧ again.domains.cartPort.up = true ∧
  u.cart.paired ≠ some u.selfId ∧ c.cart.paired = some c.selfId ∧ out.cart.seated = false ∧ w.fld F.MET_STATUS_STATE = 1 ∧
  w.meter.startAt + 8 * second ≤ w.up ∧ v.fld F.MET_STATUS_STATE = 2 ∧ (∃ r ∈ v.meter.pending, r.2 + 10 * second ≤ v.up) ∧
  s.newestLog < (entry1 5).lseq ∧ (entry1 0).lseq ≤ s.newestLog) ∧
  c.cart.signed rec1.bytes = true ∧ again.cart.signed rec1.bytes = true ∧ recordReserved rec1.bytes = false ∧ readRecord rec1.bytes = rec1 ∧ c.cart.paired = some rec1.module ∧
  rec1.seq = c.cart.lastSeq + 1 ∧ 0 < rec1.seq ∧ rec1.seq ≤ again.cart.lastSeq := by
  exact ⟨by decide +kernel, rec1_signed _ rfl, rec1_signed _ rfl, rec1_kept, rfl, rfl, rfl, Nat.one_pos, Nat.le_refl 1⟩

theorem test_witness_Cartridge :
    let s := State.reset
    let p := periodOver
    let off : State := { s with cart := { s.cart with powered := false } }
    s.cart.seated = true ∧ s.cart.powered = true ∧ (Instr.binSample bin1).wf = true ∧ p.cart.seated = true ∧ p.cart.powered = true ∧
  p.cart.periodAt + 1000 ≤ p.cart.ctime ∧ s.cart.calAt = none ∧ off.cart.powered = false ∧ s.cart.tamperOff = false := by
  decide +kernel


/-! ## Firmware, the recorder and set-up access -/

/-- The image as shipped passes the check of a module without burned fuses. -/
theorem shipped_ok : FwImage.check .shipped Fuses.init = 0 := by
  have hv : Fuses.init.version = 0 := rfl
  have hr : Fuses.init.revoked = false := rfl
  rw [FwImage.check, hv, hr, if_neg fun h => Bool.noConfusion h.2, if_neg (Nat.not_lt_zero _)]

/-- So slot 0 is valid where device A holds it. -/
theorem shipped_check (s : State) (h : s.flashA.slot 0 = some .shipped) (hf : s.fuses = Fuses.init) : s.slotCheck 0 = (0, 0) := by
  simp only [State.slotCheck, h, hf, shipped_ok]

theorem shipped_valid (s : State) (h : s.flashA.slot 0 = some .shipped) (hf : s.fuses = Fuses.init) : s.validSlot 0 = some .shipped := by
  rw [State.validSlot, shipped_check s h hf]
  exact h

/-- A trial runs; it began at time 0. -/
def trial1 : State := { State.reset.setFld F.FWU_STATUS_STATE 0 1 with ups := 100000 * second }

/-- The inactive slot holds an image of 16 bytes, of which none is written, in a phase. -/
def updating (phase : Nat) : State :=
  { State.reset.setFld F.FWU_CMD_PHASE 0 phase with
    flashA := { FlashDev.init with slot1 := some (.written 16 [] []) }, flashB := { FlashDev.init with slot1 := some (.written 16 [] []) } }

/-- The control domain waits for its boot, with one copy of its settings, or with no boot record. -/
def waits : State := { State.reset with domains := { Domains.init with booting := true } }
def settled : State :=
  { waits with flashA := { FlashDev.init with set0 := some ⟨FwImage.shipped.settingsVer, 1, []⟩ } }
def noRecord : State :=
  { waits with flashA := { FlashDev.init with boot0 := none }, flashB := { FlashDev.init with boot0 := none } }

/-- In recovery, an update of slot 0 by the shipped image has been written. -/
def recovering : State := (State.reset.setFld F.FWU_STATUS_STATE 0 2).setFld F.FWU_CMD_PHASE 0 2

/-- An open record, and what a suppressed code of an earlier second left. -/
def open1 : EvRec := ⟨5, 0, 0x2001, 0x05, true, false, false, false, false, 1, 2, 3⟩
def supp1 : Suppressed := ⟨0, 0x2001, 0x05, 2, 3, 0, 7⟩
def recorded : State :=
  let r := { State.reset.evr with circ := [open1], perm := [{ open1 with opened := false, perm := true }], supp := [supp1], next := 6 }
  { State.reset with now := 100 * second, evr := r }

/-- The header of a READ request of 4 bytes at offset 0, with number 1, and the request. -/
def header0 : List Byte := toBytes 32 (0x5353 + 2 ^ 16 + 4 * 2 ^ 64 + 2 ^ 128)
def request0 : List Byte := header0 ++ State.reset.tagOf header0

/-- I3C has an address, and a read is set up. -/
def i3c1 : State :=
  let s := State.reset.setFld F.MGT_STATUS_I3C_DA 0 9
  { s with access := { s.access with header := some (0, 4) } }
theorem test_witness_Firmware :
    let s := State.reset
    let t := trial1
    let u := updating 1
    let w := updating 2
    let v := updating 3
    let r := recovering
    let b := settled
    let e := noRecord
    let j := withJob id
    (t.inTrial = true ∧ s.inTrial = false ∧ 2 ^ 34 < (0x400000001 : BitVec 40).toNat ∧ (0x400000000 : BitVec 40).toNat ≤ 2 ^ 34 ∧
  u.flashA.slot u.updateSlot = some (.written 16 [] []) ∧ u.phase ≠ 0 ∧ 0 < (16 : BitVec 21).toNat ∧ (16 : BitVec 21).toNat ≤ 1048576 ∧
  (0 : BitVec 40).toNat + (16 : BitVec 21).toNat ≤ (FwImage.written 16 [] []).length ∧
  (FwImage.written 16 [] []).length < (1 : BitVec 40).toNat + (16 : BitVec 21).toNat ∧ s.phase < 2 ∧ 2 ≤ r.phase ∧ r.inRecovery = true ∧ s.inRecovery = false ∧
  2 ≤ w.phase ∧ (w.slotCheck w.updateSlot).1 ≠ 0 ∧ j.inRecovery = false ∧ j.jobs ≠ [] ∧ v.inRecovery = false ∧ v.jobs = [] ∧ v.phase = 3 ∧
  (true || false) = true ∧ t.domains.control = true ∧ t.domains.trialAt + t.fld F.FWU_CFG_TRIAL_S * second ≤ t.up) ∧
  (∃ x, t.winning = some x) ∧ (e.domains.control = true ∧ e.domains.booting = true ∧ e.domains.resetHeld = false ∧ e.winning = none) ∧
  (b.domains.control = true ∧ b.domains.booting = true ∧ b.domains.resetHeld = false) ∧ r.updateSlot = 0 ∧ (r.slotCheck 0).1 = 0 ∧
  r.validSlot 0 = some .shipped ∧ (∃ x, b.winning = some x ∧ x.state = 0 ∧ b.validSlot x.active = some .shipped) ∧
  b.settingsCopies = [(0, ⟨FwImage.shipped.settingsVer, 1, []⟩)] := by
  exact ⟨by decide +kernel, ⟨_, rfl⟩, by decide +kernel, by decide +kernel, by decide +kernel, congrArg Prod.fst (shipped_check recovering rfl rfl),
    shipped_valid recovering rfl rfl, ⟨_, rfl, rfl, shipped_valid settled rfl rfl⟩, rfl⟩

theorem test_witness_RecorderCommands :
    let s := recorded
    let full : State := { s with evr := { s.evr with noteSecond := s.sec, notes := s.evNoteLimit } }
    open1 ∈ s.evr.circ ∧ open1.seq = (5 : BitVec 64).toNat ∧ open1.opened = true ∧ open1.code ≠ 0x1001 ∧
  second ≤ timeDiff s.now open1.time ∧ s.evr.supp = [supp1] ∧ supp1.second ≠ s.sec ∧
  (if s.evr.noteSecond = s.sec then s.evr.notes else 0) < s.evNoteLimit ∧ s.evr.auditOk = true ∧
  full.evNoteLimit ≤ (if full.evr.noteSecond = full.sec then full.evr.notes else 0) := by
  decide +kernel

theorem test_witness_SetupAccess :
    let s := State.reset
    let k := s.setFld F.MGT_STATUS_LOCKED 0 1
    let x : IpAddr := .v4 5
    let d := request0
    let body := d.take (d.length - 16)
    let h := body.take 32
    let stale : State := { s with access := { s.access with stations := [(.v4 5, 1)] } }
    let v4 := s.setFld F.MGT_NET_V4_EN 0 1
    let i := i3c1
    let a : State := { (later s).setFld F.MGT_CFG_AUTOLOCK_S 0 10 with domains := { Domains.init with mission := true } }
    let off : State := { s with domains := { Domains.init with wafer := false } }
    let p : Packet := { pkt 0xC 0 0 0 request0 with src := 3 }
    (s.served = true ∧ s.inRecovery = false ∧ s.locked = false ∧ k.served = true ∧ k.inRecovery = false ∧ k.locked = true ∧
  ([1, 2, 3, 4] : List Byte).length = 4 ∧ rangeUnits (2 : BitVec 26).toNat ([1, 2, 3, 4] : List Byte).length = none ∧
  (0 : BitVec 16).toNat ≠ s.fld F.MGT_NET_PORT ∧ (BitVec.ofNat 16 (s.fld F.MGT_NET_PORT)).toNat = s.fld F.MGT_NET_PORT ∧
  ¬(48 ≤ ([] : List Byte).length)) ∧
  (48 ≤ d.length ∧ d.drop (d.length - 16) = s.tagOf body ∧ leAt h 16 8 ≤ stale.access.lastOf x ∧ s.access.lastOf x < leAt h 16 8 ∧
  leAt h 2 1 = 1 ∧ headerBad h (d.length - 48) = false) ∧
  (v4.served = true ∧ v4.flag F.MGT_NET_V4_EN = true ∧ v4.fld F.MGT_NET_IPV4 = (0 : BitVec 32).toNat ∧ s.fld F.MGT_STATUS_I3C_DA = 0 ∧
  i.served = true ∧ i.fld F.MGT_STATUS_I3C_DA ≠ 0 ∧ ([1, 2, 3, 4, 5, 6] : List Byte).length = 6 ∧ i.access.header = some (0, 4) ∧
  a.booted = true ∧ a.domains.mission = true ∧ a.fld F.MGT_CFG_AUTOLOCK_S ≠ 0 ∧
  a.domains.missionAt + a.fld F.MGT_CFG_AUTOLOCK_S * second ≤ a.up ∧ s.domains.wafer = true ∧ placeOf ((0 : BitVec 44).toNat * 64) = .job ∧
  CleanLines s ((0 : BitVec 44).toNat * 64) 1 ∧ off.domains.wafer = false ∧ (2 ^ 50 : BitVec 64).toNat / 2 ^ 50 ≠ s.selfId ∧
  s.mgmtLink ((2 ^ 50 : BitVec 64).toNat / 2 ^ 50) = none ∧ p.addr.toNat / 2 ^ 50 = s.selfId ∧ s.booted = true) ∧
  (slice p.data 32 16 = s.tagOf (slice p.data 0 32 ++ slice p.data 32 0) ∧
  mapGet (fun _ => 0) s.access.senders p.src.toNat < leAt (slice p.data 0 32) 16 8 ∧ leAt (slice p.data 0 32) 2 1 = 1 ∧
  slice ([] : List Byte) 32 16 ≠ s.tagOf (slice [] 0 32 ++ slice [] 32 0)) := by
  simp only [CleanLines]; refine ⟨?_, ?_, ?_, ?_⟩ <;> decide +kernel

theorem test_witness_CommandsComplete :
    let a := a0
    let op := mma1
    let m : State := served1
    let k := m.core a.field a.core
    let x : Fin 1920 := 20
    let p := pathIn 2
    let d := p.setFld F.DCK_STATUS_DETACHED 0 1
    let away := (settledPath 2).updAxis 20 fun v => { v with away := 4 }
    let bad : State := (settledPath 2).updAxis 20 fun v => { v with bad := 4 }
    let r : State := { p.setFld F.SRV_STATUS_SUPPLY 0 2 with deck := { p.deck with supplyGood := 1024 } }
    let c := p.setFld F.SRV_AXIS_FAULT 20 1
    let e : Fin 64 := 0
    let armed := served1.setFld F.RTE_SLICE_ARMED 0 1
    let l := withJob id
    let s := State.reset
    let v4 := s.setFld F.MGT_NET_V4_EN 0 1
    let b := request0
    let body := b.take (b.length - 16)
    let h := body.take 32
    let lock : State := { (later s).setFld F.MGT_CFG_AUTOLOCK_S 0 10 with domains := { Domains.init with mission := true } }
    let q : Packet := { pkt 0xC 0 0 0 request0 with src := 3 }
    (StepReads a m ∧ (Instr.mmaZero a op).wf = true ∧ (Instr.mmaAcc a op).wf = true ∧ k.tileErrors op.tile = (0, false)) ∧
    (d.flag F.DCK_STATUS_DETACHED = true ∧ d.deck.realign = 0 ∧ away.pathOfAxis x = some 5 ∧ away.axisState x = axisSettled ∧
  4 ≤ (away.axis x).away ∧ bad.servoCondition x 1 = true ∧ r.fld F.SRV_STATUS_SUPPLY = 2 ∧ 1024 ≤ r.deck.supplyGood ∧
  c.fld F.SRV_AXIS_FAULT x = 1 ∧ (c.axis x).rests = true) ∧
    (served1.flag F.RTE_SLICE_ACTIVE e = true ∧ served1.passed (5 : BitVec 64).toNat = false ∧ armed.flag F.RTE_SLICE_ACTIVE e = true ∧
  armed.atTick = true ∧ armed.flag F.RTE_SLICE_ARMED e = true ∧ armed.passed (armed.rd .RTE_SLICE_COMMIT e) = true ∧
  mapGet (fun _ => 0) armed.epochTick e.val ≠ armed.ticks + 1 ∧ l.flag F.RTE_SLICE_ACTIVE e = true ∧
  (∃ j ∈ l.jobs.find? (fun j : Job => j.slice == l.fld F.RTE_SLICE_SLICE_ID e), j.stopping = none)) ∧
    (s.served = true ∧ s.inRecovery = false ∧ (BitVec.ofNat 16 (s.fld F.MGT_NET_PORT)).toNat = s.fld F.MGT_NET_PORT ∧
  48 ≤ b.length ∧ b.drop (b.length - 16) = s.tagOf body ∧ s.access.lastOf (.v4 5) < leAt h 16 8 ∧ leAt h 2 1 = 1 ∧
  headerBad h (b.length - 48) = false ∧ v4.served = true ∧ v4.flag F.MGT_NET_V4_EN = true ∧ v4.fld F.MGT_NET_IPV4 = (0 : BitVec 32).toNat ∧
  s.fld F.MGT_STATUS_I3C_DA = 0 ∧ i3c1.served = true ∧ i3c1.fld F.MGT_STATUS_I3C_DA ≠ 0) ∧
    (lock.booted = true ∧ lock.domains.mission = true ∧ lock.fld F.MGT_CFG_AUTOLOCK_S ≠ 0 ∧
  lock.domains.missionAt + lock.fld F.MGT_CFG_AUTOLOCK_S * second ≤ lock.up ∧ s.domains.wafer = true ∧
  placeOf ((0 : BitVec 44).toNat * 64) = .job ∧ CleanLines s ((0 : BitVec 44).toNat * 64) 1 ∧ s.booted = true ∧
  q.addr.toNat / 2 ^ 50 = s.selfId ∧ slice q.data 32 16 = s.tagOf (slice q.data 0 32) ∧
  mapGet (fun _ => 0) s.access.senders q.src.toNat < leAt (slice q.data 0 32) 16 8 ∧ leAt (slice q.data 0 32) 2 1 = 1) := by
  simp only [StepReads, CleanLines]; refine ⟨?_, ?_, ?_, ?_, ?_⟩ <;> decide +kernel

theorem test_witness_LastGoodTrim :
    let z : CalSlot := ⟨0, [(0, 7)], 1⟩
    let c : Cal := { Cal.init with slots := [z, ⟨0, [], 0⟩, z], old := 2 }
    (∀ x ∈ Cal.init.slots.take Cal.init.old, x.valid = false) ∧ (c.slots.take c.old = [z] ++ ⟨0, [], 0⟩ :: [] ∧
  CalSlot.valid ⟨0, [], 0⟩ = true ∧ (∀ x ∈ [z], x.valid = true → x.seq ≤ 0) ∧ (∀ x ∈ ([] : List CalSlot), x.valid = true → x.seq < 0)) ∧
  c.old ≤ c.slots.length ∧ ({ c with unpark := true } : Cal).slots = c.slots ++ [] ∧ ({ c with unpark := true } : Cal).old = c.old := by
  exact ⟨fun _ h => absurd h List.not_mem_nil, ⟨rfl, zero_slot, fun x hx _ => by rw [List.mem_singleton.mp hx],
    fun _ h => absurd h List.not_mem_nil⟩, by decide, rfl, rfl⟩

theorem test_witness_FusedVersion :
    let f : Fuses := { left := [1, 2], right := [1, 3], revoked := false, columns := [], links := [] }
    f.pair 3 = true ∧ 127 ≤ 127 ∧ ∃ t, exec (.nop a0) State.reset = .next t := by
  exact ⟨rfl, Nat.le_refl _, _, rfl⟩

theorem test_witness_ExecKeepsQueue :
    ∃ t, exec (.nop a0) State.reset = .next t := by
  exact ⟨_, rfl⟩

theorem test_witness_StepKeepsRegs :
    RegsCanonical State.reset ∧ ∃ t, step { State.reset with pending := [.nop a0] } = .next t := by
  exact ⟨rfl, _, rfl⟩

theorem test_witness_StepKeepsMemory :
    MemCanonical State.reset ∧ ∃ t, step { State.reset with pending := [.nop a0] } = .next t := by
  exact ⟨⟨rfl, fun _ h => absurd h List.not_mem_nil⟩, _, rfl⟩

theorem test_witness_ResetInvariants :
    State.reset.pending = [] := by
  rfl

theorem test_witness_ResetValues :
    0 < 65536 := by
  decide +kernel


end Sys2Proof.Tests
end

section
/-!
PROOF. Packets at the place they are for (R275): what their checks answer without an active entry for the slice, that a packet which
fails its checks leaves only their effect, and from these O16.
-/
namespace Sys2Proof.Machine

/-! ## A packet that its checks stop leaves the state that they leave -/

section Stopped
variable {a : Arrival} {p : Packet} {s t : State}

theorem execRead_of_requestIn_none (h : s.requestIn a p = (t, none)) : execRead a p s = .next t := by
  rw [execRead, h]

theorem execWrite_of_requestIn_none (h : s.requestIn a p = (t, none)) : execWrite a p s = .next t := by
  rw [execWrite, h]

theorem execReadData_of_responseIn_false (h : s.responseIn a p = (t, false)) : execReadData a p s = .next t := by
  rw [execReadData, h]

theorem execWriteDone_of_responseIn_false (h : s.responseIn a p = (t, false)) : execWriteDone ⟨a, p⟩ s = .next t := by
  simp only [execWriteDone, h]

theorem execFaultRsp_of_responseIn_false (h : s.responseIn a p = (t, false)) : execFaultRsp ⟨a, p⟩ s = .next t := by
  simp only [execFaultRsp, h]

end Stopped

/-! ## Without an active entry for the slice, R275 -/

section NoEntry
variable {a : Arrival} {p : Packet} {s : State}

/-- The header arrived whole and the packet is for this module, so the check of the entry is the first that a request fails. -/
theorem State.requestIn_of_entryOf_none (hlost : a.lost = none) (hself : p.addr.toNat / 2 ^ 50 = s.selfId)
    (hentry : s.entryOf p.slice.toNat = none) : s.requestIn a p = (s.bump .RTE_TRANSIT_DROP, none) := by
  simp only [State.requestIn, hlost, hself, hentry, ne_eq, not_true_eq_false, if_false, Option.isNone_none, if_true]

/-- The header arrived whole and the packet is for this module, so the check of the entry is the first that a response fails. -/
theorem State.responseIn_of_entryOf_none (hlost : a.lost = none) (hself : p.addr.toNat / 2 ^ 50 = s.selfId)
    (hentry : s.entryOf p.slice.toNat = none) : s.responseIn a p = (s.bump .RTE_TRANSIT_DROP, false) := by
  simp only [State.responseIn, hlost, hself, hentry, ne_eq, not_true_eq_false, if_false, Option.isNone_none, if_true]

/-- An exchange names its target by the slice's relative field, which only the entry resolves: the entry is looked up before the
address is read. -/
theorem execExchange_of_entryOf_none (hlost : a.lost = none) (hentry : s.entryOf p.slice.toNat = none) :
    execExchange a p s = .next (s.bump .RTE_TRANSIT_DROP) := by
  simp [execExchange, hlost, hentry]

end NoEntry

/-- Settles O16: requests fail in `requestIn` and responses in `responseIn`, each with the one count, and an exchange at its lookup. -/
theorem noEntryDrops : Obligations.NoEntryDrops := by
  unfold Obligations.NoEntryDrops
  intro a p s hlost hentry
  refine ⟨fun hself i hi => ?_, execExchange_of_entryOf_none hlost hentry⟩
  have hreq := State.requestIn_of_entryOf_none hlost hself hentry
  have hrsp := State.responseIn_of_entryOf_none hlost hself hentry
  simp only [List.mem_cons, List.not_mem_nil, or_false] at hi
  obtain rfl | rfl | rfl | rfl | rfl := hi
  · exact execRead_of_requestIn_none hreq
  · exact execWrite_of_requestIn_none hreq
  · exact execReadData_of_responseIn_false hrsp
  · exact execWriteDone_of_responseIn_false hrsp
  · exact execFaultRsp_of_responseIn_false hrsp

end Sys2Proof.Machine
end

section
/-!
PROOF. The last-good trims (R384, R389): `newestSlot` by where the slot of the highest number stands, the slots that were burned before
the power-up as `lastGood` reads them, and from these O54.
-/
namespace Sys2Proof.Machine

/-! ## The newest valid slot of some, R389 -/

section NewestSlot
variable {x y : CalSlot × Nat} {l older later : List (CalSlot × Nat)}

/-- An invalid slot is skipped. -/
theorem newestSlot_cons_of_invalid (hx : x.1.valid = false) : newestSlot (x :: l) = newestSlot l := by
  cases h : newestSlot l <;> simp [newestSlot, h, hx]

/-- A slot in front of the newest one gives way to it unless its number is higher. -/
theorem newestSlot_cons_of_seq_le (hl : newestSlot l = some y) (hx : x.1.valid = true → x.1.seq ≤ y.1.seq) :
    newestSlot (x :: l) = some y := by
  cases hv : x.1.valid with
  | false => rw [newestSlot_cons_of_invalid hv, hl]
  | true => simp [newestSlot, hl, hv, hx hv]

/-- A valid slot in front of lower numbers is the newest. -/
theorem newestSlot_cons_of_seq_lt (hx : x.1.valid = true) (hlt : ∀ z, newestSlot l = some z → z.1.seq < x.1.seq) :
    newestSlot (x :: l) = some x := by
  cases h : newestSlot l with
  | none => simp [newestSlot, h, hx]
  | some z => simp [newestSlot, h, hx, hlt z h]

theorem newestSlot_eq_none (hl : ∀ z ∈ l, z.1.valid = false) : newestSlot l = none := by
  induction l with
  | nil => rfl
  | cons x xs ih =>
    obtain ⟨hx, hxs⟩ := List.forall_mem_cons.mp hl
    rw [newestSlot_cons_of_invalid hx, ih hxs]

/-- A slot in front either changes nothing or is valid and the newest itself. -/
theorem newestSlot_cons_eq_or (x : CalSlot × Nat) (l : List (CalSlot × Nat)) :
    newestSlot (x :: l) = newestSlot l ∨ x.1.valid = true ∧ newestSlot (x :: l) = some x := by
  cases hx : x.1.valid with
  | false => exact .inl (newestSlot_cons_of_invalid hx)
  | true =>
    cases hl : newestSlot l with
    | none => exact .inr ⟨rfl, newestSlot_cons_of_seq_lt hx (by simp [hl])⟩
    | some z =>
      obtain hlt | hle := Nat.lt_or_ge z.1.seq x.1.seq
      · exact .inr ⟨rfl, newestSlot_cons_of_seq_lt hx (by simp [hl, hlt])⟩
      · exact .inl (newestSlot_cons_of_seq_le hl fun _ => hle)

/-- What is found is one of the slots, and valid. -/
theorem newestSlot_mem_and_valid (hy : newestSlot l = some y) : y ∈ l ∧ y.1.valid = true := by
  induction l with
  | nil => simp [newestSlot] at hy
  | cons x xs ih =>
    obtain hrest | ⟨hx, hsome⟩ := newestSlot_cons_eq_or x xs
    · obtain ⟨hmem, hvalid⟩ := ih (hrest ▸ hy)
      exact ⟨List.mem_cons_of_mem x hmem, hvalid⟩
    · obtain rfl : x = y := Option.some.inj (hsome.symm.trans hy)
      exact ⟨List.mem_cons_self, hx⟩

/-- A valid slot with no higher number in front of it and lower numbers behind it is the newest. -/
theorem newestSlot_append_cons (hy : y.1.valid = true) (holder : ∀ z ∈ older, z.1.valid = true → z.1.seq ≤ y.1.seq)
    (hlater : ∀ z ∈ later, z.1.valid = true → z.1.seq < y.1.seq) : newestSlot (older ++ y :: later) = some y := by
  induction older with
  | nil =>
    refine newestSlot_cons_of_seq_lt hy fun z hz => ?_
    obtain ⟨hmem, hvalid⟩ := newestSlot_mem_and_valid hz
    exact hlater z hmem hvalid
  | cons x xs ih =>
    obtain ⟨hx, hxs⟩ := List.forall_mem_cons.mp holder
    exact newestSlot_cons_of_seq_le (ih hxs) hx

end NewestSlot

/-! ## The slots that count since the power-up, R384 -/

section LastGood
variable {c d : Cal} {i : Nat}

theorem Cal.numbered_take (c : Cal) (n : Nat) : c.numbered.take n = (c.slots.take n).mapIdx fun k x => (x, k + 1) := by
  refine List.ext_getElem (by simp [Cal.numbered]) fun k _ _ => ?_
  simp [Cal.numbered]

theorem Cal.map_fst_numbered_take (c : Cal) (n : Nat) : (c.numbered.take n).map Prod.fst = c.slots.take n := by
  refine List.ext_getElem (by simp [Cal.numbered]) fun k _ _ => ?_
  simp [Cal.numbered]

/-- Of the whole calibration state only the slots from before the power-up count. -/
theorem Cal.lastGood_congr (h : d.slots.take d.old = c.slots.take c.old) : d.lastGood i = c.lastGood i := by
  simp only [Cal.lastGood, Cal.source, Cal.numbered_take, h]

theorem Cal.lastGood_of_no_valid (h : ∀ x ∈ c.slots.take c.old, x.valid = false) :
    c.lastGood i = (Config.trimBaseline i).toNat := by
  have hnone : c.source = none := newestSlot_eq_none fun z hz => h z.1 <| by
    rw [← c.map_fst_numbered_take c.old]
    exact List.mem_map_of_mem hz
  rw [Cal.lastGood, hnone, trimIn]

theorem Cal.lastGood_of_newest {older later : List CalSlot} {newest : CalSlot} (h : c.slots.take c.old = older ++ newest :: later)
    (hvalid : newest.valid = true) (holder : ∀ x ∈ older, x.valid = true → x.seq ≤ newest.seq)
    (hlater : ∀ x ∈ later, x.valid = true → x.seq < newest.seq) : c.lastGood i = mapGet (fun _ => 0) newest.trims i := by
  rw [← c.map_fst_numbered_take c.old] at h
  obtain ⟨before, rest, hsplit, rfl, hrest⟩ := List.map_eq_append_iff.mp h
  obtain ⟨y, after, rfl, rfl, rfl⟩ := List.map_eq_cons_iff.mp hrest
  have hsome : c.source = some y := by
    rw [Cal.source, hsplit]
    exact newestSlot_append_cons hvalid (List.forall_mem_map.mp holder) (List.forall_mem_map.mp hlater)
  rw [Cal.lastGood, hsome, trimIn]

end LastGood

/-- Settles O54: the newest slot is found among those from before the power-up, and these alone decide the trim. -/
theorem lastGoodTrim : Obligations.LastGoodTrim := by
  unfold Obligations.LastGoodTrim
  intro c i
  refine ⟨Cal.lastGood_of_no_valid, fun _ _ _ => Cal.lastGood_of_newest, fun d hslots hold => ?_, fun d burned hle hslots hold => ?_⟩
  · exact Cal.lastGood_congr (by rw [hslots, hold])
  · exact Cal.lastGood_congr (by rw [hslots, hold, List.take_append_of_le_length hle])

end Sys2Proof.Machine
end

section

/-!
PROOF. The fuses (R418): the version of a set of fuses is the highest of their pairs that reads 1, and burning to a version burns both
fuses of each pair up to it that is not burned.
-/
namespace Sys2Proof.Machine

theorem Fuses.pair_iff (f : Fuses) (k : Nat) : f.pair k = true ↔ k ∈ f.left ∨ k ∈ f.right := by simp [Fuses.pair]

theorem Fuses.version_isMax (f : Fuses) :
    f.version ∈ 0 :: (f.left ++ f.right) ∧ ∀ k ∈ 0 :: (f.left ++ f.right), k ≤ f.version :=
  List.max?_eq_some_iff.mp List.max?_cons'

theorem Fuses.le_version_of_pair {f : Fuses} {k : Nat} (h : f.pair k = true) : k ≤ f.version :=
  f.version_isMax.2 k (by simpa using .inr (f.pair_iff k |>.mp h))

theorem Fuses.version_zero_or_pair (f : Fuses) :
    (f.version = 0 ∧ ∀ k, f.pair k = true → k = 0) ∨ f.pair f.version = true := by
  rcases List.mem_cons.mp f.version_isMax.1 with h | h
  · exact .inl ⟨h, fun k hk => Nat.le_zero.mp (h ▸ le_version_of_pair hk)⟩
  · exact .inr (f.pair_iff _ |>.mpr (List.mem_append.mp h))

theorem Fuses.version_mono {f g : Fuses} (h : ∀ k, f.pair k = true → g.pair k = true) : f.version ≤ g.version := by
  rcases f.version_zero_or_pair with ⟨h0, -⟩ | hv
  · exact h0 ▸ Nat.zero_le _
  · exact le_version_of_pair (h _ hv)

/-- Both fuses of the pairs of `ks` are burned after those burned before. -/
def Fuses.burnBoth (f : Fuses) (ks : List Nat) : Fuses := { f with left := f.left ++ ks, right := f.right ++ ks }

theorem Fuses.burnBoth_nil (f : Fuses) : f.burnBoth [] = f := by simp [Fuses.burnBoth]

theorem Fuses.burnBoth_burnBoth (f : Fuses) (ks ls : List Nat) : (f.burnBoth ks).burnBoth ls = f.burnBoth (ks ++ ls) := by
  simp [Fuses.burnBoth]

theorem Fuses.pair_burnBoth (f : Fuses) (ks : List Nat) (k : Nat) : (f.burnBoth ks).pair k = true ↔ f.pair k = true ∨ k ∈ ks := by
  simp only [pair_iff, Fuses.burnBoth, List.mem_append]
  tauto

theorem Fuses.burnPair_eq (f : Fuses) (k : Nat) : f.burnPair k = f.burnBoth ([k].filter fun i => !f.pair i) := by
  cases h : f.pair k <;> simp [Fuses.burnPair, Fuses.burnBoth, h]

/-- Burning pair after pair burns those of the list that were not burned before it, in the list's order. -/
theorem Fuses.foldl_burnPair {l : List Nat} (hl : l.Nodup) (f : Fuses) :
    l.foldl Fuses.burnPair f = f.burnBoth (l.filter fun k => !f.pair k) := by
  induction l generalizing f with
  | nil => exact f.burnBoth_nil.symm
  | cons k l ih =>
    obtain ⟨hk, hl⟩ := List.nodup_cons.mp hl
    have hother : l.filter (fun i => !(f.burnPair k).pair i) = l.filter fun i => !f.pair i := by
      refine List.filter_congr fun i hi => congrArg _ (Bool.eq_iff_iff.mpr ?_)
      have hne : i ≠ k := fun h => hk (h ▸ hi)
      simp [burnPair_eq, pair_burnBoth, hne]
    rw [List.foldl_cons, ih hl, hother, burnPair_eq, burnBoth_burnBoth, ← List.filter_append, List.singleton_append]

theorem Fuses.burnTo_eq (f : Fuses) (v : Nat) : f.burnTo v = f.burnBoth ((rangeFrom 1 (min 127 v)).filter fun k => !f.pair k) :=
  foldl_burnPair (List.nodup_range.map (add_left_injective 1)) f

theorem Fuses.version_le_burnTo (f : Fuses) (v : Nat) : f.version ≤ (f.burnTo v).version :=
  version_mono fun k hk => by rw [burnTo_eq, pair_burnBoth]; exact .inl hk

end Sys2Proof.Machine
end

section

/-!
PROOF. How states compare by their fuses: with the same fuses (SameFuses), with a fused version that is not lower (VersionLe), and the
commands that never lower it (NeverLowers). The fuses are one field of the state and few functions write it, so the sections below say of
each function of the model, in the model's order, that it leaves the fuses as they were, and of each command that it never lowers the
version. Their proofs use simp with -implicitDefEqProofs, so that its steps are rewrites in the term that is checked: with steps by
definitional equality the check compares states field by field, which does not end. Where a function names the states it goes through,
the proof goes along their names, with SameFuses or VersionLe as the relation, for the same reason.
-/
namespace Sys2Proof.Machine

/-! ### States with the same fuses -/

/-- Two states with the same fuses. A definition of its own, so that the check compares the states before it compares their fuses. -/
def SameFuses (s t : State) : Prop := t.fuses = s.fuses

theorem SameFuses.eq {s t : State} (h : SameFuses s t) : t.fuses = s.fuses := h

theorem SameFuses.of_eq {s t : State} (h : t.fuses = s.fuses) : SameFuses s t := h

theorem SameFuses.trans {s t u : State} (h : SameFuses s t) (h' : SameFuses t u) : SameFuses s u := .of_eq (h'.eq.trans h.eq)

@[simp] theorem ite_fuses (c : Prop) [Decidable c] (a b : State) :
    (if c then a else b).fuses = if c then a.fuses else b.fuses := apply_ite State.fuses c a b

@[simp] theorem ite_fst_fuses {α : Type} (c : Prop) [Decidable c] (a b : State × α) :
    (if c then a else b).1.fuses = if c then a.1.fuses else b.1.fuses := apply_ite (·.1.fuses) c a b

@[simp] theorem foldl_fuses {α : Type} {g : State → α → State} (h : ∀ s x, (g s x).fuses = s.fuses) (l : List α) (s : State) :
    (l.foldl g s).fuses = s.fuses := by
  induction l generalizing s with
  | nil => rfl
  | cons x xs ih => rw [List.foldl_cons, ih, h]

@[simp] theorem foldl_fst_fuses {α β : Type} {g : State × β → α → State × β} (h : ∀ p x, (g p x).1.fuses = p.1.fuses) (l : List α)
    (p : State × β) : (l.foldl g p).1.fuses = p.1.fuses := by
  induction l generalizing p with
  | nil => rfl
  | cons x xs ih => rw [List.foldl_cons, ih, h]

@[simp] theorem forNats_fuses {g : Nat → State → State} (h : ∀ k s, (g k s).fuses = s.fuses) (l : List Nat) (s : State) :
    (forNats g l s).fuses = s.fuses := by
  induction l generalizing s with
  | nil => rfl
  | cons k l ih => rw [forNats, ih, h]

theorem SameFuses.foldl {α : Type} {g : State → α → State} (h : ∀ s x, SameFuses s (g s x)) (l : List α) (s : State) :
    SameFuses s (l.foldl g s) := .of_eq (foldl_fuses (fun s x => (h s x).eq) l s)

/-- The state of a pair that a function answers. -/
theorem fuses_of_eq {α : Type} {p : State × α} {t : State} {x : α} (h : p = (t, x)) : t.fuses = p.1.fuses := by rw [h]

/-- The state that an operation gives, if it gives one, has the fuses of `s`. -/
def KeepsFuses (s : State) (o : Option State) : Prop := ∀ t, o = some t → t.fuses = s.fuses

theorem KeepsFuses.eq {s t : State} {o : Option State} (h : KeepsFuses s o) (ht : o = some t) : t.fuses = s.fuses := h t ht

theorem KeepsFuses.of_none {s : State} : KeepsFuses s none := fun _ h => absurd h.symm (Option.some_ne_none _)

theorem KeepsFuses.of_some {s t : State} (h : t.fuses = s.fuses) : KeepsFuses s (some t) := fun u hu => by rw [← Option.some.inj hu, h]

theorem KeepsFuses.foldl {α : Type} {s : State} {g : Option State → α → Option State}
    (h : ∀ o x, KeepsFuses s o → KeepsFuses s (g o x)) (l : List α) : KeepsFuses s (l.foldl g (some s)) :=
  List.foldlRecOn (motive := KeepsFuses s) l g (.of_some rfl) fun o ho x _ => h o x ho

/-! ### The version never lower -/

/-- The fused version of `t` is at least that of `s`. -/
def VersionLe (s t : State) : Prop := s.fuses.version ≤ t.fuses.version

theorem VersionLe.refl (s : State) : VersionLe s s := Nat.le_refl _

theorem VersionLe.trans {s t u : State} (h : VersionLe s t) (h' : VersionLe t u) : VersionLe s u := Nat.le_trans h h'

theorem VersionLe.of_eq {s t : State} (h : t.fuses = s.fuses) : VersionLe s t := Nat.le_of_eq (congrArg Fuses.version h.symm)

theorem VersionLe.of_pair {α : Type} {s t : State} {p : State × α} {x : α} (h : p = (t, x)) (hp : VersionLe s p.1) :
    VersionLe s t := by
  rwa [h] at hp

theorem VersionLe.ite {s t u : State} {c : Prop} [Decidable c] (ht : VersionLe s t) (hu : VersionLe s u) :
    VersionLe s (if c then t else u) := by
  split
  · exact ht
  · exact hu

/-- A command never lowers the fused version: each state it may give holds at least the version before it. -/
def NeverLowers (s : State) (r : Res) : Prop := ∀ t, r = .next t → VersionLe s t

theorem NeverLowers.next {s t : State} (h : VersionLe s t) : NeverLowers s (.next t) := fun u hu => by cases hu; exact h

@[simp] theorem neverLowers_next {s t : State} : NeverLowers s (.next t) ↔ s.fuses.version ≤ t.fuses.version :=
  ⟨fun h => h t rfl, .next⟩

@[simp] theorem neverLowers_fault {s : State} {r : Fault} : NeverLowers s (.fault r) := by simp [NeverLowers]

@[simp] theorem neverLowers_refused {s : State} {r : Refusal} : NeverLowers s (.refused r) := by simp [NeverLowers]

@[simp] theorem neverLowers_ite {s : State} {c : Prop} [Decidable c] {a b : Res} :
    NeverLowers s (if c then a else b) ↔ if c then NeverLowers s a else NeverLowers s b := by
  split <;> rfl

end Sys2Proof.Machine
end

section

/-!
PROOF. The fuses kept (R418): what the core, the sending side of the links and the translation do.
-/
namespace Sys2Proof.Machine

/-! ### Named operations -/

@[simp] theorem State.recorder_fuses (s : State) (r) : (s.recorder r).fuses = s.fuses := by
  simp -implicitDefEqProofs [State.recorder]

/-! ### RDMA operations on the front-end connections -/

@[simp] theorem State.feSend_fuses (s : State) (n len use o) : (s.feSend n len use o).fuses = s.fuses := by
  simp -implicitDefEqProofs [State.feSend]

@[simp] theorem State.feRead_fuses (s : State) (n rkey addr len use) : (s.feRead n rkey addr len use).fuses = s.fuses := by
  simp -implicitDefEqProofs [State.feRead]

@[simp] theorem State.feWrite_fuses (s : State) (n rkey addr bs use) : (s.feWrite n rkey addr bs use).fuses = s.fuses := by
  simp -implicitDefEqProofs [State.feWrite]

@[simp] theorem State.feAnswered_fuses (s : State) (n use) : (s.feAnswered n use).fuses = s.fuses := by
  simp -implicitDefEqProofs [State.feAnswered]

/-! ### Lines, tiles and records -/

@[simp] theorem State.sramUe_fuses (s : State) (f w line kind frame) : (s.sramUe f w line kind frame).fuses = s.fuses := by
  simp -implicitDefEqProofs [State.sramUe]

@[simp] theorem State.lpddrUe_fuses (s : State) (o kind) : (s.lpddrUe o kind).fuses = s.fuses := by
  simp -implicitDefEqProofs [State.lpddrUe]

@[simp] theorem State.readLine_fst_fuses (s : State) (o frame) : (s.readLine o frame).1.fuses = s.fuses := by
  unfold State.readLine
  split <;> simp -implicitDefEqProofs

@[simp] theorem State.readLines_fst_fuses (s : State) (o frame n) : (s.readLines o frame n).1.fuses = s.fuses := by
  induction n generalizing s o with
  | zero => rfl
  | succ n ih => simp -implicitDefEqProofs [State.readLines, ih]

@[simp] theorem State.sourceFailure_fuses (s : State) (o fld point) : (s.sourceFailure o fld point).fuses = s.fuses := by
  simp -implicitDefEqProofs [State.sourceFailure]

@[simp] theorem State.recordFailure_fuses (s : State) (fld point) : (s.recordFailure fld point).fuses = s.fuses := by
  simp -implicitDefEqProofs [State.recordFailure]

@[simp] theorem State.tileFromSram_fst_fuses (s : State) (o frame epoch point) :
    (s.tileFromSram o frame epoch point).1.fuses = s.fuses := by
  unfold State.tileFromSram
  split <;> simp -implicitDefEqProofs

@[simp] theorem State.tileFromLpddr_fst_fuses (s : State) (o frame epoch) : (s.tileFromLpddr o frame epoch).1.fuses = s.fuses := by
  unfold State.tileFromLpddr
  split
  rename_i h
  simp -implicitDefEqProofs [fuses_of_eq h]

/-! ### Slots, faults and the issue of steps -/

@[simp] theorem State.faultSlot_fuses (s : State) (n f c step cls code addr lines link) :
    (s.faultSlot n f c step cls code addr lines link).fuses = s.fuses := by
  simp -implicitDefEqProofs [State.faultSlot]

@[simp] theorem State.faultAt_fuses (s : State) (f c step cls code addr lines link) :
    (s.faultAt f c step cls code addr lines link).fuses = s.fuses := by
  unfold State.faultAt
  split <;> simp -implicitDefEqProofs

@[simp] theorem State.fault_fuses (s : State) (f c cls code addr lines) : (s.fault f c cls code addr lines).fuses = s.fuses := by
  simp -implicitDefEqProofs [State.fault]

@[simp] theorem State.stepRead_fst_fuses (s : State) (f c line n) : (s.stepRead f c line n).1.fuses = s.fuses := by
  simp -implicitDefEqProofs [State.stepRead]

@[simp] theorem State.stepMayWrite_fst_fuses (s : State) (f c line n) : (s.stepMayWrite f c line n).1.fuses = s.fuses := by
  fun_cases State.stepMayWrite s f c line n <;> simp +zetaDelta -implicitDefEqProofs

@[simp] theorem State.stepPut_fuses (s : State) (f c line n bs mask format) : (s.stepPut f c line n bs mask format).fuses = s.fuses := by
  simp -implicitDefEqProofs [State.stepPut]

@[simp] theorem State.readStep_fuses (s : State) (f c i) : (s.readStep f c i).fuses = s.fuses := by
  unfold State.readStep
  split <;> simp -implicitDefEqProofs

@[simp] theorem State.orphan_fuses (s : State) (fs) : (s.orphan fs).fuses = s.fuses := by
  simp -implicitDefEqProofs [State.orphan]

@[simp] theorem State.issue_fuses {effect : State → State} (h : ∀ s, (effect s).fuses = s.fuses) (s : State) (a) :
    (s.issue a effect).fuses = s.fuses := by
  simp -implicitDefEqProofs [State.issue, h]

@[simp] theorem State.issueNet_fuses {effect : State → State} (h : ∀ s, (effect s).fuses = s.fuses) (s : State) (a) :
    (s.issueNet a effect).fuses = s.fuses := by
  simp -implicitDefEqProofs [State.issueNet, h]

/-! ### Units of a core -/

@[simp] theorem State.readTile_fst_fuses (s : State) (f c t) : (s.readTile f c t).1.fuses = s.fuses := by
  simp -implicitDefEqProofs [State.readTile]

@[simp] theorem State.seedField_fuses (s : State) (f) : (s.seedField f).fuses = s.fuses := by
  rw [State.seedField, forNats_fuses]
  intro c s
  exact State.updCore_fuses ..

/-! ### Steps that act within their core -/

@[simp] theorem State.checked_fst_fuses (s : State) (f c) : (s.checked f c).1.fuses = s.fuses := by
  simp -implicitDefEqProofs [State.checked]

@[simp] theorem State.takeInjection_fst_fuses (s : State) (f c kind) : (s.takeInjection f c kind).1.fuses = s.fuses := by
  simp -implicitDefEqProofs [State.takeInjection]

@[simp] theorem State.captureLast_fuses (s : State) (f c step col kind) : (s.captureLast f c step col kind).fuses = s.fuses := by
  simp -implicitDefEqProofs [State.captureLast]

@[simp] theorem execNop_neverLowers (s : State) (a) : NeverLowers s (execNop a s) := by
  simp -implicitDefEqProofs [execNop]

@[simp] theorem execFence_neverLowers (s : State) (a) : NeverLowers s (execFence a s) := by
  simp -implicitDefEqProofs [execFence]

@[simp] theorem endEffect_fuses (s : State) (f c) : (endEffect f c s).fuses = s.fuses := by
  fun_cases endEffect f c s <;> simp +zetaDelta -implicitDefEqProofs

@[simp] theorem execEnd_neverLowers (s : State) (a) : NeverLowers s (execEnd a s) := by
  simp -implicitDefEqProofs [execEnd]

@[simp] theorem execLoop_neverLowers (s : State) (a count body) : NeverLowers s (execLoop a count body s) := by
  simp -implicitDefEqProofs [execLoop]

@[simp] theorem execPtrSet_neverLowers (s : State) (a dst imm) : NeverLowers s (execPtrSet a dst imm s) := by
  simp -implicitDefEqProofs [execPtrSet]

@[simp] theorem execPtrAdd_neverLowers (s : State) (a dst imm) : NeverLowers s (execPtrAdd a dst imm s) := by
  simp -implicitDefEqProofs [execPtrAdd]

@[simp] theorem execPtrParity_neverLowers (s : State) (a dst imm stride) : NeverLowers s (execPtrParity a dst imm stride s) := by
  simp -implicitDefEqProofs [execPtrParity]

@[simp] theorem loadEffect_fuses (s : State) (f c kind op) : (loadEffect f c kind op s).fuses = s.fuses := by
  simp -implicitDefEqProofs only [loadEffect]
  split <;> simp -implicitDefEqProofs

@[simp] theorem execLoadA_neverLowers (s : State) (a op) : NeverLowers s (execLoadA a op s) := by
  simp -implicitDefEqProofs [execLoadA]

@[simp] theorem execLoadB_neverLowers (s : State) (a op) : NeverLowers s (execLoadB a op s) := by
  simp -implicitDefEqProofs [execLoadB]

@[simp] theorem execLoadScaleA_neverLowers (s : State) (a op) : NeverLowers s (execLoadScaleA a op s) := by
  simp -implicitDefEqProofs [execLoadScaleA]

@[simp] theorem execLoadScaleB_neverLowers (s : State) (a op) : NeverLowers s (execLoadScaleB a op s) := by
  simp -implicitDefEqProofs [execLoadScaleB]

@[simp] theorem mmaFail_fuses (s : State) (f c op t1 col) : (mmaFail f c op t1 col s).fuses = s.fuses := by
  simp -implicitDefEqProofs [mmaFail]

@[simp] theorem mmaEffect_fuses (s : State) (f c zero op) : (mmaEffect f c zero op s).fuses = s.fuses := by
  have hread {k t l} : (if zero then (State.updCore s f c k, l) else (State.updCore s f c k).readTile f c t).1.fuses = s.fuses := by
    rw [ite_fst_fuses, State.readTile_fst_fuses, ite_self, State.updCore_fuses]
  fun_cases mmaEffect f c zero op s
  case case1 h _ _ _ _ h' _ _ _ _ =>
    rw [State.updCore_fuses, fuses_of_eq h', State.takeInjection_fst_fuses, fuses_of_eq h, hread]
  case case2 h _ _ _ _ h' _ _ _ _ s' _ =>
    rw [State.bump_fuses, State.updCore_fuses, fuses_of_eq h', State.takeInjection_fst_fuses, fuses_of_eq h, hread]
  case case3 h _ _ _ _ h' _ _ _ _ s' _ _ _ =>
    rw [State.updCore_fuses, fuses_of_eq h', State.takeInjection_fst_fuses, fuses_of_eq h, hread]
  case case4 h _ _ _ _ h' _ _ _ _ _ _ _ =>
    rw [mmaFail_fuses, fuses_of_eq h', State.takeInjection_fst_fuses, fuses_of_eq h, hread]

@[simp] theorem execMmaAcc_neverLowers (s : State) (a op) : NeverLowers s (execMmaAcc a op s) := by
  unfold execMmaAcc
  split <;> simp -implicitDefEqProofs

@[simp] theorem execMmaZero_neverLowers (s : State) (a op) : NeverLowers s (execMmaZero a op s) := by
  unfold execMmaZero
  split <;> simp -implicitDefEqProofs

@[simp] theorem State.readTiles_fst_fuses (s : State) (f c ts) : (s.readTiles f c ts).1.fuses = s.fuses := by
  induction ts generalizing s with
  | nil => rfl
  | cons t ts ih => simp -implicitDefEqProofs [State.readTiles, ih]

@[simp] theorem vecEffect_fuses (s : State) (f c dst srcs g) : (vecEffect f c dst srcs g s).fuses = s.fuses := by
  simp -implicitDefEqProofs [vecEffect]

@[simp] theorem execVecAdd_neverLowers (s : State) (a op) : NeverLowers s (execVecAdd a op s) := by
  simp -implicitDefEqProofs [execVecAdd]

@[simp] theorem execVecMul_neverLowers (s : State) (a op) : NeverLowers s (execVecMul a op s) := by
  simp -implicitDefEqProofs [execVecMul]

@[simp] theorem execVecFma_neverLowers (s : State) (a op) : NeverLowers s (execVecFma a op s) := by
  simp -implicitDefEqProofs [execVecFma]

@[simp] theorem execVecMax_neverLowers (s : State) (a op) : NeverLowers s (execVecMax a op s) := by
  simp -implicitDefEqProofs [execVecMax]

@[simp] theorem execVecScale_neverLowers (s : State) (a op) : NeverLowers s (execVecScale a op s) := by
  simp -implicitDefEqProofs [execVecScale]

@[simp] theorem execVecCopy_neverLowers (s : State) (a op) : NeverLowers s (execVecCopy a op s) := by
  simp -implicitDefEqProofs [execVecCopy]

@[simp] theorem execVecExp_neverLowers (s : State) (a op) : NeverLowers s (execVecExp a op s) := by
  simp -implicitDefEqProofs [execVecExp]

@[simp] theorem execVecRsqrt_neverLowers (s : State) (a op) : NeverLowers s (execVecRsqrt a op s) := by
  simp -implicitDefEqProofs [execVecRsqrt]

@[simp] theorem execVecRsum_neverLowers (s : State) (a op) : NeverLowers s (execVecRsum a op s) := by
  simp -implicitDefEqProofs [execVecRsum]

@[simp] theorem execVecRmax_neverLowers (s : State) (a op) : NeverLowers s (execVecRmax a op s) := by
  simp -implicitDefEqProofs [execVecRmax]

@[simp] theorem cvtScales_fuses (s : State) (f c scales poison format) : (cvtScales f c scales poison format s).fuses = s.fuses := by
  simp -implicitDefEqProofs [cvtScales]

@[simp] theorem cvtEffect_fuses (s : State) (f c op) : (cvtEffect f c op s).fuses = s.fuses := by
  simp -implicitDefEqProofs [cvtEffect]

@[simp] theorem execCvt_neverLowers (s : State) (a op) : NeverLowers s (execCvt a op s) := by
  simp -implicitDefEqProofs [execCvt]

@[simp] theorem execAccToSram_neverLowers (s : State) (a op) : NeverLowers s (execAccToSram a op s) := by
  simp -implicitDefEqProofs [execAccToSram]

@[simp] theorem execSramToAcc_neverLowers (s : State) (a op) : NeverLowers s (execSramToAcc a op s) := by
  rw [execSramToAcc, neverLowers_next, State.issue_fuses]
  intro s
  dsimp only
  split <;> simp -implicitDefEqProofs

/-! ### The sending side of a link -/

@[simp] theorem State.onLane_fuses (s : State) (l f) : (s.onLane l f).fuses = s.fuses := by
  simp -implicitDefEqProofs [State.onLane]

@[simp] theorem State.sendFrame_fuses (s : State) (n f) : (s.sendFrame n f).fuses = s.fuses := by
  fun_cases State.sendFrame s n f <;> simp +zetaDelta -implicitDefEqProofs

@[simp] theorem State.sendPlain_fuses (s : State) (n kind payload) : (s.sendPlain n kind payload).fuses = s.fuses := by
  simp -implicitDefEqProofs [State.sendPlain]

@[simp] theorem State.sendOnLane_fuses (s : State) (n l kind payload) : (s.sendOnLane n l kind payload).fuses = s.fuses := by
  simp -implicitDefEqProofs [State.sendOnLane]

@[simp] theorem State.laneCodewords_fuses (s : State) (l) : (s.laneCodewords l).fuses = s.fuses := by
  simp -implicitDefEqProofs [State.laneCodewords]

@[simp] theorem State.showTsq_fuses (s : State) (q) : (s.showTsq q).fuses = s.fuses := by
  fun_cases State.showTsq s q <;> simp +zetaDelta -implicitDefEqProofs

@[simp] theorem State.stamp_fuses (s : State) (q ident source t) : (s.stamp q ident source t).fuses = s.fuses := by
  simp -implicitDefEqProofs [State.stamp]

@[simp] theorem State.stampLane_fuses (s : State) (n ident) : (s.stampLane n ident).fuses = s.fuses := by
  unfold State.stampLane
  split <;> simp -implicitDefEqProofs

@[simp] theorem State.sendVc_fuses (s : State) (n v) : (s.sendVc n v).fuses = s.fuses := by
  unfold State.sendVc
  split <;> simp -implicitDefEqProofs

@[simp] theorem State.auditSend_fuses (s : State) (n) : (s.auditSend n).fuses = s.fuses := by
  simp -implicitDefEqProofs [State.auditSend]

@[simp] theorem State.pumpGo_fuses (s : State) (n fuel) : (s.pumpGo n fuel).fuses = s.fuses := by
  fun_induction State.pumpGo s n fuel <;> simp -implicitDefEqProofs [*]

@[simp] theorem State.pump_fuses (s : State) (n) : (s.pump n).fuses = s.fuses := by
  simp -implicitDefEqProofs [State.pump]

@[simp] theorem State.sendLink_fuses (s : State) (n p ident) : (s.sendLink n p ident).fuses = s.fuses := by
  simp -implicitDefEqProofs [State.sendLink]

/-! ### Translation, and accesses at their target -/

@[simp] theorem State.mmuFault_fuses (s : State) (f source mover write slice frame code va) :
    (s.mmuFault f source mover write slice frame code va).fuses = s.fuses := by
  simp -implicitDefEqProofs [State.mmuFault]

@[simp] theorem State.readEntry_fst_fuses (s : State) (ga) : (s.readEntry ga).1.fuses = s.fuses := by
  simp -implicitDefEqProofs [State.readEntry]

@[simp] theorem State.walk_fst_fuses (s : State) (slot va) : (s.walk slot va).1.fuses = s.fuses := by
  fun_cases State.walk s slot va
  case case5 h _ _ _ _ _ h' | case6 h _ _ _ _ _ h' _ | case7 h _ _ _ _ _ h' _ _ | case8 h _ _ _ _ _ h' _ _ =>
    simp -implicitDefEqProofs [fuses_of_eq h', fuses_of_eq h]
  all_goals simp -implicitDefEqProofs [fuses_of_eq ‹_ = (_, _)›]

@[simp] theorem State.findLeaf_fst_fuses (s : State) (f slot va) : (s.findLeaf f slot va).1.fuses = s.fuses := by
  fun_cases State.findLeaf s f slot va
  · simp -implicitDefEqProofs
  · simp -implicitDefEqProofs only [State.setCache_fuses, fuses_of_eq ‹_ = (_, _)›, State.walk_fst_fuses]
    simp +zetaDelta -implicitDefEqProofs
  · simp +zetaDelta -implicitDefEqProofs

@[simp] theorem State.translate_fst_fuses (s : State) (f slot slice va write) :
    (s.translate f slot slice va write).1.fuses = s.fuses := by
  unfold State.translate
  split
  · rfl
  · split <;> rename_i h <;> simp -implicitDefEqProofs [fuses_of_eq h]

@[simp] theorem State.ownerCheck_fst_fuses (s : State) (slice o) : (s.ownerCheck slice o).1.fuses = s.fuses := by
  unfold State.ownerCheck
  split <;> simp -implicitDefEqProofs

@[simp] theorem State.targetRead_fst_fuses (s : State) (slice o n frame point) :
    (s.targetRead slice o n frame point).1.fuses = s.fuses := by
  unfold State.targetRead
  simp -implicitDefEqProofs only [ite_fst_fuses, ite_eq_left_iff]
  split <;> rename_i h <;> simp -implicitDefEqProofs [fuses_of_eq h]
  split <;> simp -implicitDefEqProofs [fuses_of_eq h]

@[simp] theorem State.targetMayWrite_fst_fuses (s : State) (slice o n) : (s.targetMayWrite slice o n).1.fuses = s.fuses := by
  simp -implicitDefEqProofs only [State.targetMayWrite, ite_fst_fuses, ite_eq_left_iff]
  split <;> rename_i h <;> simp -implicitDefEqProofs [fuses_of_eq h]

@[simp] theorem State.targetWrite_fst_fuses (s : State) (slice epoch o n bs mask record format point) :
    (s.targetWrite slice epoch o n bs mask record format point).1.fuses = s.fuses := by
  unfold State.targetWrite
  split
  · rename_i h
    split <;> simp -implicitDefEqProofs [fuses_of_eq h]
  · simp -implicitDefEqProofs

/-! ### Steps that leave the core -/

@[simp] theorem State.freshTag_fst_fuses (s : State) (f) : (s.freshTag f).1.fuses = s.fuses := by
  simp -implicitDefEqProofs [State.freshTag]

@[simp] theorem State.poisonFill_fuses (s : State) (f c line n) : (s.poisonFill f c line n).fuses = s.fuses := by
  simp -implicitDefEqProofs [State.poisonFill]

@[simp] theorem State.accessFault_fuses (s : State) (f c w write code va lines link) :
    (s.accessFault f c w write code va lines link).fuses = s.fuses := by
  simp -implicitDefEqProofs [State.accessFault]

@[simp] theorem State.greadPut_fuses (s : State) (f c line n bs mask record) :
    (s.greadPut f c line n bs mask record).fuses = s.fuses := by
  simp -implicitDefEqProofs [State.greadPut]

@[simp] theorem State.flitNext_fst_fuses (s : State) (target) : (s.flitNext target).1.fuses = s.fuses := by
  unfold State.flitNext
  repeat' split
  all_goals simp -implicitDefEqProofs

@[simp] theorem State.noteRemote_fuses (s : State) (f c g write p tag link) : (s.noteRemote f c g write p tag link).fuses = s.fuses := by
  simp -implicitDefEqProofs [State.noteRemote]

@[simp] theorem State.askNobody_fuses (s : State) (f c g write p) : (s.askNobody f c g write p).fuses = s.fuses := by
  simp -implicitDefEqProofs [State.askNobody]

@[simp] theorem State.askAway_fuses (s : State) (f c g write p ga l bs record mask) :
    (s.askAway f c g write p ga l bs record mask).fuses = s.fuses := by
  simp -implicitDefEqProofs [State.askAway]

@[simp] theorem State.spoil_fuses (s : State) (group) : (s.spoil group).fuses = s.fuses := by
  simp -implicitDefEqProofs [State.spoil]

@[simp] theorem State.greadFault_fuses (s : State) (f c g code va lines) : (s.greadFault f c g code va lines).fuses = s.fuses := by
  simp -implicitDefEqProofs [State.greadFault]

@[simp] theorem State.translatePieces_fst_fuses (s : State) (f w write ps) :
    (s.translatePieces f w write ps).1.fuses = s.fuses := by
  induction ps generalizing s with
  | nil => rfl
  | cons p ps ih =>
    rw [State.translatePieces]
    split <;> rename_i h <;> simp -implicitDefEqProofs [ih, fuses_of_eq h]

@[simp] theorem greadPiece_fst_fuses (f c g x q) : (greadPiece f c g x q).1.fuses = x.1.fuses := by
  unfold greadPiece
  dsimp only
  split
  · rfl
  · split
    · rfl
    · split <;> rename_i h <;> simp -implicitDefEqProofs [fuses_of_eq h]
    · simp -implicitDefEqProofs

@[simp] theorem greadEffect_fuses (s : State) (f c op) : (greadEffect f c op s).fuses = s.fuses := by
  simp -implicitDefEqProofs only [greadEffect, ite_fuses, State.stepMayWrite_fst_fuses, ite_eq_right_iff]
  split <;> rename_i h <;> simp -implicitDefEqProofs [fuses_of_eq h]

@[simp] theorem execGread_neverLowers (s : State) (a op) : NeverLowers s (execGread a op s) := by
  simp -implicitDefEqProofs [execGread]

@[simp] theorem State.pieceData_fst_fuses (s : State) (f c w p whole send) :
    (s.pieceData f c w p whole send).1.fuses = s.fuses := by
  fun_cases State.pieceData s f c w p whole send
  case case1 h => simp -implicitDefEqProofs [fuses_of_eq h]
  case case2 h _ =>
    refine (ite_fuses ..).trans ?_
    rw [State.fault_fuses, ite_self, fuses_of_eq h, State.readLines_fst_fuses]

@[simp] theorem State.refusedHere_fst_fuses (s : State) (slice l) : (s.refusedHere slice l).1.fuses = s.fuses := by
  fun_induction State.refusedHere s slice l
  case case1 => rfl
  case case2 h ih => rw [ih, fuses_of_eq h, State.targetMayWrite_fst_fuses]
  case case3 h => rw [fuses_of_eq h, State.targetMayWrite_fst_fuses]
  case case4 ih => exact ih

@[simp] theorem State.readPieces_fst_fuses (s : State) (f c w l) : (s.readPieces f c w l).1.fuses = s.fuses := by
  induction l generalizing s with
  | nil => rfl
  | cons x l ih => simp -implicitDefEqProofs [State.readPieces, ih]; split <;> simp -implicitDefEqProofs

@[simp] theorem gwritePiece_fuses (s : State) (f c g q) : (gwritePiece f c g s q).fuses = s.fuses := by
  unfold gwritePiece
  repeat' split
  all_goals simp -implicitDefEqProofs

@[simp] theorem gwriteEffect_fuses (s : State) (f c op) : (gwriteEffect f c op s).fuses = s.fuses := by
  unfold gwriteEffect
  dsimp only
  split
  · simp -implicitDefEqProofs
  · split
    · simp -implicitDefEqProofs
    · split <;> rename_i h
      · simp -implicitDefEqProofs [fuses_of_eq h]
      · split <;> rename_i h'
        · simp -implicitDefEqProofs [fuses_of_eq h', fuses_of_eq h]
        · split <;> simp -implicitDefEqProofs [fuses_of_eq h', fuses_of_eq h]

@[simp] theorem execGwrite_neverLowers (s : State) (a op) : NeverLowers s (execGwrite a op s) := by
  simp -implicitDefEqProofs [execGwrite]

@[simp] theorem sendEffect_fuses (s : State) (f c op) : (sendEffect f c op s).fuses = s.fuses := by
  unfold sendEffect
  simp -implicitDefEqProofs only [ite_fuses, State.fault_fuses, State.pieceData_fst_fuses, ite_eq_left_iff]
  split
  · simp -implicitDefEqProofs
  · split <;> simp -implicitDefEqProofs

@[simp] theorem execSend_neverLowers (s : State) (a op) : NeverLowers s (execSend a op s) := by
  simp -implicitDefEqProofs [execSend]

end Sys2Proof.Machine
end

section

/-!
PROOF. The fuses kept (R418): the movers, the packets at the place they are for, the memory commands and the mesh.
-/
namespace Sys2Proof.Machine

/-! ### Movers -/

@[simp] theorem State.postDesc_fuses (s : State) (f m v core step frame cc poisoned) :
    (s.postDesc f m v core step frame cc poisoned).fuses = s.fuses := by
  unfold State.postDesc
  repeat' split
  all_goals simp -implicitDefEqProofs

@[simp] theorem execPost_neverLowers (s : State) (a mem queue) : NeverLowers s (execPost a mem queue s) := by
  simp only [execPost, neverLowers_ite, neverLowers_next]
  rw [State.issueNet_fuses]
  · simp
  · intro s
    split <;> rename_i h <;> simp -implicitDefEqProofs [fuses_of_eq h]

@[simp] theorem State.moverTarget_fst_fuses (s : State) (f w space addr off write) :
    (s.moverTarget f w space addr off write).1.fuses = s.fuses := by
  unfold State.moverTarget
  repeat' split
  all_goals simp -implicitDefEqProofs

@[simp] theorem State.moverCause_fuses (s : State) (f m w write code va) : (s.moverCause f m w write code va).fuses = s.fuses := by
  unfold State.moverCause
  split <;> simp -implicitDefEqProofs

@[simp] theorem State.moverPut_fuses (s : State) (f m w d r bs mask record) :
    (s.moverPut f m w d r bs mask record).fuses = s.fuses := by
  unfold State.moverPut
  simp -implicitDefEqProofs only [ite_fuses, State.updMover_fuses, State.moverCause_fuses, State.feWrite_fuses, ite_self, ite_eq_left_iff]
  split <;> rename_i h
  · simp -implicitDefEqProofs [fuses_of_eq h]
  · split <;> rename_i h'
    · simp -implicitDefEqProofs [fuses_of_eq h', fuses_of_eq h]
    · simp -implicitDefEqProofs [fuses_of_eq h', fuses_of_eq h]
    · split <;> rename_i h'' <;> simp -implicitDefEqProofs [fuses_of_eq h'', fuses_of_eq h', fuses_of_eq h]
  · simp -implicitDefEqProofs [fuses_of_eq h]

@[simp] theorem State.moverRead_fuses (s : State) (f m w d r bs mask record) :
    (s.moverRead f m w d r bs mask record).fuses = s.fuses := by
  simp -implicitDefEqProofs [State.moverRead]

@[simp] theorem State.moverRequest_fuses (s : State) (f m d) : (s.moverRequest f m d).fuses = s.fuses := by
  unfold State.moverRequest
  simp -implicitDefEqProofs only [ite_fuses, State.updMover_fuses, State.moverCause_fuses, State.freshTag_fst_fuses,
      State.moverRead_fuses, State.feRead_fuses, ite_self, ite_eq_left_iff]
  split <;> rename_i h
  · simp -implicitDefEqProofs [fuses_of_eq h]
  · split <;> rename_i h' <;> simp -implicitDefEqProofs [fuses_of_eq h', fuses_of_eq h]
  · simp -implicitDefEqProofs [fuses_of_eq h]

@[simp] theorem State.parkMover_fuses (s : State) (f m code) : (s.parkMover f m code).fuses = s.fuses := by
  fun_cases State.parkMover s f m code <;> simp +zetaDelta -implicitDefEqProofs

@[simp] theorem execMoverIssue_neverLowers (s : State) (f m) : NeverLowers s (execMoverIssue f m s) := by
  fun_cases execMoverIssue f m s <;> simp +zetaDelta -implicitDefEqProofs

@[simp] theorem State.moverLate_fuses (s : State) (tag) : (s.moverLate tag).fuses = s.fuses := by
  simp -implicitDefEqProofs [State.moverLate]

@[simp] theorem State.moverNak_fuses (s : State) (f m syndrome) : (s.moverNak f m syndrome).fuses = s.fuses := by
  simp -implicitDefEqProofs [State.moverNak]

@[simp] theorem State.moverResponse_fuses (s : State) (tag segment b) : (s.moverResponse tag segment b).fuses = s.fuses := by
  fun_cases State.moverResponse s tag segment b <;> simp +zetaDelta -implicitDefEqProofs

@[simp] theorem State.parkNow_fuses (s : State) (f m code) : (s.parkNow f m code).fuses = s.fuses := by
  simp -implicitDefEqProofs only [State.parkNow, ite_fuses, State.updMover_fuses, State.setFld_fuses, ite_self]
  split <;> simp -implicitDefEqProofs

@[simp] theorem execMoverParkDone_neverLowers (s : State) (f m) : NeverLowers s (execMoverParkDone f m s) := by
  fun_cases execMoverParkDone f m s <;> simp +zetaDelta -implicitDefEqProofs

@[simp] theorem State.parkAtOnce_fuses (s : State) (f m code) : (s.parkAtOnce f m code).fuses = s.fuses := by
  fun_cases State.parkAtOnce s f m code <;> simp +zetaDelta -implicitDefEqProofs

@[simp] theorem State.eachMover_fuses {g : State → Nat → Nat → State} (h : ∀ s f m, (g s f m).fuses = s.fuses) (s : State) (n) :
    (s.eachMover n g).fuses = s.fuses := by
  simp -implicitDefEqProofs [State.eachMover, h]

@[simp] theorem State.cancelMover_fuses (s : State) (f m) : (s.cancelMover f m).fuses = s.fuses := by
  fun_cases State.cancelMover s f m <;> simp +zetaDelta -implicitDefEqProofs

@[simp] theorem State.cancelMovers_fuses (s : State) (n) : (s.cancelMovers n).fuses = s.fuses := by
  simp -implicitDefEqProofs [State.cancelMovers]

@[simp] theorem execMoverAutoResume_neverLowers (s : State) (f m) : NeverLowers s (execMoverAutoResume f m s) := by
  simp -implicitDefEqProofs [execMoverAutoResume]

@[simp] theorem State.autoResumes_fuses (s : State) : s.autoResumes.fuses = s.fuses := by
  simp -implicitDefEqProofs [State.autoResumes]

@[simp] theorem execMoverComplete_neverLowers (s : State) (f m) : NeverLowers s (execMoverComplete f m s) := by
  fun_cases execMoverComplete f m s <;> simp +zetaDelta -implicitDefEqProofs

@[simp] theorem State.ringPut_fuses (s : State) (f v) : (s.ringPut f v).fuses = s.fuses := by
  simp -implicitDefEqProofs [State.ringPut]

@[simp] theorem State.showDone_fst_fuses (s : State) (f m fuel) : (s.showDone f m fuel).1.fuses = s.fuses := by
  induction fuel generalizing s with
  | zero => rfl
  | succ fuel ih =>
    rw [State.showDone]
    split <;> simp -implicitDefEqProofs [ih]

@[simp] theorem State.movResult_fuses (s : State) (f r) : (s.movResult f r).fuses = s.fuses := by
  simp -implicitDefEqProofs [State.movResult]

@[simp] theorem State.movPost_fuses (s : State) (f m ident) : (s.movPost f m ident).fuses = s.fuses := by
  simp -implicitDefEqProofs [State.movPost]

@[simp] theorem State.movResume_fuses (s : State) (f m) : (s.movResume f m).fuses = s.fuses := by
  unfold State.movResume
  split <;> simp -implicitDefEqProofs

@[simp] theorem State.movCancel_fuses (s : State) (f m) : (s.movCancel f m).fuses = s.fuses := by
  simp -implicitDefEqProofs [State.movCancel]

@[simp] theorem State.movStop_fuses (s : State) (f m) : (s.movStop f m).fuses = s.fuses := by
  unfold State.movStop
  split <;> simp -implicitDefEqProofs

@[simp] theorem State.movCmd_fuses (s : State) (f op m ident) : (s.movCmd f op m ident).fuses = s.fuses := by
  unfold State.movCmd
  repeat' split
  all_goals simp -implicitDefEqProofs

@[simp] theorem execMoverPost_neverLowers (s : State) (f m ident) : NeverLowers s (execMoverPost f m ident s) := by
  simp -implicitDefEqProofs [execMoverPost]

@[simp] theorem execMoverResume_neverLowers (s : State) (f m ident) : NeverLowers s (execMoverResume f m ident s) := by
  simp -implicitDefEqProofs [execMoverResume]

@[simp] theorem execMoverCancel_neverLowers (s : State) (f m ident) : NeverLowers s (execMoverCancel f m ident s) := by
  simp -implicitDefEqProofs [execMoverCancel]

@[simp] theorem execMoverStop_neverLowers (s : State) (f m ident) : NeverLowers s (execMoverStop f m ident s) := by
  simp -implicitDefEqProofs [execMoverStop]

/-! ### Packets at the place they are for -/

@[simp] theorem State.forward_fuses (s : State) (p m) : (s.forward p m).fuses = s.fuses := by
  unfold State.forward
  repeat' split
  all_goals simp -implicitDefEqProofs

@[simp] theorem State.respond_fuses (s : State) (a p ptype code bs record) : (s.respond a p ptype code bs record).fuses = s.fuses := by
  unfold State.respond
  split <;> simp -implicitDefEqProofs

@[simp] theorem State.flitDrop_fuses (s : State) (f) : (s.flitDrop f).fuses = s.fuses := by
  simp -implicitDefEqProofs [State.flitDrop]

@[simp] theorem State.requestIn_fst_fuses (s : State) (a p) : (s.requestIn a p).1.fuses = s.fuses := by
  unfold State.requestIn
  split <;> simp -implicitDefEqProofs

@[simp] theorem execRead_neverLowers (s : State) (a p) : NeverLowers s (execRead a p s) := by
  unfold execRead
  split <;> rename_i h <;> simp -implicitDefEqProofs [fuses_of_eq h]

@[simp] theorem execWrite_neverLowers (s : State) (a p) : NeverLowers s (execWrite a p s) := by
  fun_cases execWrite a p s
  case case1 h => simp -implicitDefEqProofs [fuses_of_eq h]
  case case2 h _ _ => simp -implicitDefEqProofs [fuses_of_eq h]
  case case3 h _ _ _ _ hwrite | case4 h _ _ _ _ _ _ hwrite => simp -implicitDefEqProofs [fuses_of_eq hwrite, fuses_of_eq h]

@[simp] theorem State.endRemote_fuses (s : State) (r) : (s.endRemote r).fuses = s.fuses := by
  simp -implicitDefEqProofs [State.endRemote]

@[simp] theorem State.responseIn_fst_fuses (s : State) (a p) : (s.responseIn a p).1.fuses = s.fuses := by
  unfold State.responseIn
  split <;> simp -implicitDefEqProofs

@[simp] theorem State.remoteFault_fuses (s : State) (r code) : (s.remoteFault r code).fuses = s.fuses := by
  simp -implicitDefEqProofs [State.remoteFault]

@[simp] theorem State.remoteData_fuses (s : State) (r bs mask record intact) :
    (s.remoteData r bs mask record intact).fuses = s.fuses := by
  simp -implicitDefEqProofs [State.remoteData]

@[simp] theorem execReadData_neverLowers (s : State) (a p) : NeverLowers s (execReadData a p s) := by
  fun_cases execReadData a p s <;> simp +zetaDelta -implicitDefEqProofs [fuses_of_eq ‹_ = (_, _)›]

@[simp] theorem execWriteDone_neverLowers (s : State) (x) : NeverLowers s (execWriteDone x s) := by
  fun_cases execWriteDone x s <;> simp +zetaDelta -implicitDefEqProofs [fuses_of_eq ‹_ = (_, _)›]

@[simp] theorem execFaultRsp_neverLowers (s : State) (x) : NeverLowers s (execFaultRsp x s) := by
  fun_cases execFaultRsp x s <;> simp +zetaDelta -implicitDefEqProofs [fuses_of_eq ‹_ = (_, _)›]

@[simp] theorem State.moverTimeout_fuses (s : State) (tag) : (s.moverTimeout tag).fuses = s.fuses := by
  fun_cases State.moverTimeout s tag <;> simp +zetaDelta -implicitDefEqProofs

@[simp] theorem execRemoteTimeout_neverLowers (s : State) (tag) : NeverLowers s (execRemoteTimeout tag s) := by
  unfold execRemoteTimeout
  split <;> simp -implicitDefEqProofs

@[simp] theorem State.exchangeFault_fuses (s : State) (f c) : (s.exchangeFault f c).fuses = s.fuses := by
  simp -implicitDefEqProofs [State.exchangeFault]

@[simp] theorem State.exchangePut_fuses (s : State) (f c line p crcOk) : (s.exchangePut f c line p crcOk).fuses = s.fuses := by
  simp -implicitDefEqProofs [State.exchangePut]

@[simp] theorem State.exchangeIn_fuses (s : State) (n f c slot p crcOk) : (s.exchangeIn n f c slot p crcOk).fuses = s.fuses := by
  simp -implicitDefEqProofs [State.exchangeIn]

@[simp] theorem execExchange_neverLowers (s : State) (a p) : NeverLowers s (execExchange a p s) := by
  fun_cases execExchange a p s <;> simp +zetaDelta -implicitDefEqProofs

/-! ### Memory commands -/

@[simp] theorem State.clearStart_fuses (s : State) (f v) : (s.clearStart f v).fuses = s.fuses := by
  simp -implicitDefEqProofs [State.clearStart]

@[simp] theorem execSrmFldClearStart_neverLowers (s : State) (f) : NeverLowers s (execSrmFldClearStart f s) := by
  simp -implicitDefEqProofs [execSrmFldClearStart]

@[simp] theorem State.clearDone_fuses (s : State) (f) : (s.clearDone f).fuses = s.fuses := by
  simp -implicitDefEqProofs [State.clearDone]

@[simp] theorem execFieldClearDone_neverLowers (s : State) (f) : NeverLowers s (execFieldClearDone f s) := by
  simp -implicitDefEqProofs [execFieldClearDone]

@[simp] theorem execSramScrub_neverLowers (s : State) (f w line) : NeverLowers s (execSramScrub f w line s) := by
  fun_cases execSramScrub f w line s <;> simp +zetaDelta -implicitDefEqProofs

@[simp] theorem execLpddrScrub_neverLowers (s : State) (line) : NeverLowers s (execLpddrScrub line s) := by
  fun_cases execLpddrScrub line s <;> simp +zetaDelta -implicitDefEqProofs

@[simp] theorem State.invalidate_fuses (s : State) (n va) : (s.invalidate n va).fuses = s.fuses := by
  simp -implicitDefEqProofs [State.invalidate]

@[simp] theorem State.invalStart_fuses (s : State) (n all va) : (s.invalStart n all va).fuses = s.fuses := by
  simp -implicitDefEqProofs [State.invalStart]

@[simp] theorem execMmuSlotInvalStart_neverLowers (s : State) (n all page) : NeverLowers s (execMmuSlotInvalStart n all page s) := by
  simp -implicitDefEqProofs [execMmuSlotInvalStart]

@[simp] theorem State.rootWrite_fuses (s : State) (n v) : (s.rootWrite n v).fuses = s.fuses := by
  simp -implicitDefEqProofs [State.rootWrite]

@[simp] theorem execMmuSlotRootWrite_neverLowers (s : State) (n root) : NeverLowers s (execMmuSlotRootWrite n root s) := by
  simp -implicitDefEqProofs [execMmuSlotRootWrite]

@[simp] theorem State.allocFrame_fst_fuses (s : State) (slice frame) : (s.allocFrame slice frame).1.fuses = s.fuses := by
  unfold State.allocFrame
  split <;> simp -implicitDefEqProofs

@[simp] theorem State.freeFrame_fst_fuses (s : State) (slice frame) : (s.freeFrame slice frame).1.fuses = s.fuses := by
  unfold State.freeFrame
  split <;> simp -implicitDefEqProofs

@[simp] theorem State.allocCmd_fuses (s : State) (free slice frame) : (s.allocCmd free slice frame).fuses = s.fuses := by
  simp -implicitDefEqProofs [State.allocCmd]

@[simp] theorem execLpdAllocate_neverLowers (s : State) (slice frame) : NeverLowers s (execLpdAllocate slice frame s) := by
  simp -implicitDefEqProofs [execLpdAllocate]

@[simp] theorem execLpdFree_neverLowers (s : State) (slice frame) : NeverLowers s (execLpdFree slice frame s) := by
  simp -implicitDefEqProofs [execLpdFree]

theorem State.allocFrames_fuses {s t : State} {slice n ks} (h : s.allocFrames slice n = some (t, ks)) : t.fuses = s.fuses := by
  have hall : ∀ p : State × List Nat, s.allocFrames slice n = some p → p.1.fuses = s.fuses := by
    unfold State.allocFrames
    dsimp only
    split
    · simp
    · refine List.foldlRecOn (motive := fun o => ∀ p : State × List Nat, o = some p → p.1.fuses = s.fuses) _ _ (by simp)
        fun o ih k _ => ?_
      split
      · split <;> rename_i h
        · simpa -implicitDefEqProofs [fuses_of_eq h] using ih
        · simp
      · simp
  exact hall _ h

@[simp] theorem State.putEntry_fuses (s : State) (o e) : (s.putEntry o e).fuses = s.fuses := by
  simp -implicitDefEqProofs [State.putEntry]

@[simp] theorem State.mapPage_fuses (s : State) (n slice va target write) : (s.mapPage n slice va target write).fuses = s.fuses := by
  simp -implicitDefEqProofs [State.mapPage]

@[simp] theorem State.mapHuge_fuses (s : State) (n slice va target write) : (s.mapHuge n slice va target write).fuses = s.fuses := by
  simp -implicitDefEqProofs [State.mapHuge]

@[simp] theorem State.newRoot_fuses (s : State) (n e) : (s.newRoot n e).fuses = s.fuses := by
  simp -implicitDefEqProofs [State.newRoot]

/-! ### The mesh -/

@[simp] theorem State.service_fuses (s : State) (cause) : (s.service cause).fuses = s.fuses := by
  simp -implicitDefEqProofs [State.service]

@[simp] theorem State.serviceOver_fuses (s : State) (cause) : (s.serviceOver cause).fuses = s.fuses := by
  simp -implicitDefEqProofs [State.serviceOver]

@[simp] theorem State.refreshCond_fuses (s : State) : s.refreshCond.fuses = s.fuses := by
  simp -implicitDefEqProofs [State.refreshCond]

@[simp] theorem State.refreshTest_fuses (s : State) (f) : (s.refreshTest f).fuses = s.fuses := by
  simp -implicitDefEqProofs [State.refreshTest]

@[simp] theorem State.dropTests_fuses (s : State) (f) : (s.dropTests f).fuses = s.fuses := by
  simp -implicitDefEqProofs [State.dropTests]

@[simp] theorem State.saveRepairs_fuses (s : State) : s.saveRepairs.fuses = s.fuses := by
  simp -implicitDefEqProofs [State.saveRepairs]

@[simp] theorem State.rotateMap_fuses (s : State) (f c) : (s.rotateMap f c).fuses = s.fuses := by
  simp -implicitDefEqProofs [State.rotateMap]

@[simp] theorem State.shiftMap_fuses (s : State) (f c p) : (s.shiftMap f c p).fuses = s.fuses := by
  simp -implicitDefEqProofs [State.shiftMap]

@[simp] theorem State.cleanCheck_fuses (s : State) (f core) : (s.cleanCheck f core).fuses = s.fuses := by
  simp -implicitDefEqProofs [State.cleanCheck]

@[simp] theorem State.remapped_fuses (s old : State) (f c) : (s.remapped old f c).fuses = s.fuses := by
  simp -implicitDefEqProofs [State.remapped]

@[simp] theorem State.retireField_fuses (s : State) (f state cause) : (s.retireField f state cause).fuses = s.fuses := by
  simp -implicitDefEqProofs [State.retireField]

@[simp] theorem State.dropShifts_fuses (s : State) (f c) : (s.dropShifts f c).fuses = s.fuses := by
  simp -implicitDefEqProofs [State.dropShifts]

@[simp] theorem State.consumeSpare_fuses (s : State) (f c) : (s.consumeSpare f c).fuses = s.fuses := by
  simp -implicitDefEqProofs [State.consumeSpare]

@[simp] theorem State.fenceRow_fuses (s : State) (f c p) : (s.fenceRow f c p).fuses = s.fuses := by
  simp -implicitDefEqProofs [State.fenceRow]

@[simp] theorem State.logRepair_fuses (s : State) (f c p op) : (s.logRepair f c p op).fuses = s.fuses := by
  simp -implicitDefEqProofs [State.logRepair]

@[simp] theorem State.rotateEnds_fuses (s : State) (f c) : (s.rotateEnds f c).fuses = s.fuses := by
  simp -implicitDefEqProofs [State.rotateEnds]

@[simp] theorem State.applyOp_fuses (s : State) (o) : (s.applyOp o).fuses = s.fuses := by
  simp -implicitDefEqProofs only [State.applyOp, State.remapped_fuses]
  split <;> simp -implicitDefEqProofs

@[simp] theorem State.beginOp_fuses (s : State) (o) : (s.beginOp o).fuses = s.fuses := by
  simp -implicitDefEqProofs [State.beginOp]

@[simp] theorem execRotationDue_neverLowers (s : State) (f c) : NeverLowers s (execRotationDue f c s) := by
  simp -implicitDefEqProofs [execRotationDue]

@[simp] theorem State.moveDone_fuses (s : State) (f c) : (s.moveDone f c).fuses = s.fuses := by
  fun_cases State.moveDone s f c <;> simp +zetaDelta -implicitDefEqProofs

@[simp] theorem execStateMoveDone_neverLowers (s : State) (f c) : NeverLowers s (execStateMoveDone f c s) := by
  simp -implicitDefEqProofs [execStateMoveDone]

@[simp] theorem State.addRepair_fuses (s : State) (f col prow k command) : (s.addRepair f col prow k command).fuses = s.fuses := by
  simp -implicitDefEqProofs [State.addRepair]

@[simp] theorem State.fenceStart_fuses (s : State) (f col prow command) : (s.fenceStart f col prow command).fuses = s.fuses := by
  unfold State.fenceStart
  split <;> simp -implicitDefEqProofs

@[simp] theorem State.meshCmd_fuses (s : State) (f op col prow) : (s.meshCmd f op col prow).fuses = s.fuses := by
  fun_cases State.meshCmd s f op col prow <;> simp +zetaDelta -implicitDefEqProofs

@[simp] theorem execDirectedShift_neverLowers (s : State) (f col prow) : NeverLowers s (execDirectedShift f col prow s) := by
  simp -implicitDefEqProofs [execDirectedShift]

@[simp] theorem execFenceSpare_neverLowers (s : State) (f col prow) : NeverLowers s (execFenceSpare f col prow s) := by
  simp -implicitDefEqProofs [execFenceSpare]

@[simp] theorem execFenceCore_neverLowers (s : State) (f col prow) : NeverLowers s (execFenceCore f col prow s) := by
  simp -implicitDefEqProofs [execFenceCore]

@[simp] theorem execRetireField_neverLowers (s : State) (f) : NeverLowers s (execRetireField f s) := by
  simp -implicitDefEqProofs [execRetireField]

@[simp] theorem State.markCore_fuses (s : State) (f core) : (s.markCore f core).fuses = s.fuses := by
  unfold State.markCore
  split <;> simp -implicitDefEqProofs

@[simp] theorem execCoreMarkedForTest_neverLowers (s : State) (a) : NeverLowers s (execCoreMarkedForTest a s) := by
  simp -implicitDefEqProofs [execCoreMarkedForTest]

end Sys2Proof.Machine
end

section

/-!
PROOF. The fuses kept (R418): the links, the servo and the light deck.
-/
namespace Sys2Proof.Machine

/-! ### Links and lanes -/

@[simp] theorem State.enterTime_fuses (s : State) (st why) : (s.enterTime st why).fuses = s.fuses := by
  simp -implicitDefEqProofs [State.enterTime]

@[simp] theorem State.sourceLost_fuses (s : State) (why) : (s.sourceLost why).fuses = s.fuses := by
  simp -implicitDefEqProofs [State.sourceLost]

@[simp] theorem State.sourceFound_fuses (s : State) (why) : (s.sourceFound why).fuses = s.fuses := by
  simp -implicitDefEqProofs [State.sourceFound]

@[simp] theorem State.reparent_fuses (s : State) : s.reparent.fuses = s.fuses := by
  unfold State.reparent
  repeat' split
  all_goals simp -implicitDefEqProofs

@[simp] theorem State.laneTrain_fuses (s : State) (l) : (s.laneTrain l).fuses = s.fuses := by
  simp -implicitDefEqProofs [State.laneTrain]

@[simp] theorem State.routeState_fuses (s : State) (n v) : (s.routeState n v).fuses = s.fuses := by
  simp -implicitDefEqProofs [State.routeState]

@[simp] theorem State.markUsers_fuses (s : State) (n) : (s.markUsers n).fuses = s.fuses := by
  simp -implicitDefEqProofs [State.markUsers]

@[simp] theorem State.beginTraining_fuses (s : State) (n st) : (s.beginTraining n st).fuses = s.fuses := by
  simp -implicitDefEqProofs [State.beginTraining]

@[simp] theorem State.sendRetrain_fuses (s : State) (n) : (s.sendRetrain n).fuses = s.fuses := by
  simp -implicitDefEqProofs [State.sendRetrain]

@[simp] theorem State.retrain_fuses (s : State) (n cause) : (s.retrain n cause).fuses = s.fuses := by
  simp -implicitDefEqProofs [State.retrain]

@[simp] theorem State.linkGoesDown_fuses (s : State) (n cause) : (s.linkGoesDown n cause).fuses = s.fuses := by
  simp -implicitDefEqProofs [State.linkGoesDown]

@[simp] theorem State.laneOut_fuses (s : State) (l) : (s.laneOut l).fuses = s.fuses := by
  unfold State.laneOut
  split <;> simp -implicitDefEqProofs

@[simp] theorem State.laneGoesDark_fuses (s : State) (l) : (s.laneGoesDark l).fuses = s.fuses := by
  simp -implicitDefEqProofs [State.laneGoesDark]

@[simp] theorem State.laneRetrains_fuses (s : State) (l) : (s.laneRetrains l).fuses = s.fuses := by
  simp -implicitDefEqProofs [State.laneRetrains]

@[simp] theorem State.laneFails_fuses (s : State) (l code) : (s.laneFails l code).fuses = s.fuses := by
  simp -implicitDefEqProofs [State.laneFails]

@[simp] theorem State.admitLane_fuses (s : State) (n l) : (s.admitLane n l).fuses = s.fuses := by
  simp -implicitDefEqProofs [State.admitLane]

@[simp] theorem State.joinLanes_fuses (s : State) : s.joinLanes.fuses = s.fuses := by
  refine foldl_fuses (fun s l => ?_) _ s
  split
  · split <;> simp -implicitDefEqProofs
  · rfl

/-! ### The mirror servo -/

@[simp] theorem State.restMirror_fuses (s : State) (m isOpen st) : (s.restMirror m isOpen st).fuses = s.fuses := by
  simp -implicitDefEqProofs [State.restMirror]

@[simp] theorem State.tapIn_fuses (s : State) (i p) : (s.tapIn i p).fuses = s.fuses := by
  simp -implicitDefEqProofs [State.tapIn]

@[simp] theorem State.tapOut_fuses (s : State) (o p) : (s.tapOut o p).fuses = s.fuses := by
  simp -implicitDefEqProofs [State.tapOut]

@[simp] theorem State.tapInDark_fuses (s : State) (i) : (s.tapInDark i).fuses = s.fuses := by
  simp -implicitDefEqProofs [State.tapInDark]

@[simp] theorem State.tapOutDark_fuses (s : State) (o) : (s.tapOutDark o).fuses = s.fuses := by
  simp -implicitDefEqProofs [State.tapOutDark]

@[simp] theorem State.lightOut_fuses (s : State) (o) : (s.lightOut o).fuses = s.fuses := by
  simp -implicitDefEqProofs [State.lightOut]

@[simp] theorem State.laneUnlit_fuses (s : State) (l) : (s.laneUnlit l).fuses = s.fuses := by
  simp -implicitDefEqProofs [State.laneUnlit]

@[simp] theorem State.laneLit_fuses (s : State) (l) : (s.laneLit l).fuses = s.fuses := by
  simp -implicitDefEqProofs [State.laneLit]

@[simp] theorem State.lasersOn_fuses (s : State) : s.lasersOn.fuses = s.fuses := by
  simp -implicitDefEqProofs [State.lasersOn]

@[simp] theorem State.setFaulted_fuses (s : State) : s.setFaulted.fuses = s.fuses := by
  simp -implicitDefEqProofs [State.setFaulted]

@[simp] theorem State.movePaths_fuses (s : State) (outs) : (s.movePaths outs).fuses = s.fuses := by
  simp -implicitDefEqProofs [State.movePaths]

@[simp] theorem State.servoFaultNote_fuses (s : State) (a code) : (s.servoFaultNote a code).fuses = s.fuses := by
  simp -implicitDefEqProofs [State.servoFaultNote]

@[simp] theorem State.failPath_fuses (s : State) (o a code) : (s.failPath o a code).fuses = s.fuses := by
  simp -implicitDefEqProofs [State.failPath]

@[simp] theorem State.failAll_fuses (s : State) (code) : (s.failAll code).fuses = s.fuses := by
  simp -implicitDefEqProofs [State.failAll]

@[simp] theorem State.axisTick_fuses (s : State) (volts samples a) : (State.axisTick volts samples s a).fuses = s.fuses := by
  simp -implicitDefEqProofs [State.axisTick]

@[simp] theorem State.supplyTick_fuses (s : State) (volts) : (s.supplyTick volts).fuses = s.fuses := by
  fun_cases State.supplyTick s volts <;> simp +zetaDelta -implicitDefEqProofs

@[simp] theorem State.servoTick_fuses (s : State) (raw samples) : (s.servoTick raw samples).fuses = s.fuses := by
  simp -implicitDefEqProofs [State.servoTick]

/-! ### The light deck -/

@[simp] theorem State.countPaths_fuses (s : State) : s.countPaths.fuses = s.fuses := by
  simp -implicitDefEqProofs [State.countPaths]

@[simp] theorem State.closeLinks_fuses (s : State) (ns) : (s.closeLinks ns).fuses = s.fuses := by
  simp -implicitDefEqProofs [State.closeLinks]

@[simp] theorem State.deckStart_fuses (s : State) (count) : (s.deckStart count).fuses = s.fuses := by
  simp -implicitDefEqProofs [State.deckStart]

@[simp] theorem execPathSetStart_neverLowers (s : State) (count) : NeverLowers s (execPathSetStart count s) := by
  simp -implicitDefEqProofs [execPathSetStart]

@[simp] theorem State.clearAxis_fuses (s : State) (a) : (s.clearAxis a).fuses = s.fuses := by
  simp -implicitDefEqProofs [State.clearAxis]

@[simp] theorem State.removePath_fuses (s : State) (o) : (s.removePath o).fuses = s.fuses := by
  simp -implicitDefEqProofs [State.removePath]

@[simp] theorem State.addPath_fuses (s : State) (e) : (s.addPath e).fuses = s.fuses := by
  simp -implicitDefEqProofs [State.addPath]

@[simp] theorem State.deckIdle_fuses (s : State) : s.deckIdle.fuses = s.fuses := by
  unfold State.deckIdle
  split <;> simp -implicitDefEqProofs

@[simp] theorem State.beginSet_fuses (s : State) (d) : (s.beginSet d).fuses = s.fuses := by
  simp -implicitDefEqProofs [State.beginSet]

@[simp] theorem execSetStartTick_neverLowers (s : State) : NeverLowers s (execSetStartTick s) := by
  unfold execSetStartTick
  split <;> simp -implicitDefEqProofs

@[simp] theorem State.pathSettled_fuses (s : State) (o pin pout) : (s.pathSettled o pin pout).fuses = s.fuses := by
  simp -implicitDefEqProofs [State.pathSettled]

@[simp] theorem execPathSettled_neverLowers (s : State) (o pin pout) : NeverLowers s (execPathSettled o pin pout s) := by
  simp -implicitDefEqProofs [execPathSettled]

@[simp] theorem State.countSwap_fuses (s : State) (l) : (s.countSwap l).fuses = s.fuses := by
  unfold State.countSwap
  split <;> simp -implicitDefEqProofs

@[simp] theorem State.swapNow_fuses (s : State) (l face p q) : (s.swapNow l face p q).fuses = s.fuses := by
  simp -implicitDefEqProofs [State.swapNow]

@[simp] theorem State.swapPairs_fuses (s : State) (l face p q) : (s.swapPairs l face p q).fuses = s.fuses := by
  simp -implicitDefEqProofs [State.swapPairs]

@[simp] theorem State.swapFails_fuses (s : State) (l) : (s.swapFails l).fuses = s.fuses := by
  unfold State.swapFails
  split <;> simp -implicitDefEqProofs

@[simp] theorem State.swapsDue_fuses (s : State) : s.swapsDue.fuses = s.fuses := by
  simp -implicitDefEqProofs [State.swapsDue]

@[simp] theorem State.parkOn_fuses (s : State) : s.parkOn.fuses = s.fuses := by
  simp -implicitDefEqProofs [State.parkOn]

@[simp] theorem State.parkOff_fuses (s : State) : s.parkOff.fuses = s.fuses := by
  simp -implicitDefEqProofs [State.parkOff]

@[simp] theorem execPark_neverLowers (s : State) : NeverLowers s (execPark s) := by
  simp -implicitDefEqProofs [execPark]

@[simp] theorem State.unpark_fuses (s : State) : s.unpark.fuses = s.fuses := by
  simp -implicitDefEqProofs [State.unpark]

@[simp] theorem execUnpark_neverLowers (s : State) : NeverLowers s (execUnpark s) := by
  simp -implicitDefEqProofs [execUnpark]

@[simp] theorem State.parkDeck_fuses (s : State) : s.parkDeck.fuses = s.fuses := by
  simp -implicitDefEqProofs [State.parkDeck]

@[simp] theorem execParking_neverLowers (s : State) : NeverLowers s (execParking s) := by
  unfold execParking
  split <;> simp -implicitDefEqProofs

@[simp] theorem execDeckParked_neverLowers (s : State) : NeverLowers s (execDeckParked s) := by
  simp -implicitDefEqProofs [execDeckParked]

@[simp] theorem State.resetBlock_fuses (s : State) (b) : (s.resetBlock b).fuses = s.fuses := by
  simp -implicitDefEqProofs [State.resetBlock]

@[simp] theorem State.deckReset_fuses (s : State) : s.deckReset.fuses = s.fuses := by
  simp -implicitDefEqProofs [State.deckReset]

@[simp] theorem execDetached_neverLowers (s : State) : NeverLowers s (execDetached s) := by
  simp -implicitDefEqProofs [execDetached]

@[simp] theorem execTicksReturn_neverLowers (s : State) : NeverLowers s (execTicksReturn s) := by
  simp -implicitDefEqProofs [execTicksReturn]

@[simp] theorem State.realignTick_fuses (s : State) : s.realignTick.fuses = s.fuses := by
  unfold State.realignTick
  split <;> simp -implicitDefEqProofs

@[simp] theorem State.loseAxis_fuses (s : State) (o a) : (s.loseAxis o a).fuses = s.fuses := by
  simp -implicitDefEqProofs [State.loseAxis]

@[simp] theorem execAxisLost_neverLowers (s : State) (a) : NeverLowers s (execAxisLost a s) := by
  unfold execAxisLost
  split <;> simp -implicitDefEqProofs

@[simp] theorem State.servoFault_fuses (s : State) (a code) : (s.servoFault a code).fuses = s.fuses := by
  fun_cases State.servoFault s a code <;> simp +zetaDelta -implicitDefEqProofs

@[simp] theorem execServoFault_neverLowers (s : State) (a code) : NeverLowers s (execServoFault a code s) := by
  simp -implicitDefEqProofs [execServoFault]

@[simp] theorem execSupplyRecovered_neverLowers (s : State) : NeverLowers s (execSupplyRecovered s) := by
  simp -implicitDefEqProofs [execSupplyRecovered]

@[simp] theorem State.axisClear_fuses (s : State) (a v) : (s.axisClear a v).fuses = s.fuses := by
  simp -implicitDefEqProofs [State.axisClear]

@[simp] theorem execAxisClear_neverLowers (s : State) (a) : NeverLowers s (execAxisClear a s) := by
  simp -implicitDefEqProofs [execAxisClear]

@[simp] theorem State.deckTick_fuses (s : State) : s.deckTick.fuses = s.fuses := by
  unfold State.deckTick
  split <;> simp -implicitDefEqProofs

/-! ### The link protocol -/

@[simp] theorem State.takeHeader_fuses (s : State) (n f) : (s.takeHeader n f).fuses = s.fuses := by
  simp -implicitDefEqProofs [State.takeHeader]

@[simp] theorem State.frameLost_fuses (s : State) (n) : (s.frameLost n).fuses = s.fuses := by
  simp -implicitDefEqProofs [State.frameLost]

@[simp] theorem State.deliver_fuses (s : State) (n v fs) : (s.deliver n v fs).fuses = s.fuses := by
  unfold State.deliver
  split <;> simp -implicitDefEqProofs

@[simp] theorem State.auditRetrain_fuses (s : State) (n) : (s.auditRetrain n).fuses = s.fuses := by
  simp -implicitDefEqProofs [State.auditRetrain]

@[simp] theorem State.auditFailure_fuses (s : State) (n v equation) : (s.auditFailure n v equation).fuses = s.fuses := by
  simp -implicitDefEqProofs [State.auditFailure]

@[simp] theorem State.takeData_fuses (s : State) (n f) : (s.takeData n f).fuses = s.fuses := by
  simp -implicitDefEqProofs [State.takeData]

@[simp] theorem State.auditCheck_fuses (s : State) (n payload) : (s.auditCheck n payload).fuses = s.fuses := by
  simp -implicitDefEqProofs [State.auditCheck]

@[simp] theorem State.takeSeq_fuses (s : State) (n f) : (s.takeSeq n f).fuses = s.fuses := by
  simp -implicitDefEqProofs [State.takeSeq]

@[simp] theorem State.drainHold_fuses (s : State) (n fuel) : (s.drainHold n fuel).fuses = s.fuses := by
  fun_induction State.drainHold s n fuel <;> simp -implicitDefEqProofs [*]

@[simp] theorem State.sequenced_fuses (s : State) (n f) : (s.sequenced n f).fuses = s.fuses := by
  simp -implicitDefEqProofs [State.sequenced]

@[simp] theorem execDataFrame_neverLowers (s : State) (n f) : NeverLowers s (execDataFrame n f s) := by
  simp -implicitDefEqProofs [execDataFrame]

@[simp] theorem execAuditFrame_neverLowers (s : State) (n f) : NeverLowers s (execAuditFrame n f s) := by
  simp -implicitDefEqProofs [execAuditFrame]

@[simp] theorem execIdleFrame_neverLowers (s : State) (n f) : NeverLowers s (execIdleFrame n f s) := by
  simp -implicitDefEqProofs [execIdleFrame]

@[simp] theorem State.resendAll_fuses (s : State) (n) : (s.resendAll n).fuses = s.fuses := by
  simp -implicitDefEqProofs [State.resendAll]

@[simp] theorem execNakFrame_neverLowers (s : State) (n f) : NeverLowers s (execNakFrame n f s) := by
  simp -implicitDefEqProofs [execNakFrame]

@[simp] theorem execNakGapTimeout_neverLowers (s : State) (n) : NeverLowers s (execNakGapTimeout n s) := by
  unfold execNakGapTimeout
  split <;> simp -implicitDefEqProofs

@[simp] theorem State.laneRestart_fuses (s : State) (l code) : (s.laneRestart l code).fuses = s.fuses := by
  simp -implicitDefEqProofs [State.laneRestart]

@[simp] theorem State.sendCredits_fuses (s : State) (n) : (s.sendCredits n).fuses = s.fuses := by
  fun_cases State.sendCredits s n <;> simp +zetaDelta -implicitDefEqProofs

@[simp] theorem State.isolate_fuses (s : State) (n l st x) : (s.isolate n l st x).fuses = s.fuses := by
  simp -implicitDefEqProofs [State.isolate]

@[simp] theorem State.sendEcho_fuses (s : State) (n l peer stay) : (s.sendEcho n l peer stay).fuses = s.fuses := by
  simp -implicitDefEqProofs [State.sendEcho]

@[simp] theorem State.identified_fuses (s : State) (l x) : (s.identified l x).fuses = s.fuses := by
  fun_cases State.identified s l x <;> simp +zetaDelta -implicitDefEqProofs

@[simp] theorem State.laneFrameLost_fuses (s : State) (l) : (s.laneFrameLost l).fuses = s.fuses := by
  unfold State.laneFrameLost
  split <;> simp -implicitDefEqProofs

@[simp] theorem State.peerTrains_fuses (s : State) (l) : (s.peerTrains l).fuses = s.fuses := by
  unfold State.peerTrains
  split <;> simp -implicitDefEqProofs

@[simp] theorem execIdentFrame_neverLowers (s : State) (l f) : NeverLowers s (execIdentFrame l f s) := by
  simp -implicitDefEqProofs [execIdentFrame]

@[simp] theorem State.sendIdent_fuses (s : State) (l) : (s.sendIdent l).fuses = s.fuses := by
  unfold State.sendIdent
  split <;> simp -implicitDefEqProofs

@[simp] theorem State.lightIn_fuses (s : State) (l power) : (s.lightIn l power).fuses = s.fuses := by
  simp -implicitDefEqProofs [State.lightIn]

@[simp] theorem State.laneLights_fuses (s : State) (l) : (s.laneLights l).fuses = s.fuses := by
  fun_cases State.laneLights s l <;> simp +zetaDelta -implicitDefEqProofs

@[simp] theorem State.opticsOn_fuses (s : State) : s.opticsOn.fuses = s.fuses := by
  simp -implicitDefEqProofs [State.opticsOn]

@[simp] theorem execLightPresent_neverLowers (s : State) (l power) : NeverLowers s (execLightPresent l power s) := by
  simp -implicitDefEqProofs [execLightPresent]

@[simp] theorem State.fecTick_fuses (s : State) (c) : (s.fecTick c).fuses = s.fuses := by
  simp -implicitDefEqProofs [State.fecTick]

@[simp] theorem execFecLock_neverLowers (s : State) (c) : NeverLowers s (execFecLock c s) := by
  simp -implicitDefEqProofs [execFecLock]

@[simp] theorem execTrainingRestart_neverLowers (s : State) (l) : NeverLowers s (execTrainingRestart l s) := by
  fun_cases execTrainingRestart l s
  · simp +zetaDelta -implicitDefEqProofs only [neverLowers_next, State.laneRestart_fuses]
    split <;> simp -implicitDefEqProofs
  · simp

@[simp] theorem State.roundTrip_fuses (s : State) (n l f arrived) : (s.roundTrip n l f arrived).fuses = s.fuses := by
  simp -implicitDefEqProofs [State.roundTrip]

@[simp] theorem execEchoFrame_neverLowers (s : State) (l f arrived) : NeverLowers s (execEchoFrame l f arrived s) := by
  unfold execEchoFrame
  repeat' split
  all_goals simp -implicitDefEqProofs

@[simp] theorem State.takeCredits_fuses (s : State) (n f g) : (s.takeCredits n f g).fuses = s.fuses := by
  simp -implicitDefEqProofs [State.takeCredits]

@[simp] theorem execCreditInitFrame_neverLowers (s : State) (n f v0 v1 v2 v3) :
    NeverLowers s (execCreditInitFrame n f v0 v1 v2 v3 s) := by
  simp -implicitDefEqProofs [execCreditInitFrame]

@[simp] theorem State.linkComesUp_fuses (s : State) (n) : (s.linkComesUp n).fuses = s.fuses := by
  simp -implicitDefEqProofs [State.linkComesUp]

@[simp] theorem execLinkUp_neverLowers (s : State) (n) : NeverLowers s (execLinkUp n s) := by
  simp -implicitDefEqProofs [execLinkUp]

@[simp] theorem execTrainingDeadline_neverLowers (s : State) (n) : NeverLowers s (execTrainingDeadline n s) := by
  simp -implicitDefEqProofs [execTrainingDeadline]

@[simp] theorem State.lightLost_fuses (s : State) (l) : (s.lightLost l).fuses = s.fuses := by
  simp -implicitDefEqProofs [State.lightLost]

@[simp] theorem execLaneLoss_neverLowers (s : State) (l light) : NeverLowers s (execLaneLoss l light s) := by
  simp -implicitDefEqProofs [execLaneLoss]

@[simp] theorem execLinkRetrain_neverLowers (s : State) (n cause) : NeverLowers s (execLinkRetrain n cause s) := by
  simp -implicitDefEqProofs [execLinkRetrain]

@[simp] theorem execRetrainFrame_neverLowers (s : State) (n f) : NeverLowers s (execRetrainFrame n f s) := by
  simp -implicitDefEqProofs [execRetrainFrame]

@[simp] theorem State.retrainCmd_fuses (s : State) (n v) : (s.retrainCmd n v).fuses = s.fuses := by
  simp -implicitDefEqProofs [State.retrainCmd]

@[simp] theorem execRetrainCommand_neverLowers (s : State) (n) : NeverLowers s (execRetrainCommand n s) := by
  simp -implicitDefEqProofs [execRetrainCommand]

@[simp] theorem State.clearCmd_fuses (s : State) (n v) : (s.clearCmd n v).fuses = s.fuses := by
  simp -implicitDefEqProofs [State.clearCmd]

@[simp] theorem execClearCommand_neverLowers (s : State) (n) : NeverLowers s (execClearCommand n s) := by
  simp -implicitDefEqProofs [execClearCommand]

@[simp] theorem execOpticalEngineFailed_neverLowers (s : State) (e) : NeverLowers s (execOpticalEngineFailed e s) := by
  simp -implicitDefEqProofs [execOpticalEngineFailed]

@[simp] theorem execRetrainFailed_neverLowers (s : State) (n) : NeverLowers s (execRetrainFailed n s) := by
  simp -implicitDefEqProofs [execRetrainFailed]

@[simp] theorem State.enableLink_fuses (s : State) (n on) : (s.enableLink n on).fuses = s.fuses := by
  simp -implicitDefEqProofs [State.enableLink]

@[simp] theorem State.linkCfg_fuses (s : State) (n v) : (s.linkCfg n v).fuses = s.fuses := by
  simp -implicitDefEqProofs [State.linkCfg]

@[simp] theorem State.auditInsert_fuses (s : State) (n) : (s.auditInsert n).fuses = s.fuses := by
  simp -implicitDefEqProofs [State.auditInsert]

@[simp] theorem State.trainingSends_fuses (s : State) : s.trainingSends.fuses = s.fuses := by
  simp -implicitDefEqProofs [State.trainingSends]

@[simp] theorem State.fecInterval_fuses (s : State) (l) : (s.fecInterval l).fuses = s.fuses := by
  simp -implicitDefEqProofs [State.fecInterval]

@[simp] theorem State.newBudgets_fuses (s : State) (n) : (s.newBudgets n).fuses = s.fuses := by
  simp -implicitDefEqProofs [State.newBudgets]

@[simp] theorem State.sharesTick_fuses (s : State) : s.sharesTick.fuses = s.fuses := by
  simp -implicitDefEqProofs [State.sharesTick]

@[simp] theorem State.linksTick_fuses (s : State) (fec) : (s.linksTick fec).fuses = s.fuses := by
  simp -implicitDefEqProofs [State.linksTick]

end Sys2Proof.Machine
end

section

/-!
PROOF. The fuses kept (R418): machine time, placement, power, images and the front-end rings.
-/
namespace Sys2Proof.Machine

/-! ### Machine time -/

@[simp] theorem State.sourceChosen_fuses (s : State) : s.sourceChosen.fuses = s.fuses := by
  simp -implicitDefEqProofs [State.sourceChosen]

@[simp] theorem State.timeCtrl_fuses (s : State) (v) : (s.timeCtrl v).fuses = s.fuses := by
  simp -implicitDefEqProofs [State.timeCtrl]

@[simp] theorem State.noteOffset_fuses (s : State) (off) : (s.noteOffset off).fuses = s.fuses := by
  simp -implicitDefEqProofs [State.noteOffset]

@[simp] theorem State.takeOffset_fuses (s : State) (off) : (s.takeOffset off).fuses = s.fuses := by
  simp -implicitDefEqProofs [State.takeOffset]

@[simp] theorem State.reference_fuses (s : State) (off anchor ticks time differs) :
    (s.reference off anchor ticks time differs).fuses = s.fuses := by
  simp -implicitDefEqProofs [State.reference]

@[simp] theorem State.stepPassed_fuses (s : State) : s.stepPassed.fuses = s.fuses := by
  unfold State.stepPassed
  split <;> simp -implicitDefEqProofs

@[simp] theorem State.periodClear_fuses (s : State) : s.periodClear.fuses = s.fuses := by
  simp -implicitDefEqProofs [State.periodClear]

@[simp] theorem State.setTime_fuses (s : State) (t anchor count) : (s.setTime t anchor count).fuses = s.fuses := by
  simp -implicitDefEqProofs [State.setTime]

@[simp] theorem State.stepped_fuses (s : State) (off) : (s.stepped off).fuses = s.fuses := by
  fun_cases State.stepped s off <;> simp +zetaDelta -implicitDefEqProofs

@[simp] theorem State.timeStep_fuses (s : State) (st) : (s.timeStep st).fuses = s.fuses := by
  simp -implicitDefEqProofs [State.timeStep]

@[simp] theorem State.timeTick_fuses (s : State) : s.timeTick.fuses = s.fuses := by
  simp -implicitDefEqProofs only [State.timeTick, State.updTime_fuses]
  split <;> simp -implicitDefEqProofs

@[simp] theorem State.measurementLost_fuses (s : State) : s.measurementLost.fuses = s.fuses := by
  simp -implicitDefEqProofs [State.measurementLost]

@[simp] theorem State.sendTime_fuses (s : State) (n m) : (s.sendTime n m).fuses = s.fuses := by
  simp -implicitDefEqProofs [State.sendTime]

@[simp] theorem execTimeMeasure_neverLowers (s : State) : NeverLowers s (execTimeMeasure s) := by
  simp -implicitDefEqProofs [execTimeMeasure]

@[simp] theorem execMeasurementLost_neverLowers (s : State) : NeverLowers s (execMeasurementLost s) := by
  unfold execMeasurementLost
  split <;> simp -implicitDefEqProofs

@[simp] theorem execTime_neverLowers (s : State) (n m arrived leaves) : NeverLowers s (execTime n m arrived leaves s) := by
  unfold execTime
  repeat' split
  all_goals simp -implicitDefEqProofs

@[simp] theorem execHoldoverExpiry_neverLowers (s : State) : NeverLowers s (execHoldoverExpiry s) := by
  simp -implicitDefEqProofs [execHoldoverExpiry]

@[simp] theorem State.tickInBad_fuses (s : State) : s.tickInBad.fuses = s.fuses := by
  simp -implicitDefEqProofs [State.tickInBad]

@[simp] theorem State.tickIn_fuses (s : State) (t) : (s.tickIn t).fuses = s.fuses := by
  simp -implicitDefEqProofs [State.tickIn]

@[simp] theorem State.harnessLoad_fuses (s : State) (t) : (s.harnessLoad t).fuses = s.fuses := by
  simp -implicitDefEqProofs [State.harnessLoad]

@[simp] theorem execTickInEdge_neverLowers (s : State) (edge marker) : NeverLowers s (execTickInEdge edge marker s) := by
  unfold execTickInEdge
  repeat' split
  all_goals simp -implicitDefEqProofs

@[simp] theorem execRefclkLoss_neverLowers (s : State) : NeverLowers s (execRefclkLoss s) := by
  simp -implicitDefEqProofs [execRefclkLoss]

@[simp] theorem execRefclkReturn_neverLowers (s : State) : NeverLowers s (execRefclkReturn s) := by
  simp -implicitDefEqProofs [execRefclkReturn]

@[simp] theorem State.harnessArm_fuses (s : State) : s.harnessArm.fuses = s.fuses := by
  simp -implicitDefEqProofs [State.harnessArm]

@[simp] theorem execHarnessArm_neverLowers (s : State) : NeverLowers s (execHarnessArm s) := by
  simp -implicitDefEqProofs [execHarnessArm]

@[simp] theorem State.periodArm_fuses (s : State) (p) : (s.periodArm p).fuses = s.fuses := by
  simp -implicitDefEqProofs [State.periodArm]

@[simp] theorem State.periodCancel_fuses (s : State) : s.periodCancel.fuses = s.fuses := by
  unfold State.periodCancel
  split <;> simp -implicitDefEqProofs

@[simp] theorem State.ftkNext_fuses (s : State) (v) : (s.ftkNext v).fuses = s.fuses := by
  simp -implicitDefEqProofs [State.ftkNext]

@[simp] theorem execPeriodChangeArm_neverLowers (s : State) (period) : NeverLowers s (execPeriodChangeArm period s) := by
  simp -implicitDefEqProofs [execPeriodChangeArm]

@[simp] theorem execPeriodChangeCancel_neverLowers (s : State) : NeverLowers s (execPeriodChangeCancel s) := by
  simp -implicitDefEqProofs [execPeriodChangeCancel]

@[simp] theorem execPeriodChange_neverLowers (s : State) : NeverLowers s (execPeriodChange s) := by
  unfold execPeriodChange
  split <;> simp -implicitDefEqProofs

@[simp] theorem State.tsqPop_fuses (s : State) (q) : (s.tsqPop q).fuses = s.fuses := by
  simp -implicitDefEqProofs [State.tsqPop]

@[simp] theorem execTsqPop_neverLowers (s : State) (q) : NeverLowers s (execTsqPop q s) := by
  simp -implicitDefEqProofs [execTsqPop]

@[simp] theorem execPtpEventMessage_neverLowers (s : State) (port sent crossed tai) :
    NeverLowers s (execPtpEventMessage port sent crossed tai s) := by
  fun_cases execPtpEventMessage port sent crossed tai s <;> simp +zetaDelta -implicitDefEqProofs

/-! ### Tables of placement -/

@[simp] theorem State.writePlans_fuses (s : State) : s.writePlans.fuses = s.fuses := by
  simp -implicitDefEqProofs [State.writePlans]

@[simp] theorem State.placeSelf_fuses (s : State) : s.placeSelf.fuses = s.fuses := by
  simp -implicitDefEqProofs [State.placeSelf]

@[simp] theorem State.machineWrite_fuses (s : State) (v) : (s.machineWrite v).fuses = s.fuses := by
  simp -implicitDefEqProofs [State.machineWrite]

@[simp] theorem State.coordWrite_fuses (s : State) (v) : (s.coordWrite v).fuses = s.fuses := by
  simp -implicitDefEqProofs [State.coordWrite]

@[simp] theorem State.noteRoute_fuses (s : State) (r i) : (s.noteRoute r i).fuses = s.fuses := by
  simp -implicitDefEqProofs [State.noteRoute]

@[simp] theorem State.putRoute_fuses (s : State) (r i v) : (s.putRoute r i v).fuses = s.fuses := by
  simp -implicitDefEqProofs [State.putRoute]

@[simp] theorem State.tableWrite_fuses (s : State) (r e i v) : (s.tableWrite r e i v).fuses = s.fuses := by
  simp -implicitDefEqProofs [State.tableWrite]

@[simp] theorem State.epochUp_fuses (s : State) (e) : (s.epochUp e).fuses = s.fuses := by
  fun_cases State.epochUp s e <;> simp +zetaDelta -implicitDefEqProofs

@[simp] theorem State.epochUpSlice_fuses (s : State) (slice) : (s.epochUpSlice slice).fuses = s.fuses := by
  unfold State.epochUpSlice
  split <;> simp -implicitDefEqProofs

@[simp] theorem State.commitArm_fuses (s : State) (e t) : (s.commitArm e t).fuses = s.fuses := by
  simp -implicitDefEqProofs [State.commitArm]

@[simp] theorem execCommitArm_neverLowers (s : State) (e tick) : NeverLowers s (execCommitArm e tick s) := by
  simp -implicitDefEqProofs [execCommitArm]

@[simp] theorem State.commitNow_fuses (s : State) (e) : (s.commitNow e).fuses = s.fuses := by
  simp -implicitDefEqProofs only [State.commitNow, State.epochUp_fuses, State.setFld_fuses]
  refine foldl_fuses (fun s k => ?_) _ s
  split <;> simp -implicitDefEqProofs

@[simp] theorem execCommitTakesEffect_neverLowers (s : State) (e) : NeverLowers s (execCommitTakesEffect e s) := by
  simp -implicitDefEqProofs [execCommitTakesEffect]

@[simp] theorem State.commitsTick_fuses (s : State) : s.commitsTick.fuses = s.fuses := by
  simp -implicitDefEqProofs [State.commitsTick]

@[simp] theorem State.dropRoutes_fuses (s : State) (e) : (s.dropRoutes e).fuses = s.fuses := by
  simp -implicitDefEqProofs [State.dropRoutes]

@[simp] theorem State.dropPackets_fuses (s : State) (slice) : (s.dropPackets slice).fuses = s.fuses := by
  simp -implicitDefEqProofs [State.dropPackets]

@[simp] theorem State.giveField_fuses (s : State) (f slice) : (s.giveField f slice).fuses = s.fuses := by
  simp -implicitDefEqProofs [State.giveField]

@[simp] theorem State.takeField_fuses (s : State) (f) : (s.takeField f).fuses = s.fuses := by
  simp -implicitDefEqProofs [State.takeField]

@[simp] theorem State.ownerWritten_fuses (s : State) (f) : (s.ownerWritten f).fuses = s.fuses := by
  simp -implicitDefEqProofs [State.ownerWritten]

@[simp] theorem State.entryWritten_fuses (s : State) (e was) : (s.entryWritten e was).fuses = s.fuses := by
  simp -implicitDefEqProofs [State.entryWritten]

/-! ### The power arbiter -/

@[simp] theorem State.requestPre_fuses (s : State) (n c) : (s.requestPre n c).fuses = s.fuses := by
  simp -implicitDefEqProofs [State.requestPre]

@[simp] theorem State.freezePower_fuses (s : State) : s.freezePower.fuses = s.fuses := by
  simp -implicitDefEqProofs [State.freezePower]

@[simp] theorem State.powerClose_fuses (s : State) (closing) : (s.powerClose closing).fuses = s.fuses := by
  simp -implicitDefEqProofs [State.powerClose]

@[simp] theorem State.tokenSpend_fuses (s : State) (n spent) : (s.tokenSpend n spent).fuses = s.fuses := by
  simp -implicitDefEqProofs [State.tokenSpend]

@[simp] theorem State.stepTick_fuses (s : State) : s.stepTick.fuses = s.fuses := by
  fun_cases State.stepTick s <;> simp +zetaDelta -implicitDefEqProofs

@[simp] theorem State.budgetTick_fuses (s : State) : s.budgetTick.fuses = s.fuses := by
  simp -implicitDefEqProofs [State.budgetTick]

@[simp] theorem State.tokenAudit_fuses (s : State) (demand) : (s.tokenAudit demand).fuses = s.fuses := by
  simp -implicitDefEqProofs [State.tokenAudit]

@[simp] theorem State.tempTick_fuses (s : State) (dieMax) : (s.tempTick dieMax).fuses = s.fuses := by
  simp -implicitDefEqProofs [State.tempTick]

@[simp] theorem State.voltsSeen_fuses (s : State) (feed v) : (s.voltsSeen feed v).fuses = s.fuses := by
  simp -implicitDefEqProofs [State.voltsSeen]

@[simp] theorem State.feedSeen_fuses (s : State) (a b) : (s.feedSeen a b).fuses = s.fuses := by
  simp -implicitDefEqProofs [State.feedSeen]

@[simp] theorem execFeedReturn_neverLowers (s : State) (feed volts) : NeverLowers s (execFeedReturn feed volts s) := by
  simp -implicitDefEqProofs [execFeedReturn]

@[simp] theorem State.stepStuck_fuses (s : State) (cause) : (s.stepStuck cause).fuses = s.fuses := by
  simp -implicitDefEqProofs [State.stepStuck]

@[simp] theorem State.askSlower_fuses (s : State) (st cause) : (s.askSlower st cause).fuses = s.fuses := by
  simp -implicitDefEqProofs [State.askSlower]

@[simp] theorem State.stepSlower_fuses (s : State) (cause) : (s.stepSlower cause).fuses = s.fuses := by
  simp -implicitDefEqProofs [State.stepSlower]

@[simp] theorem execClockStepSlower_neverLowers (s : State) : NeverLowers s (execClockStepSlower s) := by
  simp -implicitDefEqProofs [execClockStepSlower]

@[simp] theorem execClockStepFaster_neverLowers (s : State) : NeverLowers s (execClockStepFaster s) := by
  simp -implicitDefEqProofs [execClockStepFaster]

@[simp] theorem execOverdraw_neverLowers (s : State) (mean frame ampsA ampsB) :
    NeverLowers s (execOverdraw mean frame ampsA ampsB s) := by
  simp -implicitDefEqProofs [execOverdraw]

@[simp] theorem State.ceilingWrite_fuses (s : State) (c) : (s.ceilingWrite c).fuses = s.fuses := by
  simp -implicitDefEqProofs [State.ceilingWrite]

@[simp] theorem execCeilingWrite_neverLowers (s : State) (c) : NeverLowers s (execCeilingWrite c s) := by
  simp -implicitDefEqProofs [execCeilingWrite]

/-! ### Images and their load -/

@[simp] theorem State.loadResult_fuses (s : State) (f code core) : (s.loadResult f code core).fuses = s.fuses := by
  simp -implicitDefEqProofs [State.loadResult]

@[simp] theorem State.loadStart_fuses (s : State) (f slot) : (s.loadStart f slot).fuses = s.fuses := by
  simp -implicitDefEqProofs [State.loadStart]

@[simp] theorem execSeqFldLoadStart_neverLowers (s : State) (f slot) : NeverLowers s (execSeqFldLoadStart f slot s) := by
  simp -implicitDefEqProofs [execSeqFldLoadStart]

@[simp] theorem State.loadField_fuses (s : State) (f n m) : (s.loadField f n m).fuses = s.fuses := by
  fun_cases State.loadField s f n m
  · exact State.loadResult_fuses ..
  · rw [State.loadResult_fuses]
    exact forNats_fuses (fun c s => State.updCore_fuses ..) _ s
  · rw [State.loadResult_fuses, State.seedField_fuses]
    exact forNats_fuses (fun c s => State.updCore_fuses ..) _ s

@[simp] theorem execFieldLoadDone_neverLowers (s : State) (f away) : NeverLowers s (execFieldLoadDone f away s) := by
  simp -implicitDefEqProofs [execFieldLoadDone]

@[simp] theorem State.stepRepair_fuses (s : State) (n x m) : (s.stepRepair n x m).fuses = s.fuses := by
  simp -implicitDefEqProofs [State.stepRepair]

@[simp] theorem execStepRepair_neverLowers (s : State) (n away) : NeverLowers s (execStepRepair n away s) := by
  unfold execStepRepair
  split <;> simp -implicitDefEqProofs

@[simp] theorem State.nextWrite_fuses (s : State) (n index valid) : (s.nextWrite n index valid).fuses = s.fuses := by
  simp -implicitDefEqProofs [State.nextWrite]

@[simp] theorem execSeqNextWrite_neverLowers (s : State) (n index valid) : NeverLowers s (execSeqNextWrite n index valid s) := by
  simp -implicitDefEqProofs [execSeqNextWrite]

@[simp] theorem State.injectWrite_fuses (s : State) (f v) : (s.injectWrite f v).fuses = s.fuses := by
  simp -implicitDefEqProofs [State.injectWrite]

@[simp] theorem execInjectArm_neverLowers (s : State) (f core kind) : NeverLowers s (execInjectArm f core kind s) := by
  simp -implicitDefEqProofs [execInjectArm]

/-! ### The placement service -/

@[simp] theorem State.sendMgmt_fuses (s : State) (m p ident) : (s.sendMgmt m p ident).fuses = s.fuses := by
  unfold State.sendMgmt
  split <;> simp -implicitDefEqProofs

@[simp] theorem State.sendOwn_fuses (s : State) (m data) : (s.sendOwn m data).fuses = s.fuses := by
  simp -implicitDefEqProofs [State.sendOwn]

@[simp] theorem State.writeAt_fuses {own : State → State} (h : ∀ s, (own s).fuses = s.fuses) (s : State) (m r i v) :
    (s.writeAt m r i v own).fuses = s.fuses := by
  simp -implicitDefEqProofs [State.writeAt, h]

@[simp] theorem State.tell_fuses (s : State) (m b) : (s.tell m b).fuses = s.fuses := by
  simp -implicitDefEqProofs [State.tell]

@[simp] theorem State.tellAll_fuses (s : State) (slice b) : (s.tellAll slice b).fuses = s.fuses := by
  unfold State.tellAll
  split <;> simp -implicitDefEqProofs

@[simp] theorem State.issueSet_fuses (s : State) (m tick es) : (s.issueSet m tick es).fuses = s.fuses := by
  simp -implicitDefEqProofs [State.issueSet]

@[simp] theorem State.cfgLink_fuses (s : State) (m n v) : (s.cfgLink m n v).fuses = s.fuses := by
  simp -implicitDefEqProofs [State.cfgLink]

@[simp] theorem State.openPort_fuses (s : State) (m port gs) : (s.openPort m port gs).fuses = s.fuses := by
  simp -implicitDefEqProofs [State.openPort]

@[simp] theorem State.cutPort_fuses (s : State) (c) : (s.cutPort c).fuses = s.fuses := by
  simp -implicitDefEqProofs [State.cutPort]

@[simp] theorem State.buildLinks_fuses (s : State) (ls cuts tick) : (s.buildLinks ls cuts tick).fuses = s.fuses := by
  simp -implicitDefEqProofs [State.buildLinks]

/-! ### Ports, connections and rings -/

@[simp] theorem State.updJob_fuses (s : State) (i g) : (s.updJob i g).fuses = s.fuses := by
  simp -implicitDefEqProofs [State.updJob]

@[simp] theorem State.reply_fuses (s : State) (conn c) : (s.reply conn c).fuses = s.fuses := by
  simp -implicitDefEqProofs [State.reply]

@[simp] theorem State.event_fuses (s : State) (j status cause frame detail) : (s.event j status cause frame detail).fuses = s.fuses := by
  simp -implicitDefEqProofs [State.event]

@[simp] theorem State.updWork_fuses (s : State) (k g) : (s.updWork k g).fuses = s.fuses := by
  simp -implicitDefEqProofs [State.updWork]

@[simp] theorem State.finish_fuses (s : State) (w status cause frame detail held) :
    (s.finish w status cause frame detail held).fuses = s.fuses := by
  simp -implicitDefEqProofs [State.finish]

@[simp] theorem State.moverConnDown_fuses (s : State) (n tags f m) : (s.moverConnDown n tags f m).fuses = s.fuses := by
  unfold State.moverConnDown
  split <;> simp -implicitDefEqProofs

@[simp] theorem State.connDown_fuses (s : State) (n st) : (s.connDown n st).fuses = s.fuses := by
  rw [State.connDown, foldl_fuses, foldl_fuses]
  · rw [State.setFld_fuses, State.updConn_fuses]
  · intro s r
    split
    · split
      · exact State.finish_fuses ..
      · rfl
    · rfl
  · exact fun s f => foldl_fuses (fun s m => State.moverConnDown_fuses ..) _ s

@[simp] theorem State.connStart_fuses (s : State) (n) : (s.connStart n).fuses = s.fuses := by
  simp -implicitDefEqProofs [State.connStart]

@[simp] theorem State.connOpenCmd_fst_fuses (s : State) (n) : (s.connOpenCmd n).1.fuses = s.fuses := by
  simp -implicitDefEqProofs [State.connOpenCmd]

@[simp] theorem State.connCloseCmd_fst_fuses (s : State) (n) : (s.connCloseCmd n).1.fuses = s.fuses := by
  simp -implicitDefEqProofs [State.connCloseCmd]

@[simp] theorem State.connReopenCmd_fst_fuses (s : State) (n) : (s.connReopenCmd n).1.fuses = s.fuses := by
  simp -implicitDefEqProofs [State.connReopenCmd]

@[simp] theorem State.connCmd_fuses (s : State) (n op) : (s.connCmd n op).fuses = s.fuses := by
  unfold State.connCmd
  split <;> simp -implicitDefEqProofs

@[simp] theorem execConnOpen_neverLowers (s : State) (n) : NeverLowers s (execConnOpen n s) := by
  simp -implicitDefEqProofs [execConnOpen]

@[simp] theorem execConnClose_neverLowers (s : State) (n) : NeverLowers s (execConnClose n s) := by
  simp -implicitDefEqProofs [execConnClose]

@[simp] theorem execConnReopen_neverLowers (s : State) (n) : NeverLowers s (execConnReopen n s) := by
  simp -implicitDefEqProofs [execConnReopen]

@[simp] theorem execFePortLinkChange_neverLowers (s : State) (port up lanes) : NeverLowers s (execFePortLinkChange port up lanes s) := by
  simp -implicitDefEqProofs [execFePortLinkChange]

@[simp] theorem execFeArp_neverLowers (s : State) (port addr) : NeverLowers s (execFeArp port addr s) := by
  simp -implicitDefEqProofs [execFeArp]

@[simp] theorem State.feAcked_fuses (s : State) (r) : (s.feAcked r).fuses = s.fuses := by
  unfold State.feAcked
  repeat' split
  all_goals simp -implicitDefEqProofs

@[simp] theorem State.feAck_fuses (s : State) (n psn) : (s.feAck n psn).fuses = s.fuses := by
  simp -implicitDefEqProofs [State.feAck]

@[simp] theorem execFePacket_neverLowers (s : State) (p) : NeverLowers s (execFePacket p s) := by
  unfold execFePacket
  split <;> simp -implicitDefEqProofs

@[simp] theorem State.feAgain_fuses (s : State) (n) : (s.feAgain n).fuses = s.fuses := by
  simp -implicitDefEqProofs [State.feAgain]

@[simp] theorem State.feRetry_fuses (s : State) (n k) : (s.feRetry n k).fuses = s.fuses := by
  simp -implicitDefEqProofs [State.feRetry]

@[simp] theorem execFeAckTimeout_neverLowers (s : State) (n) : NeverLowers s (execFeAckTimeout n s) := by
  unfold execFeAckTimeout
  split <;> simp -implicitDefEqProofs

@[simp] theorem State.feFailed_fuses (s : State) (r syndrome) : (s.feFailed r syndrome).fuses = s.fuses := by
  unfold State.feFailed
  repeat' split
  all_goals simp -implicitDefEqProofs

@[simp] theorem State.feNak_fuses (s : State) (n syndrome r) : (s.feNak n syndrome r).fuses = s.fuses := by
  fun_cases State.feNak s n syndrome r
  · simp -implicitDefEqProofs
  · simp -implicitDefEqProofs
  · cases r <;> simp -implicitDefEqProofs

@[simp] theorem execFeNak_neverLowers (s : State) (n psn syndrome) : NeverLowers s (execFeNak n psn syndrome s) := by
  simp -implicitDefEqProofs [execFeNak]

@[simp] theorem State.moverNakIn_fuses (s : State) (tag segment syndrome) : (s.moverNakIn tag segment syndrome).fuses = s.fuses := by
  unfold State.moverNakIn
  repeat' split
  all_goals simp -implicitDefEqProofs

@[simp] theorem execMoverResponse_neverLowers (s : State) (tag segment b) : NeverLowers s (execMoverResponse tag segment b s) := by
  unfold execMoverResponse
  split <;> simp -implicitDefEqProofs

@[simp] theorem State.doorbell_fuses (s : State) (n imm) : (s.doorbell n imm).fuses = s.fuses := by
  simp -implicitDefEqProofs [State.doorbell]

@[simp] theorem execDoorbell_neverLowers (s : State) (n imm) : NeverLowers s (execDoorbell n imm s) := by
  simp -implicitDefEqProofs [execDoorbell]

@[simp] theorem State.takeEntries_fuses (s : State) (n es) : (s.takeEntries n es).fuses = s.fuses := by
  fun_induction State.takeEntries s n es <;> simp -implicitDefEqProofs [*]

@[simp] theorem execDescriptorFetch_neverLowers (s : State) (n entries) : NeverLowers s (execDescriptorFetch n entries s) := by
  simp -implicitDefEqProofs [execDescriptorFetch]

@[simp] theorem State.writeCpl_fuses (s : State) (n c rest) : (s.writeCpl n c rest).fuses = s.fuses := by
  simp -implicitDefEqProofs [State.writeCpl]

@[simp] theorem execCompletionWrite_neverLowers (s : State) (n) : NeverLowers s (execCompletionWrite n s) := by
  unfold execCompletionWrite
  repeat' split
  all_goals simp -implicitDefEqProofs

end Sys2Proof.Machine
end

section

/-!
PROOF. The fuses kept (R418): jobs, their schedule, the causes that the control complex resolves, and the frame.
-/
namespace Sys2Proof.Machine

/-! ### Descriptors and jobs -/

@[simp] theorem State.takeDesc_fuses (s : State) (n) : (s.takeDesc n).fuses = s.fuses := by
  simp -implicitDefEqProofs [State.takeDesc]

@[simp] theorem State.refuseDesc_fuses (s : State) (n ws job cause detail) : (s.refuseDesc n ws job cause detail).fuses = s.fuses := by
  simp -implicitDefEqProofs [State.refuseDesc]

@[simp] theorem State.doneDesc_fuses (s : State) (n ws job) : (s.doneDesc n ws job).fuses = s.fuses := by
  simp -implicitDefEqProofs [State.doneDesc]

@[simp] theorem State.addWork_fst_fuses (s : State) (n job ws begun) : (s.addWork n job ws begun).1.fuses = s.fuses := by
  simp -implicitDefEqProofs [State.addWork]

@[simp] theorem State.withDesc_neverLowers {g : State → List Nat → State} (h : ∀ s ws, (g s ws).fuses = s.fuses) (s : State) (n op) :
    NeverLowers s (s.withDesc n op g) := by
  unfold State.withDesc
  split <;> simp -implicitDefEqProofs [h]

@[simp] theorem State.withJob_neverLowers {g : State → Job → List Nat → State} (h : ∀ s j ws, (g s j ws).fuses = s.fuses)
    (s : State) (n op allowed check) : NeverLowers s (s.withJob n op allowed check g) := by
  refine State.withDesc_neverLowers (fun s ws => ?_) s n op
  split
  · split
    · exact State.refuseDesc_fuses ..
    · split
      · exact State.refuseDesc_fuses ..
      · split
        · exact h ..
        · exact State.refuseDesc_fuses ..
  · exact State.refuseDesc_fuses ..

@[simp] theorem execNopDescriptor_neverLowers (s : State) (n) : NeverLowers s (execNopDescriptor n s) := by
  simp -implicitDefEqProofs [execNopDescriptor]

@[simp] theorem execInvalidOpcode_neverLowers (s : State) (n) : NeverLowers s (execInvalidOpcode n s) := by
  unfold execInvalidOpcode
  split <;> simp -implicitDefEqProofs

@[simp] theorem execLoad_neverLowers (s : State) (n) : NeverLowers s (execLoad n s) := by
  refine State.withDesc_neverLowers (fun s ws => ?_) s n 1
  split <;> simp -implicitDefEqProofs

@[simp] theorem State.clearSlot_fuses (s : State) (n) : (s.clearSlot n).fuses = s.fuses := by
  simp -implicitDefEqProofs [State.clearSlot]

@[simp] theorem State.openSlot_fuses (s : State) (n slice) : (s.openSlot n slice).fuses = s.fuses := by
  simp -implicitDefEqProofs [State.openSlot]

@[simp] theorem State.openEntry_fuses (s : State) (e slice slot share home origin extent wrap hop) :
    (s.openEntry e slice slot share home origin extent wrap hop).fuses = s.fuses := by
  simp -implicitDefEqProofs [State.openEntry]

@[simp] theorem State.openQuota_fuses (s : State) (e slice limit) : (s.openQuota e slice limit).fuses = s.fuses := by
  simp -implicitDefEqProofs [State.openQuota]

theorem State.allocThese_fuses {s t : State} {slice ks} (h : s.allocThese slice ks = some t) : t.fuses = s.fuses := by
  induction ks generalizing s with
  | nil => rw [Option.some.inj h]
  | cons k ks ih =>
    rw [State.allocThese] at h
    split at h
    · rw [ih h, fuses_of_eq ‹_ = (_, _)›, State.allocFrame_fst_fuses]
    · cases h

@[simp] theorem State.ccPost_fst_fuses (s : State) (f kind src dst len srcSpace dstSpace rkey conn) :
    (s.ccPost f kind src dst len srcSpace dstSpace rkey conn).1.fuses = s.fuses := by
  simp -implicitDefEqProofs [State.ccPost]

@[simp] theorem State.postParts_fuses {post : State → Nat → Nat → Nat → State × Nat}
    (h : ∀ s a b c, (post s a b c).1.fuses = s.fuses) (s : State) (w parts) : (s.postParts w parts post).fuses = s.fuses := by
  simp -implicitDefEqProofs [State.postParts, h]

@[simp] theorem State.returnFields_fuses (s : State) (n) : (s.returnFields n).fuses = s.fuses := by
  simp -implicitDefEqProofs [State.returnFields]

@[simp] theorem State.leaveSlot_fuses (s : State) (n) : (s.leaveSlot n).fuses = s.fuses := by
  simp -implicitDefEqProofs [State.leaveSlot]

@[simp] theorem State.leaveEntry_fuses (s : State) (e slice frames) : (s.leaveEntry e slice frames).fuses = s.fuses := by
  simp -implicitDefEqProofs [State.leaveEntry]

@[simp] theorem State.dropJob_fuses (s : State) (j) : (s.dropJob j).fuses = s.fuses := by
  simp -implicitDefEqProofs [State.dropJob]

@[simp] theorem State.putBack_fuses (s : State) (l) : (s.putBack l).fuses = s.fuses := by
  simp -implicitDefEqProofs [State.putBack]

@[simp] theorem State.endLoad_fuses (s : State) (j c) : (s.endLoad j c).fuses = s.fuses := by
  fun_cases State.endLoad s j c <;> simp +zetaDelta -implicitDefEqProofs

@[simp] theorem State.failLoad_fuses (s : State) (j status cause detail) : (s.failLoad j status cause detail).fuses = s.fuses := by
  simp -implicitDefEqProofs [State.failLoad]

@[simp] theorem State.fillPage_fuses (s : State) (slice m src dst n) : (s.fillPage slice m src dst n).fuses = s.fuses := by
  simp -implicitDefEqProofs [State.fillPage]

@[simp] theorem State.mapOne_fuses (s : State) (j m r k frame) : (s.mapOne j m r k frame).fuses = s.fuses := by
  simp -implicitDefEqProofs [State.mapOne]

theorem State.mapRegion_keepsFuses (s : State) (j m r) : KeepsFuses s (s.mapRegion j m r) := by
  unfold State.mapRegion
  dsimp only
  split
  · refine .foldl (fun o k ho => ?_) _
    split
    · exact .of_none
    · split
      · exact .of_none
      · split <;> rename_i h
        · exact .of_none
        · exact .of_some (by simp -implicitDefEqProofs [State.allocThese_fuses h, ho.eq rfl])
  · refine .foldl (fun o k ho => ?_) _
    split
    · exact .of_none
    · split <;> rename_i h
      · exact .of_some (by simp -implicitDefEqProofs [State.allocFrames_fuses h, ho.eq rfl])
      · exact .of_none

theorem State.mapRegions_keepsFuses (s : State) (j m) : KeepsFuses s (s.mapRegions j m) := by
  refine .foldl (fun o r ho => ?_) _
  split
  · exact .of_none
  · exact fun u hu => ((State.mapRegion_keepsFuses _ _ _ _).eq hu).trans (ho.eq rfl)

@[simp] theorem State.unmapImage_fuses (s : State) (j) : (s.unmapImage j).fuses = s.fuses := by
  simp -implicitDefEqProofs [State.unmapImage]

@[simp] theorem State.loadPrograms_fuses (s : State) (j) : (s.loadPrograms j).fuses = s.fuses := by
  refine SameFuses.eq ?_
  unfold State.loadPrograms
  extract_lets +onlyGivenNames m
  split
  · exact State.failLoad_fuses ..
  · split
    · exact State.failLoad_fuses ..
    · split
      · exact State.failLoad_fuses ..
      · extract_lets +onlyGivenNames save s1
        split <;> rename_i halloc
        · exact State.failLoad_fuses ..
        · split <;> rename_i hmap
          · exact State.failLoad_fuses ..
          · rw [SameFuses]
            simp -implicitDefEqProofs [(State.mapRegions_keepsFuses _ _ _).eq hmap, State.allocFrames_fuses halloc, s1]

@[simp] theorem State.loadTick_fuses (s : State) (j) : (s.loadTick j).fuses = s.fuses := by
  unfold State.loadTick
  repeat' split
  all_goals simp -implicitDefEqProofs

@[simp] theorem State.mapAway_fuses (s : State) (j m targets) : (s.mapAway j m targets).fuses = s.fuses := by
  simp -implicitDefEqProofs [State.mapAway]

@[simp] theorem State.tellState_fuses (s : State) (j st) : (s.tellState j st).fuses = s.fuses := by
  simp -implicitDefEqProofs [State.tellState]

@[simp] theorem execLoadDone_neverLowers (s : State) (job targets) : NeverLowers s (execLoadDone job targets s) := by
  unfold execLoadDone
  repeat' split
  all_goals simp -implicitDefEqProofs

@[simp] theorem execLoadWaitExpired_neverLowers (s : State) (job) : NeverLowers s (execLoadWaitExpired job s) := by
  unfold execLoadWaitExpired
  split <;> simp -implicitDefEqProofs

@[simp] theorem State.jobNext_fuses (s : State) (j index valid) : (s.jobNext j index valid).fuses = s.fuses := by
  simp -implicitDefEqProofs [State.jobNext]

@[simp] theorem State.runWrite_fuses (s : State) (j) : (s.runWrite j).fuses = s.fuses := by
  unfold State.runWrite
  split <;> simp -implicitDefEqProofs

@[simp] theorem State.runStart_fuses (s : State) (j w) : (s.runStart j w).fuses = s.fuses := by
  fun_cases State.runStart s j w <;> simp +zetaDelta -implicitDefEqProofs

@[simp] theorem State.nextRun_fuses (s : State) (i) : (s.nextRun i).fuses = s.fuses := by
  unfold State.nextRun
  repeat' split
  all_goals simp -implicitDefEqProofs

@[simp] theorem execRun_neverLowers (s : State) (n) : NeverLowers s (execRun n s) := by
  simp -implicitDefEqProofs [execRun]

@[simp] theorem State.runAdvance_fuses (s : State) (j past) : (s.runAdvance j past).fuses = s.fuses := by
  fun_cases State.runAdvance s j past <;> simp +zetaDelta -implicitDefEqProofs
  split <;> simp -implicitDefEqProofs

@[simp] theorem State.runHold_fuses (s : State) (i) : (s.runHold i).fuses = s.fuses := by
  simp -implicitDefEqProofs [State.runHold]

@[simp] theorem State.startCopy_fuses (s : State) (j w) : (s.startCopy j w).fuses = s.fuses := by
  simp -implicitDefEqProofs [State.startCopy]

@[simp] theorem State.startCopies_fuses (s : State) : s.startCopies.fuses = s.fuses := by
  refine foldl_fuses (fun s w => ?_) _ s
  split
  · split <;> simp -implicitDefEqProofs
  · rfl

@[simp] theorem copyGo_fuses (s : State) (n j ws) : (copyGo n s j ws).fuses = s.fuses := by
  simp -implicitDefEqProofs [copyGo]

@[simp] theorem execCopyIn_neverLowers (s : State) (n) : NeverLowers s (execCopyIn n s) := by
  simp -implicitDefEqProofs [execCopyIn]

@[simp] theorem execCopyOut_neverLowers (s : State) (n) : NeverLowers s (execCopyOut n s) := by
  simp -implicitDefEqProofs [execCopyOut]

@[simp] theorem State.copyDone_fuses (s : State) (w) : (s.copyDone w).fuses = s.fuses := by
  unfold State.copyDone
  split <;> simp -implicitDefEqProofs

@[simp] theorem State.partDone_fuses (s : State) (f x) : (s.partDone f x).fuses = s.fuses := by
  fun_cases State.partDone s f x <;> simp +zetaDelta -implicitDefEqProofs

@[simp] theorem execStatus_neverLowers (s : State) (n) : NeverLowers s (execStatus n s) := by
  simp -implicitDefEqProofs [execStatus]

@[simp] theorem State.askStop_fuses (s : State) (i c) : (s.askStop i c).fuses = s.fuses := by
  simp -implicitDefEqProofs [State.askStop]

@[simp] theorem execStop_neverLowers (s : State) (n) : NeverLowers s (execStop n s) := by
  simp -implicitDefEqProofs [execStop]

@[simp] theorem execRelease_neverLowers (s : State) (n) : NeverLowers s (execRelease n s) := by
  simp -implicitDefEqProofs [execRelease]

@[simp] theorem execResume_neverLowers (s : State) (n) : NeverLowers s (execResume n s) := by
  refine State.withDesc_neverLowers (fun s ws => ?_) s n 8
  split <;> simp -implicitDefEqProofs

@[simp] theorem State.jobCmd_fuses (s : State) (op i) : (s.jobCmd op i).fuses = s.fuses := by
  fun_cases State.jobCmd s op i <;> simp +zetaDelta -implicitDefEqProofs

@[simp] theorem execJobCmdStop_neverLowers (s : State) (job) : NeverLowers s (execJobCmdStop job s) := by
  simp -implicitDefEqProofs [execJobCmdStop]

@[simp] theorem execJobCmdRelease_neverLowers (s : State) (job) : NeverLowers s (execJobCmdRelease job s) := by
  simp -implicitDefEqProofs [execJobCmdRelease]

@[simp] theorem execJobCmdResume_neverLowers (s : State) (job) : NeverLowers s (execJobCmdResume job s) := by
  simp -implicitDefEqProofs [execJobCmdResume]

@[simp] theorem execLingerExpired_neverLowers (s : State) (job) : NeverLowers s (execLingerExpired job s) := by
  unfold execLingerExpired
  split <;> simp -implicitDefEqProofs

@[simp] theorem State.stopsDone_fuses (s : State) (i) : (s.stopsDone i).fuses = s.fuses := by
  simp -implicitDefEqProofs [State.stopsDone]

@[simp] theorem State.haltCores_fuses (s : State) (n) : (s.haltCores n).fuses = s.fuses := by
  simp -implicitDefEqProofs [State.haltCores]

@[simp] theorem State.stopSlot_fuses (s : State) (n) : (s.stopSlot n).fuses = s.fuses := by
  simp -implicitDefEqProofs [State.stopSlot]

@[simp] theorem State.cancelWork_fuses (s : State) (j w) : (s.cancelWork j w).fuses = s.fuses := by
  simp -implicitDefEqProofs [State.cancelWork]

@[simp] theorem State.stopJob_fuses (s : State) (j c) : (s.stopJob j c).fuses = s.fuses := by
  refine SameFuses.eq ?_
  unfold State.stopJob
  extract_lets +onlyGivenNames s1 s2 s3 teller s4 s5 s6 waiting
  have h1 : s1.fuses = s.fuses := by unfold s1; split <;> simp
  have h2 : s2.fuses = s1.fuses := by unfold s2; split <;> simp
  have h4 : s4.fuses = s3.fuses := by
    unfold s4
    clear_value teller
    cases teller
    · simp
    · simp
  have h5 : s5.fuses = s4.fuses := by unfold s5; split <;> simp
  rw [SameFuses, foldl_fuses, State.stopsDone_fuses, h5, h4, State.updJob_fuses, h2, h1]
  intro s w
  split <;> simp

@[simp] theorem State.releaseJob_fuses (s : State) (j) : (s.releaseJob j).fuses = s.fuses := by
  unfold State.releaseJob
  split <;> simp -implicitDefEqProofs

@[simp] theorem State.stopDueJob_fuses (s : State) (j) : (s.stopDueJob j).fuses = s.fuses := by
  unfold State.stopDueJob
  split <;> simp -implicitDefEqProofs

@[simp] theorem State.releaseDue_fuses (s : State) (i) : (s.releaseDue i).fuses = s.fuses := by
  unfold State.releaseDue
  split <;> simp -implicitDefEqProofs

@[simp] theorem State.stopTick_fuses (s : State) (j) : (s.stopTick j).fuses = s.fuses := by
  simp -implicitDefEqProofs [State.stopTick]

@[simp] theorem State.stopsTick_fuses (s : State) : s.stopsTick.fuses = s.fuses := by
  simp -implicitDefEqProofs [State.stopsTick]

@[simp] theorem State.faultStop_fuses (s : State) (n c) : (s.faultStop n c).fuses = s.fuses := by
  unfold State.faultStop
  split <;> simp -implicitDefEqProofs

@[simp] theorem State.sliceStop_fuses (s : State) (slice c) : (s.sliceStop slice c).fuses = s.fuses := by
  unfold State.sliceStop
  repeat' split
  all_goals simp -implicitDefEqProofs

@[simp] theorem State.sliceFaulted_fuses (s : State) (slice cause detail frame) :
    (s.sliceFaulted slice cause detail frame).fuses = s.fuses := by
  unfold State.sliceFaulted
  split <;> simp -implicitDefEqProofs

@[simp] theorem State.frameStop_fuses (s : State) (n cause detail) : (s.frameStop n cause detail).fuses = s.fuses := by
  simp -implicitDefEqProofs [State.frameStop]

/-! ### The scheduler -/

@[simp] theorem State.contextSaved_fuses (s : State) (n) : (s.contextSaved n).fuses = s.fuses := by
  simp -implicitDefEqProofs [State.contextSaved]

@[simp] theorem State.keepMovers_fuses (s : State) (n) : (s.keepMovers n).fuses = s.fuses := by
  simp -implicitDefEqProofs [State.keepMovers]

@[simp] theorem execContextSaveDone_neverLowers (s : State) (n) : NeverLowers s (execContextSaveDone n s) := by
  simp -implicitDefEqProofs [execContextSaveDone]

@[simp] theorem State.restoreField_fuses (s : State) (v f live) : (s.restoreField v f live).fuses = s.fuses := by
  simp -implicitDefEqProofs [State.restoreField]

@[simp] theorem State.contextRestored_fuses (s : State) (n v) : (s.contextRestored n v).fuses = s.fuses := by
  simp -implicitDefEqProofs [State.contextRestored]

@[simp] theorem execContextRestoreDone_neverLowers (s : State) (n) : NeverLowers s (execContextRestoreDone n s) := by
  unfold execContextRestoreDone
  split <;> simp -implicitDefEqProofs

@[simp] theorem State.fetchImage_fuses (s : State) (j) : (s.fetchImage j).fuses = s.fuses := by
  unfold State.fetchImage
  split <;> simp -implicitDefEqProofs

@[simp] theorem State.mapImage_fuses (s : State) (j) : (s.mapImage j).fuses = s.fuses := by
  simp -implicitDefEqProofs [State.mapImage]

@[simp] theorem State.tellFields_fuses (s : State) (slice m mask) : (s.tellFields slice m mask).fuses = s.fuses := by
  simp -implicitDefEqProofs [State.tellFields]

@[simp] theorem State.tellOwnFields_fuses (s : State) (slice e fs) : (s.tellOwnFields slice e fs).fuses = s.fuses := by
  simp -implicitDefEqProofs [State.tellOwnFields]

@[simp] theorem State.placeMember_fuses (s : State) (b v ls j p home epoch q) :
    (s.placeMember b v ls j p home epoch q).fuses = s.fuses := by
  fun_cases State.placeMember s b v ls j p home epoch q <;> simp +zetaDelta -implicitDefEqProofs

@[simp] theorem State.placeAway_fuses (s : State) (b v ls j p home epoch) : (s.placeAway b v ls j p home epoch).fuses = s.fuses := by
  simp -implicitDefEqProofs [State.placeAway]

@[simp] theorem State.placeQueued_fuses (s : State) (j p) : (s.placeQueued j p).fuses = s.fuses := by
  have hbody : ∀ g, g = @State.placeQueued → SameFuses s (g s j p) := by
    intro g hg
    delta State.placeQueued at hg
    subst hg
    beta_reduce
    extract_lets +onlyGivenNames fs slice b v ls home undo s1 s2 s3 s4 s5 s6 j' s7
    have h1 : SameFuses s s1 := by unfold s1; exact .of_eq (State.openEntry_fuses ..)
    clear_value s1
    have h2 : SameFuses s s2 := by unfold s2; exact h1.trans (.of_eq rfl)
    clear_value s2
    have h3 : SameFuses s s3 := by unfold s3; exact h2.trans (.of_eq (State.openSlot_fuses ..))
    clear_value s3
    have h4 : SameFuses s s4 := by unfold s4; exact h3.trans (.foldl (fun s f => .of_eq (State.giveField_fuses ..)) ..)
    clear_value s4
    have h5 : SameFuses s s5 := by
      unfold s5
      exact h4.trans (.trans (.of_eq (State.openQuota_fuses ..)) (.of_eq (State.newRoot_fuses ..)))
    clear_value s5
    have h6 : SameFuses s s6 := by unfold s6; exact h5.trans (.foldl (fun s f => .of_eq (State.clearStart_fuses ..)) ..)
    clear_value s6
    have h : SameFuses s s7 := by unfold s7; exact h6.trans (.of_eq (State.updJob_fuses ..))
    -- The state, the job and its count of frames become variables, or the check would compute the count to compare states.
    obtain ⟨t, ht⟩ : ∃ t, t = s7 := ⟨_, rfl⟩
    obtain ⟨i, hi⟩ : ∃ i, i = j' := ⟨_, rfl⟩
    rw [← ht] at h
    obtain ⟨n, hn⟩ : ∃ n, n = i.imageCount := ⟨_, rfl⟩
    rw [← ht, ← hi, ← hn]
    cases t.mem.freeRun n jobFrames 0 0 with
    | none => exact h.trans (.of_eq (State.failLoad_fuses ..))
    | some k =>
      refine h.trans ?_
      simp -zeta -zetaHave only []
      extract_lets +onlyGivenNames frames
      cases halloc : t.allocThese slice frames with
      | none => exact .of_eq (State.failLoad_fuses ..)
      | some u =>
        refine (SameFuses.of_eq (State.allocThese_fuses halloc)).trans ?_
        simp -zeta -zetaHave only []
        extract_lets +onlyGivenNames u' i'
        have h' : SameFuses u u' := by unfold u'; rw [SameFuses, ite_fuses, State.placeAway_fuses, ite_self]
        refine h'.trans ?_
        rw [SameFuses, State.fetchImage_fuses, State.mapImage_fuses, State.updJob_fuses]
  exact (hbody _ rfl).eq

@[simp] theorem State.restoreSlice_fuses (s : State) (slice entry v p) : (s.restoreSlice slice entry v p).fuses = s.fuses := by
  simp -implicitDefEqProofs [State.restoreSlice]

@[simp] theorem State.restoreStart_fuses (s : State) (j v p) : (s.restoreStart j v p).fuses = s.fuses := by
  simp -implicitDefEqProofs [State.restoreStart]

@[simp] theorem State.restoreMember_fuses (s : State) (p) : (s.restoreMember p).fuses = s.fuses := by
  unfold State.restoreMember
  split <;> simp -implicitDefEqProofs

@[simp] theorem State.sliceStopped_fuses (s : State) (j p) : (s.sliceStopped j p).fuses = s.fuses := by
  simp -implicitDefEqProofs [State.sliceStopped]

@[simp] theorem State.placeStopped_fuses (s : State) (j p) : (s.placeStopped j p).fuses = s.fuses := by
  simp -implicitDefEqProofs [State.placeStopped]

@[simp] theorem State.place_fuses (s : State) (j p) : (s.place j p).fuses = s.fuses := by
  unfold State.place
  repeat' split
  all_goals simp -implicitDefEqProofs

@[simp] theorem State.placeFails_fuses (s : State) (j r) : (s.placeFails j r).fuses = s.fuses := by
  simp -implicitDefEqProofs [State.placeFails]

@[simp] theorem execPlacement_neverLowers (s : State) (p) : NeverLowers s (execPlacement p s) := by
  unfold execPlacement
  repeat' split
  all_goals simp -implicitDefEqProofs

@[simp] theorem execSchedulerPreempt_neverLowers (s : State) (job) : NeverLowers s (execSchedulerPreempt job s) := by
  fun_cases execSchedulerPreempt job s <;> simp +zetaDelta -implicitDefEqProofs

@[simp] theorem execFieldRetirement_neverLowers (s : State) (f) : NeverLowers s (execFieldRetirement f s) := by
  unfold execFieldRetirement
  repeat' split
  all_goals simp -implicitDefEqProofs

@[simp] theorem State.fenceLinks_fuses (s : State) (f) : (s.fenceLinks f).fuses = s.fuses := by
  simp -implicitDefEqProofs [State.fenceLinks]

@[simp] theorem State.fenceField_fuses (s : State) (f cause) : (s.fenceField f cause).fuses = s.fuses := by
  simp -implicitDefEqProofs [State.fenceField]

@[simp] theorem State.coreFailed_fuses (s : State) (f core) : (s.coreFailed f core).fuses = s.fuses := by
  unfold State.coreFailed
  split <;> simp -implicitDefEqProofs

@[simp] theorem State.fenceUnreached_fuses (s : State) (fuel) : (s.fenceUnreached fuel).fuses = s.fuses := by
  fun_induction State.fenceUnreached s fuel <;> simp -implicitDefEqProofs [*]

@[simp] theorem State.fenceLink_fuses (s : State) (l) : (s.fenceLink l).fuses = s.fuses := by
  simp -implicitDefEqProofs [State.fenceLink]

@[simp] theorem State.elementFailed_fuses (s : State) (e) : (s.elementFailed e).fuses = s.fuses := by
  unfold State.elementFailed
  split <;> simp -implicitDefEqProofs

@[simp] theorem execElementFailed_neverLowers (s : State) (e) : NeverLowers s (execElementFailed e s) := by
  simp -implicitDefEqProofs [execElementFailed]

@[simp] theorem State.moverStop_fuses (s : State) (f m slice cause code core step frame cc) :
    (s.moverStop f m slice cause code core step frame cc).fuses = s.fuses := by
  simp -implicitDefEqProofs [State.moverStop]

@[simp] theorem execMoverParkTimeout_neverLowers (s : State) (f m) : NeverLowers s (execMoverParkTimeout f m s) := by
  fun_cases execMoverParkTimeout f m s <;> simp +zetaDelta -implicitDefEqProofs

@[simp] theorem State.rewriteTargets_fuses (s : State) (slice old new) : (s.rewriteTargets slice old new).fuses = s.fuses := by
  simp -implicitDefEqProofs [State.rewriteTargets]

@[simp] theorem State.spareIn_fuses (s : State) (slice old new) : (s.spareIn slice old new).fuses = s.fuses := by
  fun_cases State.spareIn s slice old new <;> simp +zetaDelta -implicitDefEqProofs <;> split <;> simp -implicitDefEqProofs

@[simp] theorem State.setSpare_fuses (s : State) (e x) : (s.setSpare e x).fuses = s.fuses := by
  simp -implicitDefEqProofs [State.setSpare]

@[simp] theorem State.spareBegin_fuses (s : State) (e old new survey) : (s.spareBegin e old new survey).fuses = s.fuses := by
  fun_cases State.spareBegin s e old new survey <;> simp +zetaDelta -implicitDefEqProofs

@[simp] theorem State.takeTables_fuses (s : State) (e slice root v) : (s.takeTables e slice root v).fuses = s.fuses := by
  simp -implicitDefEqProofs [State.takeTables]

@[simp] theorem State.spareOut_fuses (s : State) (slice new) : (s.spareOut slice new).fuses = s.fuses := by
  unfold State.spareOut
  split <;> simp -implicitDefEqProofs

@[simp] theorem State.spareCopy_fuses (s : State) (x) : (s.spareCopy x).fuses = s.fuses := by
  simp -implicitDefEqProofs [State.spareCopy]

@[simp] theorem State.spareArrives_fuses (s : State) (e v frames areas) : (s.spareArrives e v frames areas).fuses = s.fuses := by
  simp -implicitDefEqProofs [State.spareArrives]

@[simp] theorem State.stageAway_fuses (s : State) (x i v t) : (s.stageAway x i v t).fuses = s.fuses := by
  simp -implicitDefEqProofs [State.stageAway]

@[simp] theorem State.stageHere_fuses (s : State) (x i v) : (s.stageHere x i v).fuses = s.fuses := by
  simp -implicitDefEqProofs [State.stageHere]

@[simp] theorem State.spareTables_fuses (s : State) (x i v) : (s.spareTables x i v).fuses = s.fuses := by
  simp -implicitDefEqProofs [State.spareTables]

@[simp] theorem State.spareTold_fuses (s : State) (x) : (s.spareTold x).fuses = s.fuses := by
  simp -implicitDefEqProofs [State.spareTold]

@[simp] theorem State.spareRewrite_fuses (s : State) (x tick) : (s.spareRewrite x tick).fuses = s.fuses := by
  fun_cases State.spareRewrite s x tick <;> simp +zetaDelta -implicitDefEqProofs

@[simp] theorem State.spareLost_fuses (s : State) (e old) : (s.spareLost e old).fuses = s.fuses := by
  fun_cases State.spareLost s e old <;> simp +zetaDelta -implicitDefEqProofs

@[simp] theorem execSpareSwitch_neverLowers (s : State) (e departing step) : NeverLowers s (execSpareSwitch e departing step s) := by
  fun_cases execSpareSwitch e departing step s <;> simp +zetaDelta -implicitDefEqProofs

/-! ### Causes of faults -/

@[simp] theorem State.mapFresh_fst_fuses (s : State) (n slice va) : (s.mapFresh n slice va).1.fuses = s.fuses := by
  fun_cases State.mapFresh s n slice va
  · rfl
  · simp -implicitDefEqProofs [State.allocFrames_fuses ‹_›]
  · rfl

@[simp] theorem State.rewriteEntry_fuses (s : State) (o) : (s.rewriteEntry o).fuses = s.fuses := by
  simp -implicitDefEqProofs [State.rewriteEntry]

@[simp] theorem State.fixPages_fst_fuses (s : State) (n va) : (s.fixPages n va).1.fuses = s.fuses := by
  unfold State.fixPages
  split <;> simp -implicitDefEqProofs

@[simp] theorem State.fixOwners_fst_fuses (s : State) (slice) : (s.fixOwners slice).1.fuses = s.fuses := by
  simp -implicitDefEqProofs [State.fixOwners]

@[simp] theorem State.fixRoutes_fst_fuses (s : State) (slice) : (s.fixRoutes slice).1.fuses = s.fuses := by
  unfold State.fixRoutes
  split <;> simp -implicitDefEqProofs

@[simp] theorem State.poisonFrame_fuses (s : State) (n slice ga) : (s.poisonFrame n slice ga).fuses = s.fuses := by
  simp -implicitDefEqProofs [State.poisonFrame]

@[simp] theorem State.loseLine_fuses (s : State) (n slice ga) : (s.loseLine n slice ga).fuses = s.fuses := by
  unfold State.loseLine
  split <;> simp -implicitDefEqProofs

@[simp] theorem State.rereadLines_fst_fuses (s : State) (n slice ga lines) : (s.rereadLines n slice ga lines).1.fuses = s.fuses := by
  unfold State.rereadLines
  repeat' split
  all_goals simp -implicitDefEqProofs

@[simp] theorem State.lineAsked_fuses (s : State) (m ga lines) : (s.lineAsked m ga lines).fuses = s.fuses := by
  unfold State.lineAsked
  repeat' split
  all_goals simp -implicitDefEqProofs

@[simp] theorem State.lineAnswered_fuses (s : State) (ga lost) : (s.lineAnswered ga lost).fuses = s.fuses := by
  simp -implicitDefEqProofs [State.lineAnswered]

@[simp] theorem State.resolveCode_fst_fuses (s : State) (n slice code va lines) :
    (s.resolveCode n slice code va lines).1.fuses = s.fuses := by
  unfold State.resolveCode
  repeat' split
  all_goals simp -implicitDefEqProofs

@[simp] theorem State.resolveFault_fst_fuses (s : State) (n x) : (s.resolveFault n x).1.fuses = s.fuses := by
  fun_cases State.resolveFault s n x <;> simp +zetaDelta -implicitDefEqProofs

@[simp] theorem State.faultResolved_fuses (s : State) (n x) : (s.faultResolved n x).fuses = s.fuses := by
  simp -implicitDefEqProofs [State.faultResolved]

@[simp] theorem State.resolveSlot_fuses (s : State) (n) : (s.resolveSlot n).fuses = s.fuses := by
  refine foldl_fuses (fun s x => ?_) _ s
  split <;> simp -implicitDefEqProofs [fuses_of_eq ‹_ = (_, _)›]

@[simp] theorem State.resolvePark_fst_fuses (s : State) (n f d) : (s.resolvePark n f d).1.fuses = s.fuses := by
  unfold State.resolvePark
  repeat' split
  all_goals simp -implicitDefEqProofs

@[simp] theorem State.copyLost_fuses (s : State) (f d ga) : (s.copyLost f d ga).fuses = s.fuses := by
  unfold State.copyLost
  repeat' split
  all_goals simp -implicitDefEqProofs

@[simp] theorem State.moverLost_fuses (s : State) (n f d ga) : (s.moverLost n f d ga).fuses = s.fuses := by
  simp -implicitDefEqProofs [State.moverLost]

@[simp] theorem State.resolveMover_fuses (s : State) (n f m) : (s.resolveMover n f m).fuses = s.fuses := by
  unfold State.resolveMover
  split
  · split
    · rfl
    · split <;> rename_i h <;> simp -implicitDefEqProofs [fuses_of_eq h]
  · rfl

@[simp] theorem State.resolveMovers_fuses (s : State) (n) : (s.resolveMovers n).fuses = s.fuses := by
  simp -implicitDefEqProofs [State.resolveMovers]

/-! ### The close, the decisions and the slices -/

@[simp] theorem State.sendVote_fuses (s : State) (e slice x) : (s.sendVote e slice x).fuses = s.fuses := by
  fun_cases State.sendVote s e slice x <;> simp +zetaDelta -implicitDefEqProofs

@[simp] theorem State.sendDecision_fuses (s : State) (e slice d) : (s.sendDecision e slice d).fuses = s.fuses := by
  simp -implicitDefEqProofs [State.sendDecision]

@[simp] theorem State.tryDecide_fuses (s : State) (n) : (s.tryDecide n).fuses = s.fuses := by
  fun_cases State.tryDecide s n <;> simp +zetaDelta -implicitDefEqProofs

@[simp] theorem State.takeVote_fuses (s : State) (n x) : (s.takeVote n x).fuses = s.fuses := by
  simp -implicitDefEqProofs [State.takeVote]

@[simp] theorem execVote_neverLowers (s : State) (slice x) : NeverLowers s (execVote slice x s) := by
  unfold execVote
  repeat' split
  all_goals simp -implicitDefEqProofs

@[simp] theorem execDecision_neverLowers (s : State) (slice d) : NeverLowers s (execDecision slice d s) := by
  fun_cases execDecision slice d s <;> simp +zetaDelta -implicitDefEqProofs

@[simp] theorem State.closeSlot_fuses (s : State) (n) : (s.closeSlot n).fuses = s.fuses := by
  fun_cases State.closeSlot s n <;> simp +zetaDelta -implicitDefEqProofs

@[simp] theorem State.closeHolders_fuses (s : State) (g) : (s.closeHolders g).fuses = s.fuses := by
  simp -implicitDefEqProofs [State.closeHolders]

@[simp] theorem State.closeMovers_fuses (s : State) (n) : (s.closeMovers n).fuses = s.fuses := by
  simp -implicitDefEqProofs [State.closeMovers]

@[simp] theorem State.closeFree_fuses (s : State) : s.closeFree.fuses = s.fuses := by
  simp -implicitDefEqProofs [State.closeFree]

@[simp] theorem State.closeFaults_fuses (s : State) (n) : (s.closeFaults n).fuses = s.fuses := by
  simp -implicitDefEqProofs [State.closeFaults]

@[simp] theorem State.cutPower_fuses (s : State) (ns) : (s.cutPower ns).fuses = s.fuses := by
  rw [State.cutPower, foldl_fuses]
  intro s n
  refine SameFuses.eq ?_
  extract_lets t
  have ht : t.fuses = s.fuses := State.updSlot_fuses ..
  clear_value t
  split <;> simp [SameFuses, ht]

@[simp] theorem State.closeAll_fuses (s : State) (g) : (s.closeAll g).fuses = s.fuses := by
  simp -implicitDefEqProofs [State.closeAll]

@[simp] theorem execClose_neverLowers (s : State) : NeverLowers s (execClose s) := by
  simp -implicitDefEqProofs [execClose]

@[simp] theorem execHoldLimitReached_neverLowers (s : State) (n) : NeverLowers s (execHoldLimitReached n s) := by
  fun_cases execHoldLimitReached n s
  case case1 s' slice =>
    have hs : s'.fuses = s.fuses := State.updSlot_fuses ..
    clear_value s' slice
    rw [neverLowers_next]
    split
    · split <;> simp [hs]
    · simp [hs]
  all_goals simp

@[simp] theorem State.startCore_fuses (s : State) (f c prog frame first) : (s.startCore f c prog frame first).fuses = s.fuses := by
  simp -implicitDefEqProofs [State.startCore]

@[simp] theorem State.startFrame_fuses (s : State) (n frame replay prog first) :
    (s.startFrame n frame replay prog first).fuses = s.fuses := by
  simp -implicitDefEqProofs [State.startFrame]

@[simp] theorem State.countHold_fuses (s : State) (n cs) : (s.countHold n cs).fuses = s.fuses := by
  simp -implicitDefEqProofs [State.countHold]

@[simp] theorem State.holdSlot_fuses (s : State) (n c cs) : (s.holdSlot n c cs).fuses = s.fuses := by
  fun_cases State.holdSlot s n c cs <;> simp +zetaDelta -implicitDefEqProofs

@[simp] theorem State.endHolds_fuses (s : State) (n) : (s.endHolds n).fuses = s.fuses := by
  simp -implicitDefEqProofs [State.endHolds]

@[simp] theorem State.releaseFrame_fuses (s : State) (n) : (s.releaseFrame n).fuses = s.fuses := by
  simp -implicitDefEqProofs [State.releaseFrame]

@[simp] theorem State.jobAdvance_fuses (s : State) (n past) : (s.jobAdvance n past).fuses = s.fuses := by
  unfold State.jobAdvance
  split <;> simp -implicitDefEqProofs

@[simp] theorem State.advanceSlot_fuses (s : State) (n prog) : (s.advanceSlot n prog).fuses = s.fuses := by
  simp -implicitDefEqProofs [State.advanceSlot]

@[simp] theorem State.realignSlot_fuses (s : State) (n d) : (s.realignSlot n d).fuses = s.fuses := by
  simp -implicitDefEqProofs [State.realignSlot]

@[simp] theorem State.beginStep_fuses (s : State) (n) : (s.beginStep n).fuses = s.fuses := by
  unfold State.beginStep
  split <;> simp -implicitDefEqProofs

@[simp] theorem State.beginSteps_fuses (s : State) (n member) : (s.beginSteps n member).fuses = s.fuses := by
  simp -implicitDefEqProofs [State.beginSteps]

@[simp] theorem State.endSteps_fuses (s : State) (n announced) : (s.endSteps n announced).fuses = s.fuses := by
  simp -implicitDefEqProofs [State.endSteps]

@[simp] theorem State.preemptSlot_fuses (s : State) (n told) : (s.preemptSlot n told).fuses = s.fuses := by
  fun_cases State.preemptSlot s n told <;> simp +zetaDelta -implicitDefEqProofs

@[simp] theorem State.resumeSlot_fuses (s : State) (n) : (s.resumeSlot n).fuses = s.fuses := by
  fun_cases State.resumeSlot s n <;> (simp +zetaDelta -implicitDefEqProofs; rw [State.eachMover_fuses])
  case case1 => simp -implicitDefEqProofs
  case case2 => simp -implicitDefEqProofs
  all_goals
    intro s f m
    split <;> simp -implicitDefEqProofs

@[simp] theorem State.faultEnds_fuses (s : State) (n ends) : (s.faultEnds n ends).fuses = s.fuses := by
  unfold State.faultEnds
  repeat' split
  all_goals simp -implicitDefEqProofs

@[simp] theorem State.actDecision_fst_fuses (s : State) (n d) : (s.actDecision n d).1.fuses = s.fuses := by
  unfold State.actDecision
  repeat' split
  all_goals simp -implicitDefEqProofs

@[simp] theorem State.applyDecision_fst_fuses (s : State) (n d) : (s.applyDecision n d).1.fuses = s.fuses := by
  simp -implicitDefEqProofs [State.applyDecision]

@[simp] theorem State.tickSaved_fuses (s : State) (n) : (s.tickSaved n).fuses = s.fuses := by
  unfold State.tickSaved
  split <;> simp -implicitDefEqProofs

@[simp] theorem State.markSilence_fuses (s : State) (n silent) : (s.markSilence n silent).fuses = s.fuses := by
  simp -implicitDefEqProofs [State.markSilence]

@[simp] theorem State.actLate_fst_fuses (s : State) (n ds) : (s.actLate n ds).1.fuses = s.fuses := by
  simp -implicitDefEqProofs [State.actLate]

@[simp] theorem State.tickRunning_fuses (s : State) (n) : (s.tickRunning n).fuses = s.fuses := by
  simp -implicitDefEqProofs [State.tickRunning]

@[simp] theorem State.tickTold_fuses (s : State) (n) : (s.tickTold n).fuses = s.fuses := by
  fun_cases State.tickTold s n <;> simp +zetaDelta -implicitDefEqProofs
  split <;> simp -implicitDefEqProofs

@[simp] theorem State.holdStopped_fuses (s : State) (n) : (s.holdStopped n).fuses = s.fuses := by
  simp -implicitDefEqProofs [State.holdStopped]

@[simp] theorem State.tickSlot_fuses (s : State) (n) : (s.tickSlot n).fuses = s.fuses := by
  simp -implicitDefEqProofs only [State.tickSlot, State.tickTold_fuses, State.updSlot_fuses]
  split <;> simp -implicitDefEqProofs

@[simp] theorem execFaultUnresolved_neverLowers (s : State) (n) : NeverLowers s (execFaultUnresolved n s) := by
  unfold execFaultUnresolved
  split <;> simp -implicitDefEqProofs

@[simp] theorem execTimeLost_neverLowers (s : State) (n) : NeverLowers s (execTimeLost n s) := by
  unfold execTimeLost
  split <;> simp -implicitDefEqProofs

@[simp] theorem State.homeReported_fuses (s : State) (slice home) : (s.homeReported slice home).fuses = s.fuses := by
  unfold State.homeReported
  split <;> simp -implicitDefEqProofs

@[simp] theorem execHomeModuleLost_neverLowers (s : State) (n) : NeverLowers s (execHomeModuleLost n s) := by
  fun_cases execHomeModuleLost n s <;> simp +zetaDelta -implicitDefEqProofs

@[simp] theorem State.dropMember_fuses (s : State) (n) : (s.dropMember n).fuses = s.fuses := by
  simp -implicitDefEqProofs [State.dropMember]

@[simp] theorem execEntryModuleNoAnswer_neverLowers (s : State) (n) : NeverLowers s (execEntryModuleNoAnswer n s) := by
  unfold execEntryModuleNoAnswer
  split <;> simp -implicitDefEqProofs

end Sys2Proof.Machine
end

section

/-!
PROOF. The fuses kept (R418): integrity, calibration, metering, the recorder and the domains.
-/
namespace Sys2Proof.Machine

/-! ### Integrity -/

@[simp] theorem State.judgeBudget_fuses (s : State) (above) : (s.judgeBudget above).fuses = s.fuses := by
  simp -implicitDefEqProofs [State.judgeBudget]

@[simp] theorem State.sample_fuses (s : State) : s.sample.fuses = s.fuses := by
  simp -implicitDefEqProofs [State.sample]

@[simp] theorem execSamplingCompute_neverLowers (s : State) : NeverLowers s (execSamplingCompute s) := by
  simp -implicitDefEqProofs [execSamplingCompute]

@[simp] theorem State.goalTick_fuses (s : State) : s.goalTick.fuses = s.fuses := by
  fun_cases State.goalTick s <;> simp +zetaDelta -implicitDefEqProofs

@[simp] theorem execPositionDue_neverLowers (s : State) (f c p) : NeverLowers s (execPositionDue f c p s) := by
  simp -implicitDefEqProofs [execPositionDue]

@[simp] theorem State.startTest_fuses (s : State) (f c p inPlace) : (s.startTest f c p inPlace).fuses = s.fuses := by
  refine SameFuses.eq ?_
  unfold State.startTest
  extract_lets t u
  have ht : t.fuses = s.fuses := State.updPosition_fuses ..
  have hu : u.fuses = t.fuses := by
    unfold u
    clear_value t
    split <;> rfl
  rw [SameFuses, State.refreshTest_fuses, hu, ht]

@[simp] theorem execTestStart_neverLowers (s : State) (f c p inPlace) : NeverLowers s (execTestStart f c p inPlace s) := by
  simp -implicitDefEqProofs [execTestStart]

@[simp] theorem State.testPasses_fuses (s : State) (f c p) : (s.testPasses f c p).fuses = s.fuses := by
  simp -implicitDefEqProofs only [State.testPasses]
  split <;> simp -implicitDefEqProofs

@[simp] theorem State.testFails_fuses (s : State) (f c p part inPlace) : (s.testFails f c p part inPlace).fuses = s.fuses := by
  simp -implicitDefEqProofs [State.testFails]

@[simp] theorem execTestDone_neverLowers (s : State) (f c p part) : NeverLowers s (execTestDone f c p part s) := by
  unfold execTestDone
  split <;> simp -implicitDefEqProofs

@[simp] theorem execMaximumDeferral_neverLowers (s : State) (f c p) : NeverLowers s (execMaximumDeferral f c p s) := by
  unfold execMaximumDeferral
  repeat' split
  all_goals simp -implicitDefEqProofs

/-! ### Calibration and trim -/

@[simp] theorem State.mrefCheck_fuses (s : State) (v) : (s.mrefCheck v).fuses = s.fuses := by
  simp -implicitDefEqProofs [State.mrefCheck]

@[simp] theorem State.putTrim_fuses (s : State) (x) : (s.putTrim x).fuses = s.fuses := by
  simp -implicitDefEqProofs [State.putTrim]

@[simp] theorem State.putTrims_fuses (s : State) (l) : (s.putTrims l).fuses = s.fuses := by
  simp -implicitDefEqProofs [State.putTrims]

@[simp] theorem State.showBusy_fuses (s : State) : s.showBusy.fuses = s.fuses := by
  simp -implicitDefEqProofs [State.showBusy]

@[simp] theorem State.unparkDue_fuses (s : State) : s.unparkDue.fuses = s.fuses := by
  simp -implicitDefEqProofs [State.unparkDue]

@[simp] theorem State.trimApply_fuses (s : State) : s.trimApply.fuses = s.fuses := by
  simp -implicitDefEqProofs [State.trimApply]

@[simp] theorem State.applyTrims_fuses (s : State) (l) : (s.applyTrims l).fuses = s.fuses := by
  simp -implicitDefEqProofs [State.applyTrims]

@[simp] theorem State.groupResult_fuses (s : State) (g state cause failed) : (s.groupResult g state cause failed).fuses = s.fuses := by
  simp -implicitDefEqProofs [State.groupResult]

@[simp] theorem State.runOver_fuses (s : State) : s.runOver.fuses = s.fuses := by
  unfold State.runOver
  split <;> simp -implicitDefEqProofs

@[simp] theorem State.judgeDacs_fuses (s : State) (g bad readings) : (s.judgeDacs g bad readings).fuses = s.fuses := by
  simp -implicitDefEqProofs [State.judgeDacs]

@[simp] theorem State.judgeGroup_fuses (s : State) (r g mref readings) : (s.judgeGroup r g mref readings).fuses = s.fuses := by
  simp -implicitDefEqProofs [State.judgeGroup]

@[simp] theorem State.judgeLasers_fuses (s : State) (failed mref readings) : (s.judgeLasers failed mref readings).fuses = s.fuses := by
  simp -implicitDefEqProofs [State.judgeLasers]

@[simp] theorem execCalGroupJudged_neverLowers (s : State) (g mref codes) : NeverLowers s (execCalGroupJudged g mref codes s) := by
  unfold execCalGroupJudged
  repeat' split
  all_goals simp -implicitDefEqProofs

@[simp] theorem State.failGroups_fuses (s : State) (gs) : (s.failGroups gs).fuses = s.fuses := by
  simp -implicitDefEqProofs [State.failGroups]

@[simp] theorem State.calRun_fuses (s : State) (mask mref) : (s.calRun mask mref).fuses = s.fuses := by
  fun_cases State.calRun s mask mref <;> simp +zetaDelta -implicitDefEqProofs

@[simp] theorem execCalRun_neverLowers (s : State) (mask mref) : NeverLowers s (execCalRun mask mref s) := by
  simp -implicitDefEqProofs [execCalRun]

@[simp] theorem State.laserRun_fuses (s : State) : s.laserRun.fuses = s.fuses := by
  simp -implicitDefEqProofs [State.laserRun]

@[simp] theorem State.calAbandon_fuses (s : State) : s.calAbandon.fuses = s.fuses := by
  simp -implicitDefEqProofs [State.calAbandon]

@[simp] theorem State.lasersLost_fuses (s : State) : s.lasersLost.fuses = s.fuses := by
  simp -implicitDefEqProofs [State.lasersLost]

@[simp] theorem State.deckCalibrates_fuses (s : State) (mref) : (s.deckCalibrates mref).fuses = s.fuses := by
  simp -implicitDefEqProofs [State.deckCalibrates]

@[simp] theorem State.deckCalLost_fuses (s : State) : s.deckCalLost.fuses = s.fuses := by
  simp -implicitDefEqProofs [State.deckCalLost]

@[simp] theorem State.calHeld_fuses (s : State) : s.calHeld.fuses = s.fuses := by
  simp -implicitDefEqProofs [State.calHeld]

@[simp] theorem State.showFuses_fuses (s : State) : s.showFuses.fuses = s.fuses := by
  simp -implicitDefEqProofs [State.showFuses]

@[simp] theorem State.logInvalid_fuses (s : State) : s.logInvalid.fuses = s.fuses := by
  unfold State.logInvalid
  refine foldl_fuses (fun s x => ?_) _ _
  split <;> simp -implicitDefEqProofs

@[simp] theorem State.burnSlot_fuses (s : State) (key intact) : (s.burnSlot key intact).fuses = s.fuses := by
  fun_cases State.burnSlot s key intact <;> simp +zetaDelta -implicitDefEqProofs

@[simp] theorem execFuseBurn_neverLowers (s : State) (key intact) : NeverLowers s (execFuseBurn key intact s) := by
  simp -implicitDefEqProofs [execFuseBurn]

@[simp] theorem State.flashFail_fuses (s : State) (device off) : (s.flashFail device off).fuses = s.fuses := by
  simp -implicitDefEqProofs [State.flashFail]

@[simp] theorem State.saveRecords_fuses (s : State) (r okA okB) : (s.saveRecords r okA okB).fuses = s.fuses := by
  simp -implicitDefEqProofs [State.saveRecords]

@[simp] theorem State.untracedHour_fuses (s : State) : s.untracedHour.fuses = s.fuses := by
  simp -implicitDefEqProofs [State.untracedHour]

@[simp] theorem execHourlySave_neverLowers (s : State) (okA okB) : NeverLowers s (execHourlySave okA okB s) := by
  simp -implicitDefEqProofs [execHourlySave]

/-! ### Metering -/

@[simp] theorem State.showPending_fuses (s : State) : s.showPending.fuses = s.fuses := by
  simp -implicitDefEqProofs [State.showPending]

@[simp] theorem State.sendRecord_fuses (s : State) (op effective fields slice job tag) :
    (s.sendRecord op effective fields slice job tag).fuses = s.fuses := by
  simp -implicitDefEqProofs [State.sendRecord]

@[simp] theorem State.unmetered_fuses (s : State) (slice) : (s.unmetered slice).fuses = s.fuses := by
  simp -implicitDefEqProofs [State.unmetered]

@[simp] theorem State.assignTick_fuses (s : State) : s.assignTick.fuses = s.fuses := by
  rw [State.assignTick, State.updMeter_fuses, foldl_fuses, foldl_fuses] <;> intro s l <;> split <;> simp -implicitDefEqProofs

@[simp] theorem execTimeRecordSend_neverLowers (s : State) : NeverLowers s (execTimeRecordSend s) := by
  simp -implicitDefEqProofs [execTimeRecordSend]

@[simp] theorem State.resend_fuses (s : State) : s.resend.fuses = s.fuses := by
  simp -implicitDefEqProofs [State.resend]

@[simp] theorem execRecordResend_neverLowers (s : State) : NeverLowers s (execRecordResend s) := by
  simp -implicitDefEqProofs [execRecordResend]

@[simp] theorem State.meterState_fuses (s : State) (st) : (s.meterState st).fuses = s.fuses := by
  simp -implicitDefEqProofs [State.meterState]

@[simp] theorem State.meterStart_fuses (s : State) : s.meterStart.fuses = s.fuses := by
  simp -implicitDefEqProofs [State.meterStart]

@[simp] theorem State.meterVerified_fuses (s : State) : s.meterVerified.fuses = s.fuses := by
  simp -implicitDefEqProofs [State.meterVerified]

@[simp] theorem execCartridgeCheckTimeout_neverLowers (s : State) : NeverLowers s (execCartridgeCheckTimeout s) := by
  simp -implicitDefEqProofs [execCartridgeCheckTimeout]

@[simp] theorem execCartridgeRemoval_neverLowers (s : State) : NeverLowers s (execCartridgeRemoval s) := by
  simp -implicitDefEqProofs [execCartridgeRemoval]

@[simp] theorem State.mirrorRejects_fuses (s : State) : s.mirrorRejects.fuses = s.fuses := by
  simp -implicitDefEqProofs [State.mirrorRejects]

@[simp] theorem State.mirrorSmall_fuses (s : State) : s.mirrorSmall.fuses = s.fuses := by
  simp -implicitDefEqProofs [State.mirrorSmall]

@[simp] theorem State.cartLog_fuses (s : State) (p untraced late part) : (s.cartLog p untraced late part).fuses = s.fuses := by
  simp -implicitDefEqProofs [State.cartLog]

@[simp] theorem State.pushLog_fuses (s : State) : s.pushLog.fuses = s.fuses := by
  fun_cases State.pushLog s
  · rfl
  · rw [foldl_fuses] <;> simp -implicitDefEqProofs

@[simp] theorem State.cartEvent_fuses (s : State) (code what) : (s.cartEvent code what).fuses = s.fuses := by
  simp -implicitDefEqProofs [State.cartEvent]

@[simp] theorem State.acknowledged_fuses (s : State) (r) : (s.acknowledged r).fuses = s.fuses := by
  simp -implicitDefEqProofs [State.acknowledged]

@[simp] theorem State.rejected_fuses (s : State) (logged) : (s.rejected logged).fuses = s.fuses := by
  simp -implicitDefEqProofs [State.rejected]

@[simp] theorem execAssignmentRecord_neverLowers (s : State) (bytes) : NeverLowers s (execAssignmentRecord bytes s) := by
  simp -implicitDefEqProofs [execAssignmentRecord]

@[simp] theorem execBinSample_neverLowers (s : State) (b) : NeverLowers s (execBinSample b s) := by
  simp -implicitDefEqProofs [execBinSample]

@[simp] theorem State.periodEvent_fuses (s : State) (m code) : (s.periodEvent m code).fuses = s.fuses := by
  simp -implicitDefEqProofs [State.periodEvent]

@[simp] theorem State.logSlice_fuses (s : State) (a) : (s.logSlice a).fuses = s.fuses := by
  simp -implicitDefEqProofs [State.logSlice]

@[simp] theorem State.mirrorPeriod_fuses (s : State) : s.mirrorPeriod.fuses = s.fuses := by
  simp -implicitDefEqProofs [State.mirrorPeriod]

@[simp] theorem State.periodEnd_fuses (s : State) : s.periodEnd.fuses = s.fuses := by
  simp -implicitDefEqProofs [State.periodEnd]

@[simp] theorem execPeriodEnd_neverLowers (s : State) : NeverLowers s (execPeriodEnd s) := by
  simp -implicitDefEqProofs [execPeriodEnd]

@[simp] theorem State.showRing_fuses (s : State) : s.showRing.fuses = s.fuses := by
  simp -implicitDefEqProofs [State.showRing]

@[simp] theorem State.storeEntry_fuses (s : State) (e okA okB) : (s.storeEntry e okA okB).fuses = s.fuses := by
  unfold State.storeEntry
  repeat' split
  all_goals simp -implicitDefEqProofs

@[simp] theorem execLogEntry_neverLowers (s : State) (e okA okB) : NeverLowers s (execLogEntry e okA okB s) := by
  simp -implicitDefEqProofs [execLogEntry]

@[simp] theorem State.logCursor_fuses (s : State) (lseq) : (s.logCursor lseq).fuses = s.fuses := by
  fun_cases State.logCursor s lseq <;> simp +zetaDelta -implicitDefEqProofs

@[simp] theorem execLogCursorWrite_neverLowers (s : State) (lseq) : NeverLowers s (execLogCursorWrite lseq s) := by
  simp -implicitDefEqProofs [execLogCursorWrite]

@[simp] theorem execCartridgeCalibration_neverLowers (s : State) (mref drift) :
    NeverLowers s (execCartridgeCalibration mref drift s) := by
  simp -implicitDefEqProofs [execCartridgeCalibration]

@[simp] theorem execTamper_neverLowers (s : State) : NeverLowers s (execTamper s) := by
  simp -implicitDefEqProofs [execTamper]

@[simp] theorem State.cartStart_fuses (s : State) (loss) : (s.cartStart loss).fuses = s.fuses := by
  simp -implicitDefEqProofs [State.cartStart]

@[simp] theorem execCartridgeCheck_neverLowers (s : State) (seating certOk) : NeverLowers s (execCartridgeCheck seating certOk s) := by
  simp -implicitDefEqProofs [execCartridgeCheck]

@[simp] theorem execCartridgePowerLoss_neverLowers (s : State) : NeverLowers s (execCartridgePowerLoss s) := by
  simp -implicitDefEqProofs [execCartridgePowerLoss]

@[simp] theorem State.verPort_neverLowers (s : State) (r) : NeverLowers s (s.verPort r) := by
  simp -implicitDefEqProofs [State.verPort]

@[simp] theorem execIdent_neverLowers (s : State) : NeverLowers s (execIdent s) := State.verPort_neverLowers s _

@[simp] theorem execRegs_neverLowers (s : State) : NeverLowers s (execRegs s) := State.verPort_neverLowers s _

@[simp] theorem execLog_neverLowers (s : State) (lseq) : NeverLowers s (execLog lseq s) := State.verPort_neverLowers s _

@[simp] theorem execSelftest_neverLowers (s : State) (passed) : NeverLowers s (execSelftest passed s) := State.verPort_neverLowers s _

@[simp] theorem State.cartActivate_fuses (s : State) (u) : (s.cartActivate u).fuses = s.fuses := by
  simp -implicitDefEqProofs [State.cartActivate]

@[simp] theorem execUpdate_neverLowers (s : State) (u) : NeverLowers s (execUpdate u s) := by
  unfold execUpdate
  repeat' split
  all_goals simp -implicitDefEqProofs

@[simp] theorem execUnknownCommand_neverLowers (s : State) : NeverLowers s (execUnknownCommand s) := State.verPort_neverLowers s _

/-! ### The recorder -/

@[simp] theorem execRecordClose_neverLowers (s : State) (seq) : NeverLowers s (execRecordClose seq s) := by
  simp -implicitDefEqProofs [execRecordClose]

@[simp] theorem State.writeSuppressed_fuses (s : State) (u) : (s.writeSuppressed u).fuses = s.fuses := by
  simp -implicitDefEqProofs [State.writeSuppressed]

@[simp] theorem execSuppressionRecord_neverLowers (s : State) : NeverLowers s (execSuppressionRecord s) := by
  simp -implicitDefEqProofs [execSuppressionRecord]

@[simp] theorem State.cursorWrite_fuses (s : State) (q) : (s.cursorWrite q).fuses = s.fuses := by
  simp -implicitDefEqProofs [State.cursorWrite]

@[simp] theorem execCursorWrite_neverLowers (s : State) (seq) : NeverLowers s (execCursorWrite seq s) := by
  simp -implicitDefEqProofs [execCursorWrite]

@[simp] theorem State.evrClear_fuses (s : State) (key v) : (s.evrClear key v).fuses = s.fuses := by
  simp -implicitDefEqProofs [State.evrClear]

@[simp] theorem execEvrClear_neverLowers (s : State) (key) : NeverLowers s (execEvrClear key s) := by
  simp -implicitDefEqProofs [execEvrClear]

@[simp] theorem State.note_fuses (s : State) (code) : (s.note code).fuses = s.fuses := by
  simp -implicitDefEqProofs [State.note]

@[simp] theorem execNote_neverLowers (s : State) (code) : NeverLowers s (execNote code s) := by
  simp -implicitDefEqProofs [execNote]

@[simp] theorem State.rateWrite_fuses (s : State) (v) : (s.rateWrite v).fuses = s.fuses := by
  simp -implicitDefEqProofs [State.rateWrite]

/-! ### Domains going down and coming up -/

@[simp] theorem State.waferJobs_fuses (s : State) : s.waferJobs.fuses = s.fuses := by
  simp -implicitDefEqProofs [State.waferJobs]

@[simp] theorem State.lightsOff_fuses (s : State) : s.lightsOff.fuses = s.fuses := by
  simp -implicitDefEqProofs [State.lightsOff]

@[simp] theorem State.waferDown_fuses (s : State) : s.waferDown.fuses = s.fuses := by
  simp -implicitDefEqProofs [State.waferDown]

@[simp] theorem State.writeSettings_fuses (s : State) : s.writeSettings.fuses = s.fuses := by
  rw [State.writeSettings, foldl_fuses, foldl_fuses]
  · intro s e
    split <;> simp -implicitDefEqProofs
  · intro s n
    simp -implicitDefEqProofs

@[simp] theorem State.loadCoords_fuses (s : State) : s.loadCoords.fuses = s.fuses := by
  simp -implicitDefEqProofs [State.loadCoords]

@[simp] theorem State.applyRepairs_fuses (s : State) : s.applyRepairs.fuses = s.fuses := by
  simp -implicitDefEqProofs [State.applyRepairs]

@[simp] theorem State.trainLpddr_fuses (s : State) (failed) : (s.trainLpddr failed).fuses = s.fuses := by
  simp -implicitDefEqProofs [State.trainLpddr]

@[simp] theorem State.loadLibrary_fuses (s : State) (reads) : (s.loadLibrary reads).fuses = s.fuses := by
  unfold State.loadLibrary
  split <;> simp -implicitDefEqProofs

@[simp] theorem State.ageOn_fuses (s : State) : s.ageOn.fuses = s.fuses := by
  unfold State.ageOn
  split <;> simp -implicitDefEqProofs

@[simp] theorem State.waferUp_fuses (s : State) (x) : (s.waferUp x).fuses = s.fuses := by
  simp -implicitDefEqProofs [State.waferUp]

@[simp] theorem execWaferReset_neverLowers (s : State) (x) : NeverLowers s (execWaferReset x s) := by
  simp -implicitDefEqProofs [execWaferReset]

@[simp] theorem execThermalShutdown_neverLowers (s : State) (conv) : NeverLowers s (execThermalShutdown conv s) := by
  simp -implicitDefEqProofs [execThermalShutdown]

@[simp] theorem execWaferRestart_neverLowers (s : State) (conv x) : NeverLowers s (execWaferRestart conv x s) := by
  unfold execWaferRestart
  split <;> simp -implicitDefEqProofs

@[simp] theorem State.controlDown_fuses (s : State) (source) : (s.controlDown source).fuses = s.fuses := by
  simp -implicitDefEqProofs [State.controlDown]

@[simp] theorem execControlReset_neverLowers (s : State) : NeverLowers s (execControlReset s) := by
  simp -implicitDefEqProofs [execControlReset]

@[simp] theorem State.powerOff_fuses (s : State) : s.powerOff.fuses = s.fuses := by
  simp -implicitDefEqProofs [State.powerOff]

@[simp] theorem execFeedLost_neverLowers (s : State) (feed volts) : NeverLowers s (execFeedLost feed volts s) := by
  simp -implicitDefEqProofs [execFeedLost]

@[simp] theorem State.deckLost_fuses (s : State) : s.deckLost.fuses = s.fuses := by
  simp -implicitDefEqProofs [State.deckLost]

@[simp] theorem execDeckPowerLoss_neverLowers (s : State) (expired) : NeverLowers s (execDeckPowerLoss expired s) := by
  simp -implicitDefEqProofs [execDeckPowerLoss]

@[simp] theorem State.deckRestore_fuses (s : State) (paths) : (s.deckRestore paths).fuses = s.fuses := by
  simp -implicitDefEqProofs only [State.deckRestore, ite_fuses, State.deckStart_fuses, State.wr_fuses, implies_true, foldl_fuses,
      ite_self, ite_eq_left_iff]
  split <;> simp -implicitDefEqProofs

@[simp] theorem State.deckRestart_fuses (s : State) (mref) : (s.deckRestart mref).fuses = s.fuses := by
  simp -implicitDefEqProofs [State.deckRestart]

@[simp] theorem State.deckCtrl_fuses (s : State) (v) : (s.deckCtrl v).fuses = s.fuses := by
  simp -implicitDefEqProofs [State.deckCtrl]

@[simp] theorem execDeckResetKey_neverLowers (s : State) (key park) : NeverLowers s (execDeckResetKey key park s) := by
  simp -implicitDefEqProofs [execDeckResetKey]

@[simp] theorem execDeckReset_neverLowers (s : State) (mref) : NeverLowers s (execDeckReset mref s) := by
  simp -implicitDefEqProofs [execDeckReset]

@[simp] theorem State.updPort_fuses (s : State) (p g) : (s.updPort p g).fuses = s.fuses := by
  simp -implicitDefEqProofs [State.updPort]

@[simp] theorem execHello_neverLowers (s : State) (p session) : NeverLowers s (execHello p session s) := by
  simp -implicitDefEqProofs [execHello]

@[simp] theorem execPeerDown_neverLowers (s : State) (p) : NeverLowers s (execPeerDown p s) := by
  simp -implicitDefEqProofs [execPeerDown]

@[simp] theorem execResynchronisation_neverLowers (s : State) (p session) : NeverLowers s (execResynchronisation p session s) := by
  unfold execResynchronisation
  split <;> simp -implicitDefEqProofs

end Sys2Proof.Machine
end

section

/-!
PROOF. The fuses kept (R418): what firmware, power-up, set-up space and the tick do apart from burning fuses.
-/
namespace Sys2Proof.Machine

/-! ### Firmware -/

@[simp] theorem State.writeBoot_fuses (s : State) (r okA okB) : (s.writeBoot r okA okB).fuses = s.fuses := by
  simp -implicitDefEqProofs [State.writeBoot]

@[simp] theorem State.fallBack_fuses (s : State) (r last okA okB) : (s.fallBack r last okA okB).fuses = s.fuses := by
  simp -implicitDefEqProofs [State.fallBack]

@[simp] theorem State.putSettings_fuses (s : State) (n x okA okB) : (s.putSettings n x okA okB).fuses = s.fuses := by
  simp -implicitDefEqProofs [State.putSettings]

@[simp] theorem State.defaultsTo_fuses (s : State) (m n seq okA okB) : (s.defaultsTo m n seq okA okB).fuses = s.fuses := by
  simp -implicitDefEqProofs [State.defaultsTo]

@[simp] theorem State.settingsFloor_fuses (s : State) (m okA okB) : (s.settingsFloor m okA okB).fuses = s.fuses := by
  simp -implicitDefEqProofs [State.settingsFloor]

@[simp] theorem State.settingsUse_fst_fuses (s : State) (m r okA okB) : (s.settingsUse m r okA okB).1.fuses = s.fuses := by
  fun_cases State.settingsUse s m r okA okB <;> simp +zetaDelta -implicitDefEqProofs

@[simp] theorem State.recover_fuses (s : State) (r) : (s.recover r).fuses = s.fuses := by
  simp -implicitDefEqProofs [State.recover]

@[simp] theorem State.showOther_fuses (s : State) (slot) : (s.showOther slot).fuses = s.fuses := by
  simp -implicitDefEqProofs [State.showOther]

@[simp] theorem State.showBoot_fuses (s : State) (slot state attempts m) : (s.showBoot slot state attempts m).fuses = s.fuses := by
  simp -implicitDefEqProofs [State.showBoot]

@[simp] theorem State.runImage_fuses (s : State) (slot state attempts m) : (s.runImage slot state attempts m).fuses = s.fuses := by
  simp -implicitDefEqProofs [State.runImage]

@[simp] theorem State.fwuDone_fuses (s : State) (op result phase) : (s.fwuDone op result phase).fuses = s.fuses := by
  simp -implicitDefEqProofs [State.fwuDone]

@[simp] theorem State.fwuBegin_fuses (s : State) : s.fwuBegin.fuses = s.fuses := by
  simp -implicitDefEqProofs [State.fwuBegin]

@[simp] theorem execBegin_neverLowers (s : State) (length) : NeverLowers s (execBegin length s) := by
  simp -implicitDefEqProofs [execBegin]

@[simp] theorem State.fwuWrite_fuses (s : State) (okA okB) : (s.fwuWrite okA okB).fuses = s.fuses := by
  fun_cases State.fwuWrite s okA okB <;> simp +zetaDelta -implicitDefEqProofs

@[simp] theorem execFwuWrite_neverLowers (s : State) (offset len okA okB) : NeverLowers s (execFwuWrite offset len okA okB s) := by
  simp -implicitDefEqProofs [execFwuWrite]

@[simp] theorem State.fwuVerify_fuses (s : State) : s.fwuVerify.fuses = s.fuses := by
  simp -implicitDefEqProofs [State.fwuVerify]

@[simp] theorem execVerify_neverLowers (s : State) : NeverLowers s (execVerify s) := by
  simp -implicitDefEqProofs [execVerify]

@[simp] theorem State.fwuActivate_fuses (s : State) (okA okB) : (s.fwuActivate okA okB).fuses = s.fuses := by
  simp -implicitDefEqProofs [State.fwuActivate]

@[simp] theorem execActivate_neverLowers (s : State) (okA okB) : NeverLowers s (execActivate okA okB s) := by
  simp -implicitDefEqProofs [execActivate]

@[simp] theorem State.fwuAbort_fuses (s : State) : s.fwuAbort.fuses = s.fuses := by
  simp -implicitDefEqProofs [State.fwuAbort]

@[simp] theorem execAbort_neverLowers (s : State) : NeverLowers s (execAbort s) := by
  simp -implicitDefEqProofs [execAbort]

@[simp] theorem execTrialWatchdog_neverLowers (s : State) (okA okB) : NeverLowers s (execTrialWatchdog okA okB s) := by
  unfold execTrialWatchdog
  repeat' split
  all_goals simp -implicitDefEqProofs

@[simp] theorem State.attest_fuses (s : State) : s.attest.fuses = s.fuses := by
  simp -implicitDefEqProofs [State.attest]

@[simp] theorem execAttest_neverLowers (s : State) (nonce) : NeverLowers s (execAttest nonce s) := by
  simp -implicitDefEqProofs [execAttest]

/-! ### Power-up -/

@[simp] theorem State.recorderStart_fuses (s : State) : s.recorderStart.fuses = s.fuses := by
  simp -implicitDefEqProofs [State.recorderStart]

@[simp] theorem State.loadSaved_fuses (s : State) (held) : (s.loadSaved held).fuses = s.fuses := by
  simp -implicitDefEqProofs only [State.loadSaved, State.logInvalid_fuses, State.showFuses_fuses, State.putTrims_fuses,
      implies_true, foldl_fuses, State.showRing_fuses]
  split <;> simp -implicitDefEqProofs

@[simp] theorem State.startFeeds_fuses (s : State) (a b) : (s.startFeeds a b).fuses = s.fuses := by
  simp -implicitDefEqProofs [State.startFeeds]

@[simp] theorem State.controlUp_fuses (s : State) (x held) : (s.controlUp x held).fuses = s.fuses := by
  simp -implicitDefEqProofs [State.controlUp]

@[simp] theorem State.waferSteps_fuses (s : State) (x) : (s.waferSteps x).fuses = s.fuses := by
  simp -implicitDefEqProofs [State.waferSteps]

@[simp] theorem execModRstN_neverLowers (s : State) : NeverLowers s (execModRstN s) := by
  simp -implicitDefEqProofs [execModRstN]

/-! ### Set-up space -/

@[simp] theorem State.setLock_fuses (s : State) : s.setLock.fuses = s.fuses := by
  simp -implicitDefEqProofs [State.setLock]

@[simp] theorem execSetupLock_neverLowers (s : State) (key) : NeverLowers s (execSetupLock key s) := by
  simp -implicitDefEqProofs [execSetupLock]

@[simp] theorem execAutolock_neverLowers (s : State) : NeverLowers s (execAutolock s) := by
  simp -implicitDefEqProofs [execAutolock]

@[simp] theorem State.lineRead_fuses (s : State) : s.lineRead.fuses = s.fuses := by
  simp -implicitDefEqProofs [State.lineRead]

@[simp] theorem execLineRead_neverLowers (s : State) (line) : NeverLowers s (execLineRead line s) := by
  simp -implicitDefEqProofs [execLineRead]

@[simp] theorem State.plainWrite_fuses (s : State) (r i v) : (s.plainWrite r i v).fuses = s.fuses := by
  unfold State.plainWrite
  refine foldl_fuses (fun s x => ?_) _ _
  split <;> simp -implicitDefEqProofs

@[simp] theorem State.calCmd_fuses (s : State) (v) : (s.calCmd v).fuses = s.fuses := by
  unfold State.calCmd
  split <;> simp -implicitDefEqProofs

@[simp] theorem State.formatRefused_fuses (s : State) (off bs) : (s.formatRefused off bs).fuses = s.fuses := by
  simp -implicitDefEqProofs [State.formatRefused]

@[simp] theorem execMgmtArp_neverLowers (s : State) (addr) : NeverLowers s (execMgmtArp addr s) := by
  simp -implicitDefEqProofs [execMgmtArp]

@[simp] theorem State.withSlot_fuses {g : State → Nat → State} (h : ∀ s n, (g s n).fuses = s.fuses) (s : State) (slice) :
    (s.withSlot slice g).fuses = s.fuses := by
  unfold State.withSlot
  split <;> simp [h]

@[simp] theorem State.takeAreas_fuses (s : State) (slice n live) : (s.takeAreas slice n live).fuses = s.fuses := by
  fun_cases State.takeAreas s slice n live
  case case1 h => simp -implicitDefEqProofs [State.allocFrames_fuses h]
  all_goals rfl

@[simp] theorem State.sliceTold_fuses (s : State) (b) : (s.sliceTold b).fuses = s.fuses := by
  fun_cases State.sliceTold s b
  case case6 =>
    refine State.withSlot_fuses (fun s n => SameFuses.eq ?_) ..
    extract_lets t
    have ht : SameFuses s t := by
      unfold t
      rw [SameFuses, State.takeAreas_fuses, State.setFld_fuses, State.setFld_fuses]
    exact ht.trans (.trans (.of_eq (State.updSlot_fuses ..)) (.foldl (fun s f => .of_eq (State.loadStart_fuses ..)) ..))
  all_goals simp -implicitDefEqProofs

@[simp] theorem execI3cCcc_neverLowers (s : State) (c) : NeverLowers s (execI3cCcc c s) := by
  unfold execI3cCcc
  repeat' split
  all_goals simp -implicitDefEqProofs

/-! ### The tick -/

@[simp] theorem State.missionTick_fuses (s : State) (dieMax) : (s.missionTick dieMax).fuses = s.fuses := by
  simp -implicitDefEqProofs [State.missionTick]

@[simp] theorem State.powerTick_fuses (s : State) (x) : (s.powerTick x).fuses = s.fuses := by
  simp -implicitDefEqProofs [State.powerTick]

@[simp] theorem State.showMover_fuses (s : State) (k) : (s.showMover k).fuses = s.fuses := by
  simp -implicitDefEqProofs [State.showMover]

@[simp] theorem State.showMovers_fuses (s : State) : s.showMovers.fuses = s.fuses := by
  simp -implicitDefEqProofs [State.showMovers]

@[simp] theorem State.startMovers_fuses (s : State) : s.startMovers.fuses = s.fuses := by
  simp -implicitDefEqProofs [State.startMovers]

@[simp] theorem State.freeOps_fuses (s : State) : s.freeOps.fuses = s.fuses := by
  simp -implicitDefEqProofs [State.freeOps]

@[simp] theorem State.resolveTick_fuses (s : State) : s.resolveTick.fuses = s.fuses := by
  simp -implicitDefEqProofs [State.resolveTick]

@[simp] theorem State.jobsTick_fuses (s : State) : s.jobsTick.fuses = s.fuses := by
  simp -implicitDefEqProofs [State.jobsTick]

@[simp] theorem State.testsTick_fuses (s : State) : s.testsTick.fuses = s.fuses := by
  simp -implicitDefEqProofs [State.testsTick]

@[simp] theorem State.holdAway_fuses (s : State) : s.holdAway.fuses = s.fuses := by
  simp -implicitDefEqProofs [State.holdAway]

@[simp] theorem State.waferTick_fuses (s : State) (x) : (s.waferTick x).fuses = s.fuses := by
  simp -implicitDefEqProofs [State.waferTick]

@[simp] theorem State.opticsTick_fuses (s : State) (x) : (s.opticsTick x).fuses = s.fuses := by
  simp -implicitDefEqProofs [State.opticsTick]

@[simp] theorem State.opticsTicked_fuses (s : State) (x) : (s.opticsTicked x).fuses = s.fuses := by
  simp -implicitDefEqProofs [State.opticsTicked]

@[simp] theorem execTick_neverLowers (s : State) (x) : NeverLowers s (execTick x s) := by
  simp -implicitDefEqProofs [execTick]

end Sys2Proof.Machine
end

section

/-!
PROOF. The functions that burn fuses (R418, R427): a confirmation, the finish of a burn at a boot, and what calls them: FWU_CMD and the
register writes of set-up space, the requests that carry such writes, and the boots.
-/
namespace Sys2Proof.Machine

/-- Burning to a version, whatever becomes of the fuse of the revoked key. -/
theorem versionLe_burnTo (s : State) (v : Nat) (b : Bool) : VersionLe s { s with fuses := { s.fuses.burnTo v with revoked := b } } :=
  s.fuses.version_le_burnTo v

theorem State.confirm_versionLe (s : State) (okA okB library) : VersionLe s (s.confirm okA okB library) := by
  unfold State.confirm
  extract_lets +onlyGivenNames slot m s1
  have h1 : VersionLe s s1 := by unfold s1; exact .of_eq (State.writeBoot_fuses ..)
  refine h1.trans (.ite (.of_eq (State.fwuDone_fuses ..)) ?_)
  extract_lets _ _ t u
  refine (versionLe_burnTo s1 m.secVer (s1.fuses.revoked || (m.revokes && m.key == 1))).trans (.of_eq ?_)
  unfold u t
  rw [State.fwuDone_fuses, State.loadLibrary_fuses, State.setFld_fuses, State.setFld_fuses, State.showBoot_fuses]

theorem State.finishBurn_versionLe (s : State) (m) : VersionLe s (s.finishBurn m) := by
  unfold State.finishBurn
  extract_lets +onlyGivenNames before revoke
  refine .ite ?_ (.refl s)
  refine (versionLe_burnTo s m.secVer (s.fuses.revoked || revoke)).trans (.of_eq ?_)
  rw [State.log_fuses, State.setFld_fuses, State.setFld_fuses]

theorem State.fwuCmd_versionLe (s : State) (op) : VersionLe s (s.fwuCmd op) := by
  fun_cases State.fwuCmd s op
  case case5 => exact State.confirm_versionLe ..
  all_goals exact .of_eq (by simp -implicitDefEqProofs)

theorem State.regAct_versionLe (s : State) (r i v) : VersionLe s (s.regAct r i v) := by
  fun_cases State.regAct s r i v
  -- A write of FWU_CMD.
  case case44 => exact (VersionLe.of_eq (State.plainWrite_fuses ..)).trans (State.fwuCmd_versionLe ..)
  -- A register without a command of its own, whose write may be staged.
  case case58 | case59 | case60 => exact .of_eq (by split <;> simp +zetaDelta -implicitDefEqProofs)
  all_goals exact .of_eq (by simp +zetaDelta -implicitDefEqProofs)

theorem State.regWriteAt_versionLe (s : State) (r i v off part) : VersionLe s (s.regWriteAt r i v off part).1 := by
  unfold State.regWriteAt
  extract_lets kept ignored acts moves whole x s1 s2 bad s3
  have h1 : VersionLe s s1 := .ite (.refl s) (State.regAct_versionLe ..)
  have h2 : VersionLe s1 s2 := .ite (.refl s1) (.of_eq (State.log_fuses ..))
  have h3 : VersionLe s2 s3 := .ite (.of_eq (State.log_fuses ..)) (.refl s2)
  exact h1.trans (h2.trans h3)

theorem State.unitWrite_versionLe (s : State) (path u x) : VersionLe s (s.unitWrite path u x).1 := by
  unfold State.unitWrite
  split
  · exact State.regWriteAt_versionLe ..
  · exact .of_eq (State.log_fuses ..)

theorem State.unitsWrite_versionLe (s : State) (path us bs) : VersionLe s (s.unitsWrite path us bs).1 := by
  induction us generalizing s bs with
  | nil => exact .refl s
  | cons u us ih => exact (State.unitWrite_versionLe ..).trans (ih ..)

theorem State.setupWrite_versionLe (s : State) (path off bs) : VersionLe s (s.setupWrite path off bs).1 := by
  unfold State.setupWrite
  split
  · exact State.unitsWrite_versionLe ..
  · exact .of_eq (State.formatRefused_fuses ..)

theorem State.serve_versionLe (s : State) (path h data) : VersionLe s (s.serve path h data).1 := by
  fun_cases State.serve s path h data
  case case3 t c hwrite => exact .of_pair hwrite (State.setupWrite_versionLe ..)
  all_goals exact .of_eq (by simp -implicitDefEqProofs)

theorem State.numbered_versionLe (s : State) (path last accept h data) (haccept : (accept s).fuses = s.fuses) :
    VersionLe s (s.numbered path last accept h data).1 := by
  fun_cases State.numbered s path last accept h data
  case case1 => exact .of_eq (State.bump_fuses ..)
  case case2 t c out hserve => exact (VersionLe.of_eq haccept).trans (.of_pair hserve (State.serve_versionLe ..))

theorem State.mgmtRequest_versionLe (s : State) (p ident) : VersionLe s (s.mgmtRequest p ident) := by
  fun_cases State.mgmtRequest s p ident
  case case1 => exact .of_eq (State.bump_fuses ..)
  case case2 t r hnumbered =>
    have ht : VersionLe s t := .of_pair hnumbered (State.numbered_versionLe _ _ _ _ _ _ (State.updAccess_fuses ..))
    exact ht.trans (.of_eq (State.sendMgmt_fuses ..))

@[simp] theorem execMgmt_neverLowers (s : State) (via p x) : NeverLowers s (execMgmt via p x s) := by
  fun_cases execMgmt via p x s
  case case2 => exact .next (State.mgmtRequest_versionLe ..)
  all_goals simp -implicitDefEqProofs

@[simp] theorem execConfirm_neverLowers (s : State) (okA okB library) : NeverLowers s (execConfirm okA okB library s) := by
  fun_cases execConfirm okA okB library s
  case case1 => exact .next (State.confirm_versionLe ..)
  case case2 => exact .next (.of_eq (State.fwuDone_fuses ..))

/-- The settings that a boot takes up after a step that does not lower the version. -/
theorem State.versionLe_settingsUse {s t u : State} {m r okA okB o} (h : VersionLe s t)
    (huse : (t.settingsFloor m okA okB).settingsUse m r okA okB = (u, o)) : VersionLe s u :=
  h.trans (.trans (.of_eq (settingsFloor_fuses ..)) (.of_pair huse (.of_eq (settingsUse_fst_fuses ..))))

theorem State.fallBack_versionLe (s : State) (r c okA okB) : VersionLe s (s.fallBack r c okA okB) := .of_eq (fallBack_fuses ..)

theorem State.runImage_versionLe (s : State) (n st a m) : VersionLe s (s.runImage n st a m) := .of_eq (runImage_fuses ..)

/-- Along a boot: before it runs, an image finishes its burn (case 3 and 4), or an older image or a trial is tried without one, and each
step back to the boot records keeps the fuses. -/
theorem State.bootGo_versionLe (s : State) (okA okB fuel) : VersionLe s (s.bootGo okA okB fuel) := by
  fun_induction State.bootGo s okA okB fuel
  case case3 huse => exact (versionLe_settingsUse (finishBurn_versionLe ..) huse).trans (runImage_versionLe ..)
  case case4 huse ih => exact (versionLe_settingsUse (finishBurn_versionLe ..) huse).trans ih
  case case5 huse => exact (versionLe_settingsUse (.of_eq (setFld_fuses ..)) huse).trans (runImage_versionLe ..)
  case case6 huse ih => exact (versionLe_settingsUse (.of_eq (setFld_fuses ..)) huse).trans ih
  case case10 huse => exact (versionLe_settingsUse (.of_eq (writeBoot_fuses ..)) huse).trans (runImage_versionLe ..)
  case case11 huse ih => exact (versionLe_settingsUse (.of_eq (writeBoot_fuses ..)) huse).trans ih
  case case8 ih | case9 ih | case12 ih => exact (fallBack_versionLe ..).trans ih
  case case14 ih =>
    exact (VersionLe.of_eq (defaultsTo_fuses ..)).trans (.trans (.of_eq (writeBoot_fuses ..)) (.trans (.of_eq (setFld_fuses ..)) ih))
  all_goals exact .of_eq (recover_fuses ..)

theorem State.bootChain_versionLe (s : State) (okA okB) : VersionLe s (s.bootChain okA okB) :=
  (VersionLe.of_eq (updDomains_fuses ..)).trans (bootGo_versionLe ..)

@[simp] theorem execBoot_neverLowers (s : State) (okA okB) : NeverLowers s (execBoot okA okB s) := by
  fun_cases execBoot okA okB s
  case case1 => exact .next (State.bootChain_versionLe ..)
  case case2 => exact .next (.refl s)

theorem State.powerUp_versionLe (s : State) (x) : VersionLe s (s.powerUp x) := by
  unfold State.powerUp
  extract_lets held s1 s2 s3 s4 s5 s6
  have h1 : VersionLe s s1 := by
    unfold s1
    exact .ite (.of_eq (powerOff_fuses ..)) (.refl s)
  have h2 : VersionLe s1 s2 := by
    unfold s2
    exact .of_eq (controlUp_fuses ..)
  have h3 : VersionLe s2 s3 := by
    unfold s3
    exact .ite (.ite (.of_eq (meterStart_fuses ..)) (.of_eq (cartStart_fuses ..))) (.refl s2)
  have h4 : VersionLe s3 s4 := bootChain_versionLe ..
  have h5 : VersionLe s4 s5 := by
    unfold s5
    exact .ite (.trans (.of_eq (setFld_fuses ..)) (.of_eq (updDeck_fuses ..))) (.of_eq (deckRestart_fuses ..))
  have h6 : VersionLe s5 s6 := by
    unfold s6
    exact .trans (.of_eq (waferSteps_fuses ..)) (.of_eq (startFeeds_fuses ..))
  exact h1.trans (h2.trans (h3.trans (h4.trans (h5.trans (h6.trans (.of_eq (updDomains_fuses ..)))))))

@[simp] theorem execPowerUp_neverLowers (s : State) (x) : NeverLowers s (execPowerUp x s) := by
  fun_cases execPowerUp x s
  case case1 => exact .next (State.powerUp_versionLe ..)
  case case2 => exact .next (.refl s)

@[simp] theorem execSetupRequest_neverLowers (s : State) (station port datagram) :
    NeverLowers s (execSetupRequest station port datagram s) := by
  fun_cases execSetupRequest station port datagram s
  case case1 => exact .next (.refl s)
  case case4 t _ _ _ _ _ u r hnumbered =>
    have hu : VersionLe t u := .of_pair hnumbered (State.numbered_versionLe _ _ _ _ _ _ (State.updAccess_fuses ..))
    exact .next ((VersionLe.of_eq (State.setFld_fuses ..)).trans (hu.trans (.of_eq (State.emit_fuses ..))))
  all_goals exact .next ((VersionLe.of_eq (State.setFld_fuses ..)).trans (.of_eq (State.bump_fuses ..)))

@[simp] theorem execI3cPrivateTransfer_neverLowers (s : State) (t) : NeverLowers s (execI3cPrivateTransfer t s) := by
  fun_cases execI3cPrivateTransfer t s
  case case5 t _ _ _ u c hwrite =>
    have hu : VersionLe t u := .of_pair hwrite (State.setupWrite_versionLe ..)
    exact .next ((VersionLe.of_eq (State.emit_fuses ..)).trans (hu.trans (.of_eq (State.updAccess_fuses ..))))
  all_goals simp +zetaDelta -implicitDefEqProofs

@[simp] theorem execRegisterWrite_neverLowers (s : State) (path offset bytes) :
    NeverLowers s (execRegisterWrite path offset bytes s) := by
  fun_cases execRegisterWrite path offset bytes s
  case case1 => exact .next (State.setupWrite_versionLe ..)
  case case2 => exact .next (.refl s)

@[simp] theorem execModRstNRelease_neverLowers (s : State) (okA okB x) : NeverLowers s (execModRstNRelease okA okB x s) := by
  fun_cases execModRstNRelease okA okB x s
  case case1 =>
    exact .next ((VersionLe.of_eq (State.updDomains_fuses ..)).trans
      (.trans (State.bootChain_versionLe ..) (.of_eq (State.waferSteps_fuses ..))))
  case case2 => exact .next (.refl s)

end Sys2Proof.Machine
end

section

/-!
PROOF. The fused version (R418): no command lowers it.
-/
namespace Sys2Proof.Machine

theorem exec_neverLowers (i : Instr) (s : State) : NeverLowers s (exec i s) := by
  fun_cases exec i s <;> simp -implicitDefEqProofs

/-- Settles O55: a fold over fuses gives their version and what burning adds, and each command keeps the fuses or burns more of them. -/
theorem fusedVersion : Obligations.FusedVersion := by
  refine ⟨Fuses.pair_iff, fun _ _ => Fuses.le_version_of_pair, Fuses.version_zero_or_pair, fun f v hv => ?_,
    exec_neverLowers⟩
  intro missing
  have hburn : f.burnTo v = f.burnBoth missing := by rw [Fuses.burnTo_eq, Nat.min_eq_right hv]
  refine ⟨congrArg Fuses.left hburn, congrArg Fuses.right hburn, fun hmissing => ?_, f.version_le_burnTo v⟩
  rw [hburn, hmissing, Fuses.burnBoth_nil]

end Sys2Proof.Machine
end
